-- ==== Sys2Proof/Word.lean ====
section
/-! DEFINITION. Word types, byte memories and sparse tables, with the canonical form of each. -/

namespace Sys2Proof

/-- A byte. -/
abbrev Byte := BitVec 8

/-- A 32-bit register value (R340: every register is 32 bits wide). -/
abbrev W32 := BitVec 32

/-- A 64-bit word: bank words (R322), parameters and results (R244, R245). -/
abbrev W64 := BitVec 64

/-- A tick count (R64). It is a natural number; the operations that advance the 64-bit counter wrap it. -/
abbrev Tick := Nat

/-- Sparse bytes in canonical form: addresses strictly rising, no entry equal to 0, and an unlisted
address reads as 0 (log entry 5). -/
abbrev Mem := List Host.Cell

/-- Addresses rise strictly from `lo` on and no listed byte is 0. -/
def Mem.wfFrom : Nat → Mem → Bool
  | _, [] => true
  | lo, (a, b) :: m => decide (lo ≤ a) && (b != 0#8) && Mem.wfFrom (a + 1) m

/-- The canonical form of a byte memory. -/
def Mem.wf (m : Mem) : Bool := Mem.wfFrom 0 m

/-- A sparse table from numbers (of a lane, a ring, an offset ...) to values, keys rising. -/
abbrev Tbl (α : Type) := List (Nat × α)

/-- Keys rise strictly from `lo` on. -/
def Tbl.wfFrom {α : Type} : Nat → Tbl α → Bool
  | _, [] => true
  | lo, (k, _) :: t => decide (lo ≤ k) && Tbl.wfFrom (k + 1) t

/-- The canonical form of a sparse table: every key at most once, in rising order. -/
def Tbl.wf {α : Type} (t : Tbl α) : Bool := Tbl.wfFrom 0 t

/-- A byte string as the host supplies it: its length, and its bytes other than 0. -/
structure Image where
  len : Nat
  bytes : Mem
  deriving DecidableEq, Repr

/-- The empty byte string. -/
def Image.empty : Image := { len := 0, bytes := [] }

end Sys2Proof
end

