-- ==== Sys2Proof/Syntax.lean ====
section
/-! DEFINITION. The commands of the block: one constructor of `Instr` per row of spec/opcode_table.json,
and the types of their operands. The table gives no operands; log entry 1 says how they were chosen:
a command carries what reaches the engine from outside at that step, and nothing the engine itself decides. -/

namespace Sys2Proof

/-- A submission entry without its opcode, which the row names (R244). -/
structure Entry where
  flags : BitVec 8
  rsvd : BitVec 8
  tag : W32
  p0 : W64
  p1 : W64
  p2 : W64
  p3 : W64
  p4 : W64
  p5 : W64
  p6 : W64
  deriving DecidableEq, Repr

/-- Who makes a register access (R343, R223): the host over PCIe, or CSQ. -/
inductive Master where
  | host
  | csq
  deriving DecidableEq, Repr

/-- What a SECDED or device-correcting check of a stored word finds (R105, R182, R331): the environment's choice,
since cells fail for causes outside the engine. `flips` are the bits, as a little-endian number, in which the word as read then
differs from what was last written to it. -/
inductive Ecc where
  | good
  | corrected (dev : Nat)
  | uncorrectable (flips : Nat)
  deriving DecidableEq, Repr

/-- An error in a unit of a quadrant that one slot or one sample meets (R191); `flips` are the bits in which the word as used
differs from what the unit held. `corrected` errors change nothing. `shadow`: the shadow decode of the stream's next block will not match
(R141). -/
inductive QuadErr where
  | xbarParity (flips : Nat)
  | ebUncor (flips : Nat)
  | ebCor
  | wbUncor (flips : Nat)
  | wbCor
  | shadow
  deriving DecidableEq, Repr

/-- A parity error on a line of a quadrant's slice of the routing network (R191): the line arrives inverted at tick `i` of the slice. -/
structure LineFlip where
  quad : Nat
  i : Nat
  line : Nat
  deriving DecidableEq, Repr

/-- Who accesses a scratch bank or writes BANKOWN (R323): the host, a sequencer, or a codec engine. -/
inductive BankUser where
  | host
  | seq (q : Nat)
  | codec (x : Nat)
  deriving DecidableEq, Repr

/-- One access through the other port of a bank in the same cycle (R329). -/
inductive PortOp where
  | read
  | write (v : W64)
  | fetchAdd (d : W64)
  | swap (v : W64)
  deriving DecidableEq, Repr

/-- A frame as it reaches the engine: the 20 header bits (R35), the payload bytes (R37), and how many symbols of its codeword arrive
in error (R34). -/
structure RxFrame where
  hdr : BitVec 20
  payload : Mem
  wrong : Nat
  deriving DecidableEq, Repr

/-- A host request to the scratch-bank view of BAR2 (R220). -/
inductive ViewReq where
  | read (off len : Nat)
  | write (off : Nat) (bytes : List Byte) (poisoned : Bool)
  deriving DecidableEq, Repr

/-- A request answered with Unsupported Request (R222). -/
inductive UrKind where
  | io
  | atomicOp
  | message
  | noBar
  | memSpaceOff
  deriving DecidableEq, Repr

/-- A configuration request (R213 to R215, R217): a read of a doubleword, or a write of one field; and an access to the MSI-X table or PBA in
BAR4 (R231). `aerStatus` clears the bits written as 1; `cor` names the register of correctable errors; `tablePoisoned` is a poisoned write to BAR4 (R224);
`other` writes the bits of a doubleword that no other request names. -/
inductive CfgReq where
  | read (off : Nat)
  | memSpace (on : Bool)
  | busMaster (on : Bool)
  | maxPayload (bytes : Nat)
  | maxReadReq (bytes : Nat)
  | tenBitTags (on : Bool)
  | cplTimeout (value : Nat)
  | relaxedOrdering (on : Bool)
  | msixEnable (on : Bool)
  | functionMask (on : Bool)
  | vectorMask (v : Nat) (on : Bool)
  | vectorEntry (v addr data : Nat)
  | powerD3hot (on : Bool)
  | bar (i : Nat) (v : W32)
  | aerStatus (cor : Bool) (v : W32)
  | aerMask (cor : Bool) (v : W32)
  | aerSeverity (v : W32)
  | tableRead (off : Nat)
  | tablePoisoned (off : Nat)
  | other (off : Nat) (v : W32)
  deriving DecidableEq, Repr

/-- Severity of an error that AER reports (R224). -/
inductive AerSev where
  | correctable
  | uncorrectable
  deriving DecidableEq, Repr

/-- A cause of a fresh ECLIPSE that is no COMMIT (R74). -/
inductive LockFail where
  | lockLoss
  | refLoss
  deriving DecidableEq, Repr

/-- The tables whose words a settings check reads (R105, R130). -/
inductive TableUnit where
  | cluster (c : Nat)
  | automaton (a : Nat)
  deriving DecidableEq, Repr

/-- A boot flash as an external programmer leaves it while SYS_RESET_N is low (R312, R394). -/
structure Flash where
  slotA : Image
  slotB : Image
  deriving DecidableEq, Repr

/-- A word that fails a march read: bank and word number (R332). -/
structure MarchFail where
  bank : Nat
  word : Nat
  deriving DecidableEq, Repr

/-- The commands. A name's docstring gives the rule the table names for the row. `r` is the SUB ring whose entry is
examined, `e` the entry; lanes 0 to 127 are lanes, 128 to 131 the cascade lanes K0 to K3. -/
inductive Instr where
  /-- R251. -/
  | nop (r : Nat) (e : Entry)
  /-- R251. -/
  | identify (r : Nat) (e : Entry)
  /-- R254. -/
  | inventory (r : Nat) (e : Entry)
  /-- R161. -/
  | populationSet (r : Nat) (e : Entry)
  /-- R187. -/
  | dramTrain (r : Nat) (e : Entry)
  /-- R187. `ready`: the channels that trained; `bad`: words the preserving march found failing. -/
  | dramTrainEnd (ready : BitVec 8) (bad : List MarchFail)
  /-- R251. -/
  | laneSet (r : Nat) (e : Entry)
  /-- R45. -/
  | linkTrain (r : Nat) (e : Entry)
  /-- R44. -/
  | trainingStateExit (lane : Nat)
  /-- R44. -/
  | trainingTimeout (lane : Nat)
  /-- R45. -/
  | waveEnd
  /-- R69. -/
  | timebaseSet (r : Nat) (e : Entry)
  /-- R81. -/
  | conjunction (r : Nat) (e : Entry)
  /-- R81. -/
  | syncOut
  /-- R81, R83. `toRef`: ticks from the SYNC edge to the next REFCLK rising edge. -/
  | syncIn (toRef : Nat)
  /-- R81. `d16`: the hop delay in 1/16 tick; `pos`: the position the neighbour reports; `up`: the value the upstream
  neighbour passes on. -/
  | cascadeHop (d16 pos up : Nat)
  /-- R81. `cause`: 1 SYNC edge missing, 2 wrong position, 3 hop too long. -/
  | conjunctionTimeout (cause : Nat)
  /-- R78. -/
  | timebaseRealign (r : Nat) (e : Entry)
  /-- R79. -/
  | step
  /-- R197. -/
  | planLoad (r : Nat) (e : Entry)
  /-- R198. -/
  | planAdmit (r : Nat) (e : Entry)
  /-- R199. -/
  | planRelease (r : Nat) (e : Entry)
  /-- R252. -/
  | arm (r : Nat) (e : Entry)
  /-- R106. -/
  | captureBegin
  /-- R120. -/
  | forceTrigger (r : Nat) (e : Entry)
  /-- R135. -/
  | stop (r : Nat) (e : Entry)
  /-- R252. -/
  | abortCommand (r : Nat) (e : Entry)
  /-- R252. -/
  | disarm (r : Nat) (e : Entry)
  /-- R256. -/
  | streamOpen (r : Nat) (e : Entry)
  /-- R257. -/
  | streamClose (r : Nat) (e : Entry)
  /-- R257. `ring` is the STR ring that delivers. -/
  | record (ring : Nat)
  /-- R271. -/
  | jobSearch (r : Nat) (e : Entry)
  /-- R266. -/
  | jobExtract (r : Nat) (e : Entry)
  /-- R279. -/
  | jobCompress (r : Nat) (e : Entry)
  /-- R282. -/
  | jobDecompress (r : Nat) (e : Entry)
  /-- R283. -/
  | jobVerify (r : Nat) (e : Entry)
  /-- R262. `shadowOk`: the shadow decoder agreed (R280). -/
  | jobTurn (q : Nat) (shadowOk : Bool)
  /-- R270. -/
  | resultBatch (job : Nat)
  /-- R333. -/
  | marchRun (r : Nat) (e : Entry)
  /-- R335. `bufBad`: a word of the slice buffer that fails its check on restore, and the bits that
  have changed in it. -/
  | marchSlice (bad : List MarchFail) (bufBad : Option (Nat × Nat))
  /-- R336. -/
  | sliceAbort (k w : Nat)
  /-- R184. -/
  | scrubSet (r : Nat) (e : Entry)
  /-- R184. -/
  | patrolScrub (sc : Nat)
  /-- R354. -/
  | counterSnapshot (r : Nat) (e : Entry)
  /-- R354. -/
  | take (v : W32)
  /-- R354. -/
  | snapshotCopy
  /-- R359. -/
  | traceSet (r : Nat) (e : Entry)
  /-- R364. -/
  | powerState (r : Nat) (e : Entry)
  /-- R365. -/
  | psdone
  /-- R370. -/
  | thermalProfile (r : Nat) (e : Entry)
  /-- R314. -/
  | patchLoad (r : Nat) (e : Entry)
  /-- R316. -/
  | openAreaLoad (r : Nat) (e : Entry)
  /-- R250. `sub`: the low eight bits of the opcode 0x0200 to 0x02FF. -/
  | openAreaCommand (r : Nat) (sub : BitVec 8) (e : Entry)
  /-- R345. -/
  | custodyGrant (r : Nat) (e : Entry)
  /-- R346. -/
  | custodyRelease (r : Nat) (e : Entry)
  /-- R252. -/
  | ringCreate (r : Nat) (e : Entry)
  /-- R252. -/
  | ringDestroy (r : Nat) (e : Entry)
  /-- R249. -/
  | ringResume (r : Nat) (e : Entry)
  /-- R241. `lower`: the write includes the lower 4 bytes. -/
  | doorbell (r : Nat) (v : W64) (lower : Bool)
  /-- R260. A write of ADMCTL. -/
  | en (v : W32)
  /-- R249. A write of ADMCTL. -/
  | resume (v : W32)
  /-- R116. `trig`: the TRIG_IN balls sampled during this slice, bit i at tick i; `flips`: parity errors on lines. -/
  | sliceEvaluation (trig : List W32) (flips : List LineFlip)
  /-- R111. -/
  | tallyCompletion (a u : Nat)
  /-- R112. -/
  | timerExpiry (i : Nat)
  /-- R119. -/
  | trigOut
  /-- R119. -/
  | trigOutFall
  /-- R125. -/
  | cascadeFrameSend
  /-- R124. The oldest event entry received and not yet applied. -/
  | cascadeEvent
  /-- R137. `l`: the lane index within the stream (0 for a DENSE or BLOCK stream). -/
  | sampleLeavesDelayLine (st l stamp : Nat) (qe : Option QuadErr)
  /-- R211. -/
  | writerOverrunResume (st : Nat)
  /-- R152. -/
  | densityRecovery (st : Nat)
  /-- R138. -/
  | phaseClosure
  /-- R142. -/
  | segmentEnd
  /-- R135. -/
  | captureEnd
  /-- R52. On a cascade lane the frame carries event entries (R123). -/
  | sample (lane : Nat) (f : RxFrame)
  /-- R52. -/
  | markFrame (lane : Nat) (f : RxFrame)
  /-- R51. -/
  | echoSend (lane : Nat)
  /-- R51. `trx16` is T_RX in 1/16 tick (R47). -/
  | echoReply (lane : Nat) (f : RxFrame) (trx16 : Nat)
  /-- R58. -/
  | formatAck (lane : Nat) (f : RxFrame)
  /-- R38. -/
  | txeqReq (lane : Nat) (f : RxFrame)
  /-- R38. -/
  | txeqAck (lane : Nat) (f : RxFrame)
  /-- R61. -/
  | passThroughFrame (lane : Nat) (f : RxFrame)
  /-- R61. A write of LANEMBX. -/
  | txgo (lane : Nat) (v : W32)
  /-- R61. -/
  | mailboxSend (lane : Nat)
  /-- R61. A write of LANEMBX. -/
  | rxack (lane : Nat) (v : W32)
  /-- R53. -/
  | uncorrectableCodeword (lane : Nat)
  /-- R54. -/
  | lossOfLock (lane : Nat)
  /-- R54. The first good SAMPLE frame after a fast resume. -/
  | resumed (lane : Nat) (f : RxFrame)
  /-- R54. -/
  | resumetimeout (lane : Nat)
  /-- R58. A write of LANECOMMIT. -/
  | lanecommit (lane : Nat) (v : W32)
  /-- R74. -/
  | firstLock
  /-- R74. -/
  | eclipse (cause : LockFail)
  /-- R74. `delta16`: the measured offset in 1/16 tick. -/
  | referenceValid (delta16 : Int)
  /-- R74. -/
  | offset (delta16 : Int)
  /-- R74. -/
  | locked (residual16 : Int)
  /-- R68. A write of TBCOMMIT. -/
  | tbcommit (m : Master) (v : W32)
  /-- R70. -/
  | fswitch
  /-- R71. -/
  | flockloss
  /-- R71. -/
  | relock
  /-- R71. -/
  | fabricClockMachineCheck
  /-- R23. Straps sampled at the rising edge; what the flash then holds; the control stores that fail the boot march (R334). -/
  | sysResetN (refsel : BitVec 2) (bscan : Bool) (flash : Flash) (csBad : BitVec 28)
  /-- R26. `width`: the low time of the pin in ns, for R391. -/
  | warmResetN (width : Nat)
  /-- R26. -/
  | warmResetRelease
  /-- R25. -/
  | flr
  /-- R25. -/
  | pcieHotReset
  /-- R25. -/
  | perst
  /-- R229. -/
  | busMasterEnableClear
  /-- R229. -/
  | busMasterEnableSet
  /-- R225. -/
  | completion (tag : Nat) (bytes : List Byte) (poisoned : Bool)
  /-- R227. -/
  | completionTimeout (tag : Nat)
  /-- R228. -/
  | quarantineEnd (tag : Nat)
  /-- R216. Speed as PESTAT.SPEED codes it, width in lanes. -/
  | linkchg (speed width : Nat) (flit : Bool)
  /-- R222. -/
  | unsupportedRequest (k : UrKind)
  /-- R342. A BAR0 read of `len` bytes at `off`. -/
  | reservedOffsetRead (off len : Nat)
  /-- R220. -/
  | scratchBankViewAccess (q : ViewReq)
  /-- R221. `x`: the offset within the aperture. -/
  | dramApertureRead (x len : Nat)
  /-- R232. -/
  | evmapWrite (src : Nat) (v : W32)
  /-- R233. -/
  | vcoalWrite (vec : Nat) (v : W32)
  /-- R221. `hi`: the write is to APBASEHI. -/
  | apbaseWrite (hi : Bool) (v : W32)
  /-- R232. -/
  | sourceFire (src : Nat)
  /-- R233. -/
  | coalescingTime (vec : Nat)
  /-- R234. A vector, or the function. -/
  | msiXUnmask (vec : Option Nat)
  /-- R340. -/
  | rcRead (off : Nat)
  /-- R353. -/
  | loHalfRead (off : Nat)
  /-- R344. -/
  | guardkey (m : Master) (v : W32)
  /-- R344. -/
  | guardedWrite (m : Master) (off : Nat) (v : W32)
  /-- R189. A write of DCOMMIT. -/
  | dcommit (m : Master) (ch : Nat) (v : W32)
  /-- R320. A write of +0x10 of a control-store word. -/
  | controlStoreWordWrite (m : Master) (q w : Nat) (v : W32)
  /-- R357. A write of GLBCTL. -/
  | obs0en (v : W32)
  /-- R357. A write of GLBCTL. -/
  | obs1en (v : W32)
  /-- R340. A write of `len` bytes; `be`: the byte enables, of the lower 4 bytes first; `poisoned`: the poisoned bit of the request (R224). -/
  | registerWrite (off len : Nat) (be : BitVec 8) (v : W64) (poisoned : Bool)
  /-- R325. -/
  | bankownWrite (m : BankUser) (k : Nat) (v : W32)
  /-- R326. -/
  | handover (k : Nat)
  /-- R328. -/
  | bankRead (m : BankUser) (k w : Nat) (ecc : Ecc)
  /-- R328. `other`: an access of the other port to the word in the same cycle. -/
  | bankWrite (m : BankUser) (k w : Nat) (v : W64) (other : Option (BankUser × PortOp))
  /-- R328. -/
  | fetchAdd (m : BankUser) (k w : Nat) (d : W64) (other : Option (BankUser × PortOp))
  /-- R328. -/
  | swap (m : BankUser) (k w : Nat) (v : W64) (other : Option (BankUser × PortOp))
  /-- R331. -/
  | correctedWriteBack (k w : Nat)
  /-- R296. -/
  | microword (q : Nat)
  /-- R301. -/
  | cmt (q : Nat)
  /-- R305. -/
  | trap (q : Nat)
  /-- R307. -/
  | trapret (q : Nat)
  /-- R309. -/
  | wdog (q : Nat)
  /-- R311. `cause`: the code of R310. -/
  | machineCheck (q cause : Nat)
  /-- R168. `sc` is a subchannel index (R158). -/
  | wr (sc : Nat) (qe : Option QuadErr)
  /-- R177. -/
  | free (sc : Nat) (ecc : Ecc) (qe : Option QuadErr)
  /-- R168. -/
  | ref (sc : Nat)
  /-- R168. -/
  | refsb (sc : Nat)
  /-- R175. -/
  | drfm (sc : Nat)
  /-- R166. -/
  | turn (sc : Nat)
  /-- R171. -/
  | orbitBoundary (sc : Nat)
  /-- R171. `temp16`: the highest reading in 1/16 °C. -/
  | dimmThermalRead (ch : Nat) (temp16 : Int)
  /-- R167. -/
  | idleScheduleRefresh (sc : Nat)
  /-- R179. -/
  | agePromo (sc : Nat)
  /-- R185. -/
  | srIdle (sc : Nat)
  /-- R186. -/
  | selfRefreshExit (sc : Nat)
  /-- R368. `temp16`: the reading in 1/16 °C, none when the self-check failed. -/
  | sensorConversion (i : Nat) (temp16 : Option Int)
  /-- R370. -/
  | thermalEstimate
  /-- R372. -/
  | peakexp
  /-- R374. `i`: the sensor whose comparator reads 115 °C. -/
  | trip (i : Nat)
  /-- R361. -/
  | idcode
  /-- R361. -/
  | regaddr (off : W32)
  /-- R362. -/
  | regdata
  /-- R362. -/
  | extest
  /-- R362. -/
  | samplePreload
  /-- R362. -/
  | extestPulse
  /-- R362. -/
  | extestTrain
  /-- R361. Any code shifted in. -/
  | bypass (code : BitVec 8)
  /-- R44. -/
  | trainingLossOfLock (lane : Nat)
  /-- R404. A write of LANECTL. -/
  | lanectlWrite (lane : Nat) (v : W32)
  /-- R36. -/
  | idleFrame (lane : Nat) (f : RxFrame)
  /-- R36. -/
  | reservedTypeFrame (lane : Nat) (f : RxFrame)
  /-- R105. `off`: the block offset of the word read. -/
  | settingsWordCheck (u : TableUnit) (off : Nat) (ecc : Ecc)
  /-- R70. -/
  | standbyPllRelock
  /-- R214. -/
  | d3hot
  /-- R214. -/
  | returnToD0
  /-- R234. -/
  | msiXEnableClear
  /-- R217. -/
  | configurationRequest (q : CfgReq)
  /-- R224. `bit`: the error's bit in the AER status register. -/
  | aerError (sev : AerSev) (bit : Nat)
  /-- R250. -/
  | badOpcode (r : Nat) (opcode : BitVec 16) (e : Entry)
  /-- R333. -/
  | marchTestEnd (bad : List MarchFail)
  /-- R365. -/
  | prechargePowerDown (sc : Nat)
  /-- R357. -/
  | obsFrameSend (port : Nat)
  deriving DecidableEq, Repr

end Sys2Proof
end

