-- ==== Sys2Proof/Config.lean ====
section
/-! DEFINITION. What an implementation fixes and the specification does not: opaque constants, which no proof can evaluate.
A claim that holds of the model holds for every value of them. -/

namespace Sys2Proof.Config

/-- The n-th free value (log entry 7): a result that the specification leaves undefined or does not state. -/
opaque freeValue : Nat → W64

/-- The KEYHASH fuse, as a number with the digest's first byte most significant (R313; log entry 12). -/
opaque keyHash : Nat

/-- How long PLAN_ADMIT runs, in ticks, when R198 leaves it open: at most 50 ms (log entry 77). -/
opaque admitTime : Nat

/-- The Device Serial Number from the fuses (R214; log entry 13). -/
opaque serial : W64

/-- The n-th value drawn from the on-chip entropy source (R346; log entry 13). -/
opaque entropy : Nat → W64

/-- The carry flag's sense after SUB, SUBB and CMP: true when C is the borrow (R292 names C and gives no rule;
log entry 14). -/
opaque carryIsBorrow : Bool

/-- Doublewords of configuration space that R213 leaves to the PCI Express Base Specification (log entry 15). -/
opaque baseSpecDword : Nat → W32

/-- Whether a WARM_RESET_N low time between 200 ns and 1 µs is taken (R391 leaves it open; log entry 16). -/
opaque warmTaken : Nat → Bool

end Sys2Proof.Config
end

