-- ==== Sys2Proof/Machine/State.lean ====
section
/-! DEFINITION. The state of the engine, the reasons a step can stop, and the state after reset.

Registers that software reads as words have one home, `State.regs`, keyed by BAR0 offset: every RW, MW, GW and RC field and
every RO status field the engine keeps (R340, R350); fields not listed hold `regReset`. Counters and their holding
registers have one home each (R353), keyed by the offset of the live LO half. State that is no register is typed. -/

namespace Sys2Proof.Machine

/-- Why the engine stops. -/
inductive Fault where
  /-- Raised by every engine step while a boundary-scan test instruction is in force: "the engine's function is undefined
  until SYS_RESET_N" (R362). Safe: the model stops where hardware does something unknown. -/
  | functionUndefined
  deriving DecidableEq, Repr

/-- Why the model has no meaning for a command. -/
inductive Refusal where
  /-- Raised only by an arm of Dispatch.lean for a command not yet modelled. Safe. -/
  | notModelled (mnemonic : String)
  deriving DecidableEq, Repr

/-- Ordering code (R1): LC2048-FA or LC2048-HA. -/
inductive Part where
  | fa
  | ha
  deriving DecidableEq, Repr

/-- A 48-bit counter with its sticky overflow bit (R353). -/
structure Ctr where
  val : Nat
  ovf : Bool
  deriving DecidableEq, Repr

/-- The guarded-write classes the host can reach (R343). -/
inductive GwClass where
  | clk
  | mem
  | pwr
  | cst
  deriving DecidableEq, Repr

/-- One entry of the chip error log (R352). -/
structure ErrEntry where
  tick : Nat
  cause : Nat
  unit : Nat
  index : Nat
  detail : Nat
  deriving DecidableEq, Repr

/-! ### Timebase (R64 to R84) -/

/-- The staged settings that act together, as the last agreeing COMMIT left them (R68). -/
structure TbSettings where
  refsel : Nat
  mode : Bool
  nint : Nat
  nfrac : Nat
  nmod : Nat
  den : Bool
  seed : Nat
  phoff : Nat
  deriving DecidableEq, Repr

/-- TIMEBASE_REALIGN, step, waiting for its slice boundary (R79): its command, the counter at acceptance, Δs, r in 1/16 tick, the
rate in ppm, and Δ in 1/16 tick. -/
structure StepOrder where
  origin : Nat
  accepted : Nat
  ds : Int
  r16 : Int
  rate : Nat
  delta16 : Int
  deriving DecidableEq, Repr

/-- Where a CONJUNCTION stands (R81). -/
inductive ConjPhase where
  | armed
  | pulsed
  | aligned
  deriving DecidableEq, Repr

/-- A CONJUNCTION accepted and not ended (R81): `commits` counts the milliseconds of waiting whose commit point has passed (R402), `echoes`
tells whether the lanes have begun step 5, and `hopAt` when it ended, from which the hop counts. -/
structure Conj where
  p : Nat
  n : Nat
  conjT : Nat
  origin : Nat
  start : Nat
  phase : ConjPhase
  commits : Nat
  echoes : Bool
  hopAt : Option Nat
  deriving DecidableEq, Repr

/-- Timebase state that is no register: the counter, the engine's elapsed ticks (R65), the settings in force, the elapsed tick from
which the reference counts as unbroken, the tick of the last ECLIPSE_BEGIN, the elapsed tick of the last measurement of the offset (R74),
the dither LFSR (R67), the step ordered, settings committed behind that step, the first tick the fabric did not process and the elapsed
tick of that (R71), whether only SYS_RESET_N recovers the engine (R71), the CONJUNCTION, the rise of SYNC_OUT, and PCLKCTL.EN as the
outputs follow it (R72). -/
structure Timebase where
  tick : Nat
  time : Nat
  act : TbSettings
  eclipseAt : Nat
  lastEclipse : Nat
  offsetAt : Nat
  lfsr : Nat
  order : Option StepOrder
  later : Option TbSettings
  fabLost : Option Nat
  fabAt : Nat
  dead : Bool
  conj : Option Conj
  syncHigh : Option Nat
  pclk : Nat
  deriving DecidableEq, Repr

/-! ### Links (R34 to R63) -/

/-- One sample the engine uses: its stamp and its word (R85). -/
structure Smp where
  stamp : Nat
  word : BitVec 16
  deriving DecidableEq, Repr

/-- A run of missing samples of a lane: first and last tick, and the CAUSE and DETAIL of the GAP records for it (R55, R71, R147);
`last = none` while it is open. -/
structure Miss where
  first : Nat
  last : Option Nat
  cause : Nat
  detail : Nat
  deriving DecidableEq, Repr

/-- A frame the engine transmits on a lane (R36 to R38, R51), or on a cascade lane with event entries (R123). -/
inductive TxFrame where
  | idle (seq : Nat)
  | sample (seq : Nat) (bytes : Mem)
  | echo (seq ttx num : Nat)
  | control (seq : Nat) (ccode : Nat) (bytes : Mem)
  deriving DecidableEq, Repr

/-- The fields of an ECHO reply (R37) with T_RX in 1/16 tick (R47). -/
structure EchoReply where
  ttx : Nat
  num : Nat
  sref : Nat
  fr : Nat
  turn : Nat
  trx16 : Nat
  deriving DecidableEq, Repr

/-- The engine's transmitter on a lane, as TXEQ_REQ frames have set it (R38): preset, pre-cursor and post-cursor. -/
structure TxEq where
  preset : Nat
  pre : Int
  post : Int
  deriving DecidableEq, Repr

/-- Histories of a lane's matchers (R86 to R90): the current sample, the first sample since R86 restarted them, the last
transition of each channel seen, and the outputs held. -/
structure LaneHist where
  cur : Option Smp
  first : Nat
  edges : Tbl Nat
  out : BitVec 16
  deriving DecidableEq, Repr

/-- Lane state that is no register. `u2048` is the probe-tip instant of base-rate index 0 in 1/2048 tick, as the ECHO
state averaged it (R47); `latRaw` the greatest 2,048 × (decode tick - P0 × first position) of a SAMPLE frame in the ECHO state (R49).
`fecRun` counts decodable codewords in a row while FEC lock is sought (R34). `txq` holds the engine's CONTROL frames that wait, as CCODE and
payload; the next codeword slot begins at elapsed tick `txAt` / 225, and `txSlots` counts slots since the last ECHO (R13, R51). `rep` is
the sample word that repeats are compared with, by its position (R41). -/
structure LaneSt where
  trainStart : Nat
  stateAt : Tbl Nat
  retrain : Bool
  passedEcho : Bool
  u2048 : Int
  echoes : Nat
  sumD32 : Int
  sumU32 : Int
  echoNum : Nat
  ackOk : Bool
  markOk : Bool
  echoSent : Nat
  latRaw : Option Int
  ctrlSeq : Nat
  fecRun : Nat
  txq : List (Nat × Mem)
  txAt : Nat
  txSlots : Nat
  txeq : TxEq
  rep : Option (Nat × BitVec 16)
  lastSeq : Option Nat
  nextPos : Nat
  placed : Bool
  uncorr : Nat
  lossAt : Nat
  samples : List Smp
  miss : List Miss
  hist : LaneHist
  txBuf : Mem
  rxBuf : Mem
  deriving DecidableEq, Repr

/-- LINK_TRAIN accepted and not ended (R45): its command, the waves left, the lanes of the wave in progress, and the
lanes of ended waves that FAILED. Lanes 128 to 131 are K0 to K3. -/
structure Train where
  origin : Nat
  waves : List (List Nat)
  cur : List Nat
  failed : List Nat
  deriving DecidableEq, Repr

/-! ### Automata (R106 to R127) -/

/-- A tally unit (R111). -/
structure Tally where
  count : Nat
  done : Bool
  prev : Bool
  deriving DecidableEq, Repr

/-- An automaton: state, four tallies, flags F(t), and the gates open from the last tick on (R106, R113, R114). -/
structure Auto where
  st : Nat
  tallies : List Tally
  flags : BitVec 8
  gates : BitVec 16
  deriving DecidableEq, Repr

/-- A timer (R112); `expiry` counts elapsed ticks (R65). -/
structure Timer where
  run : Bool
  line : Bool
  expiry : Nat
  deriving DecidableEq, Repr

/-- A cascade event: line, origin position, origin tick (R123). -/
structure CasEvent where
  line : Nat
  origin : Nat
  otick : Nat
  deriving DecidableEq, Repr

/-- The origin an ORG action attaches (R127); `ev = none` marks it absent. -/
structure Origin where
  ev : Option CasEvent
  deriving DecidableEq, Repr

/-- The forced action of FORCE_TRIGGER (R120). -/
structure Forced where
  mask : Nat
  index : Nat
  tick : Nat
  deriving DecidableEq, Repr

/-- A host event that an action made: automaton, whether forced, CODE, tick, the elapsed tick at which it is raised (R115), and the origin
it carries (R127). -/
structure HostEv where
  auto : Nat
  forced : Bool
  code : Nat
  tick : Nat
  due : Nat
  org : Option Origin
  deriving DecidableEq, Repr

/-- A CASEV of the engine's own automata whose time has not come: the elapsed tick when it has, its automaton, its tick, and the event, or none
where it is not sent (R118, R125). -/
structure CasDue where
  due : Nat
  auto : Nat
  tick : Nat
  ev : Option CasEvent
  deriving DecidableEq, Repr

/-- The automata side of the capture path. `hist` holds, for each timer, tally and flag line, its 32 values in the
previous slice (R107); `trig` the TRIG_IN samples of the last slices by elapsed tick, newest first (R101); `gateHist` the gates of each
evaluated slice, tick by tick (R114); `edges` the TRIG_OUT rises due, `pulses` the rises whose pulse is in progress (R119);
`forced` the forced actions not yet applied (R120); `hevs` the host events not yet raised (R115); `inbound` the events that may still act
(R124), `applied` the last one applied on each line (R127); `outbound` the entries that wait for a frame on K0 and K1, `casDue` the engine's own events and drops that are not yet due, `lastOut` the tick of the
engine's last own event (R125), `casSeq` the SEQ of the next SAMPLE frame on K0 and K1 (R35); `rxq` the entries received on K2 and K3 and not
yet used, `seen` the events used, whose second copies are dropped (R122); `shown` the automata and timers at the first ticks of the last
slices, newest first, which the end of a capture that is known late may show again (R129, R135). -/
structure Autos where
  autos : List Auto
  timers : List Timer
  hist : Tbl W32
  trig : List (Nat × List W32)
  lastSlice : Option Nat
  gateHist : List (Nat × List (BitVec 16))
  hevs : List HostEv
  forced : List Forced
  edges : List Nat
  pulses : List Nat
  trigOut : Bool
  inbound : List CasEvent
  applied : Tbl CasEvent
  outbound : Tbl (List CasEvent)
  casDue : List CasDue
  lastOut : Option Nat
  casSeq : Tbl Nat
  rxq : List Nat
  seen : List CasEvent
  shown : List (Nat × List Auto × List Timer)
  deriving DecidableEq, Repr

/-! ### Capture, streams and records (R131 to R157) -/

/-- Why a capture ends (R154, CAPTURE end reasons). -/
inductive EndReason where
  | count
  | stop
  | fullstop
  | reset
  | trip
  | machineCheck
  deriving DecidableEq, Repr

/-- A segment (R134). -/
structure Seg where
  no : Nat
  s : Nat
  nuc : Option Nat
  e : Option Nat
  ign : Nat
  forcedOnly : Bool
  stopped : Bool
  org : Option Origin
  deriving DecidableEq, Repr

/-- Where the capture of the active plan stands (R255, R135). -/
inductive CapState where
  | none
  | waiting
  | running
  | ended
  deriving DecidableEq, Repr

/-- What INVENTORY shows of an ended capture (R255), kept while a later ARM waits for its T0. -/
structure CapPast where
  origin : Nat
  ring : Nat
  tag : W32
  count : Nat
  t0 : Nat
  reason : Option EndReason
  deriving DecidableEq, Repr

/-- The capture. `segs` are the segments the automata have begun and the writer has not ended, oldest first. `endAt` is
the last tick and its reason once decided; `jumps` the steps of the counter since T0, as (Tb, Δs) (R79). -/
structure Cap where
  state : CapState
  origin : Nat
  ring : Nat
  tag : W32
  count : Nat
  t0 : Nat
  begun : Nat
  segs : List Seg
  ended : Nat
  endAt : Option (Nat × EndReason)
  lastTick : Nat
  reason : Option EndReason
  closing : Bool
  anyBegun : Bool
  jumps : List (Nat × Int)
  past : Option CapPast
  deriving DecidableEq, Repr

/-- An open data record (R138): timestamp, lane index (TRANS), the stored positions newest first, and whether it stands in the
coma window. For TRANS a position holds the one lane's word. -/
structure OpenRec where
  ts : Nat
  lane : Nat
  coma : Bool
  pos : List (Nat × List (BitVec 16))
  deriving DecidableEq, Repr

/-- What a reader of the region needs of a written record (R143, R265): `head` its first 88 bytes. -/
structure RecMeta where
  addr : Nat
  len : Nat
  seq : Nat
  rtype : Nat
  ts : Nat
  last : Nat
  segno : Nat
  coma : Bool
  gone : Bool
  head : List Byte
  deriving DecidableEq, Repr

/-- A COMMIT entry waiting for its records to be in DRAM (R155). -/
structure CommitDue where
  segno : Nat
  seq : Option Nat
  next : Nat
  through : Nat
  deriving DecidableEq, Repr

/-- A record that waits until the writer reaches its timestamp (R146): type, FLAGS, timestamp, payload, and the last tick it
holds. -/
structure QRec where
  rtype : Nat
  flags : Nat
  ts : Nat
  payload : List Byte
  last : Nat
  deriving DecidableEq, Repr

/-- A stream of the capture (R131, R142 to R152, R211). `c` and `wp` are the region pointer and the write address; `nextTick` holds, for
each lane index (0 alone for DENSE and BLOCK), the first tick whose gaps are not written and whose samples are not judged; `overAt` and
`dens` the first tick of the GAP record of an overrun or density gap that is open, `overMask` its LANEMASK; `vbad` tells that the shadow
decode of the next block will not match (R141); `phase` the next multiple of 524,288 that closes records; `full` the tick from
which the stream stores nothing, and `fullDone` whether the writer has reached it. -/
structure Stream where
  active : Bool
  full : Option Nat
  c : Nat
  wp : Nat
  tail : Bool
  seq : Nat
  lastTs : Nat
  recs : List RecMeta
  op : List OpenRec
  phase : Nat
  fullDone : Bool
  nextTick : Tbl Nat
  q : List QRec
  markTs : List Nat
  markOvf : Nat
  overAt : Option Nat
  dens : Option Nat
  overMask : Nat
  vbad : Bool
  segno : Nat
  due : List CommitDue
  commit : Option CommitDue
  deriving DecidableEq, Repr

/-- One granule of a record on its way to DRAM (R168): stream, device address, 64 bytes, the record's SEQ, and its place in the
order in which the controllers receive requests (R180). -/
structure Gran where
  arr : Nat
  stream : Nat
  addr : Nat
  bytes : List Byte
  seq : Nat
  deriving DecidableEq, Repr

/-- Body of a journal entry (R154). The opcode of a COMPLETE entry is no part of its 64 bytes: the engine keeps it for INVENTORY (R255). -/
inductive JBody where
  | accept (ring : Nat) (opcode : Nat) (tag : W32) (index : Nat) (origin : Nat)
  | complete (ring : Nat) (status : Nat) (tag : W32) (x0 x1 x2 : W64) (origin : Option Nat) (opcode : Nat)
  | progress (ring : Nat) (tag : W32) (amount : W64) (origin : Nat)
  | commit (stream : Nat) (d : CommitDue)
  | capture (ended : Bool) (reason : Option EndReason) (tag : W32) (tick : Nat)
  | reset (kind : Nat)
  deriving DecidableEq, Repr

/-- A journal entry (R153). -/
structure JEntry where
  jseq : Nat
  carry : Bool
  tick : Nat
  body : JBody
  deriving DecidableEq, Repr

/-! ### DRAM (R158 to R191) -/

/-- The population descriptor's fields that no register shows (R160), times in ps. -/
structure PopTimes where
  cl : Nat
  cwl : Nat
  tRCD : Nat
  tRP : Nat
  tRFC1 : Nat
  tRFCsb : Nat
  tDRFMsb : Nat
  tREFSBRD : Nat
  tWR2RD : Nat
  tRD2WR : Nat
  tXS : Nat
  tXSDLL : Nat
  tRAS : Nat
  tWR : Nat
  tRRDL : Nat
  tRRDS : Nat
  tFAW : Nat
  rcdcw : Mem
  deriving DecidableEq, Repr

/-- Who waits for a non-real-time request: a read of several granules, by its number; patrol scrub; a sequencer; a journal entry, by its JSEQ; or
a job, whose write nobody waits for. -/
inductive ReqBy where
  | part (id : Nat)
  | scrubRead
  | scrubWrite
  | seq (q : Nat)
  | journal (jseq : Nat)
  | job
  deriving DecidableEq, Repr

/-- What a read of several granules is for: `len` bytes at an address for the host, the next record of an upload stream by its ring, the input of
a job, or the journal for INVENTORY. -/
inductive ReadBy where
  | aperture (addr len : Nat)
  | upload (ring stream seq addr len : Nat)
  | job (origin addr len : Nat)
  | inventory (origin first : Nat) (e : Entry)
  deriving DecidableEq, Repr

/-- A read of several granules in progress: its granules in order, those not yet read, the data that came, by granule, and the granules that
came poisoned. -/
structure DRead where
  id : Nat
  grans : List Nat
  left : Nat
  got : Tbl (List Byte)
  bad : List Nat
  by_ : ReadBy
  deriving DecidableEq, Repr

/-- A non-real-time DRAM request (R177): class 1 to 3, arrival in elapsed ticks, whether promoted (R179). `data = none` for
a read; `arr` as in `Gran`. -/
structure DReq where
  arr : Nat
  addr : Nat
  cls : Nat
  at_ : Nat
  promoted : Bool
  data : Option (List Byte)
  by_ : ReqBy
  deriving DecidableEq, Repr

/-- A DRAM bank: its open row, its sampled rows oldest first, its overflow register, and in memory time the end of a refresh that blocks it, the
burst for which its row was opened, and the end of its last write burst (R168, R174 to R176). -/
structure DBank where
  row : Option Nat
  queue : List Nat
  ovf : Option Nat
  blocked : Nat
  actAt : Nat
  wrEnd : Nat
  deriving DecidableEq, Repr

/-- Self-refresh of a subchannel, with the elapsed tick of the entry condition, of SRE's, or of SRX (R185). -/
inductive SrState where
  | awake
  | entering (since : Nat)
  | asleep (since : Nat)
  | waking (srx : Nat)
  deriving DecidableEq, Repr

/-- A subchannel: orbit slots issued, the start of the next slot in memory time, bank state by 32 × rank + 4 × group + bank, the last ACT commands
newest first (rank, group, burst), refresh commands ordered and not yet issued (memory time, duration in ps, banks), the elapsed tick of the next idle refresh, the sampling LFSR, requests
oldest first, time of the last request, precharge power-down, the doubled refresh rate of R374, the next granule of patrol scrub and the elapsed tick at which it
is due, and self-refresh. -/
structure SubCh where
  slots : Nat
  slotAt : Nat
  banks : Tbl DBank
  acts : List (Nat × Nat × Nat)
  refq : List (Nat × Nat × List Nat)
  refAt : Nat
  lfsr : W32
  reqs : List DReq
  lastReq : Nat
  ppd : Bool
  dbl : Bool
  scrubAt : Nat
  scrubDue : Nat
  sr : SrState
  deriving DecidableEq, Repr

/-- DRAM side state: contents by device address, granules whose next read is uncorrectable, population timings, real-time
granules waiting, and per subchannel state. `cells` holds by lane the granules that wait at the quadrant write path, and `turn` the cell of each
cluster whose turn it is (R13); `reads` are the reads of several granules in progress, `ids` counts them. `arr` counts requests received; `refIn` and `refPend` hold for each channel DREFCFG as it is
in force and the COMMITs that have not taken effect, the agreed one first (R347, R348). `trainOrigin` is the DRAM_TRAIN in progress. -/
structure Dram where
  arr : Nat
  refIn : Tbl W32
  refPend : Tbl (List W32)
  mem : Mem
  times : PopTimes
  rt : List Gran
  cells : Tbl (List Gran)
  turn : Tbl Nat
  reads : List DRead
  ids : Nat
  subs : Tbl SubCh
  poison : List Nat
  trainOrigin : Option Nat
  deriving DecidableEq, Repr

/-! ### Rings, commands, jobs (R239 to R285) -/

/-- Ring types (R239). -/
inductive RingType where
  | sub
  | cmp
  | str
  deriving DecidableEq, Repr

/-- Why a ring halted (R249, RHALTLOG.CAUSE). -/
inductive HaltCause where
  | fetchTimeout
  | poisonedFetch
  | busMasterOff
  deriving DecidableEq, Repr

/-- A completion entry or a stream entry before its phase bit is known (R245, R257). -/
inductive RingEntry where
  | cpl (tag : W32) (status : Nat) (final : Bool) (x0 x1 x2 : W64)
  | record (seq off len ts : Nat)
  | skip (first last : Nat)
  | fin (next : Nat)
  deriving DecidableEq, Repr

/-- A journal entry that is not yet written in both copies: its JSEQ, the writes still to do, and its body (R153). -/
structure JWait where
  jseq : Nat
  left : Nat
  body : JBody
  deriving DecidableEq, Repr

/-- A completion that waits until the journal entries up to JSEQ `gate` are committed (R155): CMP ring and entry. -/
structure JOut where
  gate : Nat
  ring : Nat
  entry : RingEntry
  deriving DecidableEq, Repr

/-- The journal: entries newest first, of the DRAM copies while a journal is in force and of the on-chip hold while not
(R401); `pos` is the next write position of the copies; `wait` the entries not yet written in both copies, oldest first, and `out` the completions that
wait for them. -/
structure Journal where
  next : Nat
  inForce : Bool
  pos : Nat
  entries : List (Nat × JEntry)
  wait : List JWait
  out : List JOut
  deriving DecidableEq, Repr

/-- A stream bound to a STR ring: the data buffer, the next SEQ to deliver, the next free offset, and the space of each
delivered record not yet released, oldest first, as (ring index, offset, bytes); `reading` tells that the next record is being read from DRAM, and `ready` holds
it once it is (R256, R257). -/
structure Binding where
  stream : Nat
  buf : Nat
  size : Nat
  nextSeq : Nat
  off : Nat
  held : List (Nat × Nat × Nat)
  live : Bool
  reading : Bool
  ready : Option (List Byte)
  deriving DecidableEq, Repr

/-- A ring context (R240); `got` is the index behind the last entry of a SUB ring that has been read (R242, R249). -/
structure Ring where
  type : RingType
  base : Nat
  z : Nat
  pair : Nat
  vector : Nat
  ien : Bool
  eng : Nat
  host : Nat
  phase : Bool
  halted : Option HaltCause
  held : List RingEntry
  bound : Option Binding
  got : Nat
  deriving DecidableEq, Repr

/-- An accepted command that has not ended (R246); `c0` to `c2` are its committed results (R303); `lost` tells that a reset of the host
domain has cleared its ring, so that its completion is never posted (R25, R230). -/
structure Cmd where
  ring : Nat
  opcode : Nat
  tag : W32
  origin : Nat
  c0 : W64
  c1 : W64
  c2 : W64
  abort : Bool
  home : Nat
  lost : Bool
  deriving DecidableEq, Repr

/-- The kinds of job (R262). -/
inductive JobKind where
  | search
  | extract
  | compress
  | decompress
  | verify
  deriving DecidableEq, Repr

/-- A job accepted and not ended. `p` are P0 to P6, `unlim` the flag; `todo` the records still to read (R265); `done` bytes or
results written; `count` records, blocks or results; `batch` results not yet published, `batchAt` the time of the first;
`crc` the running CRC-64; `pred` the predicate; `plan` the active plan at acceptance; `inbuf` the bytes that a read has
brought, `inbad` the granules that came poisoned, and `waiting` whether a read is in progress (R177, R225). -/
structure Job where
  origin : Nat
  kind : JobKind
  quad : Nat
  running : Bool
  p : List W64
  unlim : Bool
  pred : Image
  plan : Image
  todo : List RecMeta
  pos : Nat
  done : Nat
  count : Nat
  published : Nat
  batch : List (List Byte)
  batchAt : Nat
  lastTs : Nat
  crc : W64
  wrote : Nat
  inbuf : Option (List Byte)
  inbad : List Nat
  waiting : Bool
  deriving DecidableEq, Repr

/-! ### Endpoint (R213 to R238) -/

/-- What the reads of host memory for an operation have brought (R224, R225, R227, R229): nothing yet, the bytes, a failure, or an end by
Bus Master Enable. -/
inductive HostRead where
  | pending
  | data (img : Image)
  | failed
  | busOff
  deriving DecidableEq, Repr

/-- Whose transfer from host memory: a submission entry in examination, or a job. -/
inductive XferFor where
  | cmd (ring op : Nat) (e : Entry)
  | job (origin : Nat)
  deriving DecidableEq, Repr

/-- A transfer from host memory in progress: its range and the bytes that have arrived, by their offset (R225). -/
structure Xfer where
  whose : XferFor
  addr : Nat
  len : Nat
  got : Mem
  deriving DecidableEq, Repr

/-- What an outstanding read of host memory is for. -/
inductive ReadFor where
  | fetch (ring : Nat)
  | xfer (w : XferFor)
  | seq (q bank off : Nat)
  | abandoned
  deriving DecidableEq, Repr

/-- An outstanding read (R225): when its request was transmitted (R226), and the bytes that have arrived. -/
structure HRead where
  tag : Nat
  addr : Nat
  len : Nat
  at_ : Nat
  data : List Byte
  by_ : ReadFor
  deriving DecidableEq, Repr

/-- What the engine transmits to the host, in order (R235). -/
inductive Posted where
  | write (addr : Nat) (bytes : List Byte) (relaxed : Bool)
  | msix (addr data : Nat)
  | readData (bytes : List Byte) (poisoned : Bool)
  | completerAbort
  | unsupported
  | retry
  | errMsg (code : Nat)
  deriving DecidableEq, Repr

/-- An MSI-X vector: table entry, mask, pending bit, signals accumulated and the time of the first (R231 to R234). -/
structure Vec where
  addr : Nat
  data : Nat
  masked : Bool
  pend : Bool
  acc : Nat
  first : Nat
  deriving DecidableEq, Repr

/-- Endpoint state that is no BAR0 register. `quar` lists quarantined tags with the elapsed tick their quarantine
ends; `silent` those whose completions are counted in LATE_DROP (R230); `waitq` the reads that wait for a tag (R225); `bars` the base address
registers by their place; `aerSev` to `aerCorMask` the AER registers that software programs, `aerFirst` and `aerHdr` its first-error pointer and
header log (R224); `cfg` other configuration bits that software writes (R213); `xfers` the transfers in progress (R225); `halted`
PESTAT.HALTED (R229); `serial` the fuses of the Device Serial Number (R214), which no reset changes (DESIGN CHOICE: log entry 13). -/
structure Pcie where
  ready : Bool
  memSpace : Bool
  bme : Bool
  d3 : Bool
  mps : Nat
  mrrs : Nat
  tenBit : Bool
  cto : Nat
  ro : Bool
  msixEn : Bool
  fmask : Bool
  reads : List HRead
  waitq : List HRead
  quar : List (Nat × Nat)
  silent : List Nat
  vecs : Tbl Vec
  aerCor : Nat
  aerUnc : Nat
  aerSev : W32
  aerUncMask : W32
  aerCorMask : W32
  aerFirst : Nat
  aerHdr : List W32
  cfg : Tbl W32
  xfers : List Xfer
  halted : Bool
  bars : Tbl W32
  ssvid : Nat
  ssid : Nat
  serial : W64
  deriving DecidableEq, Repr

/-! ### Sequencers (R286 to R321) -/

/-- What a sequencer is doing (SQSTAT.STATE, R319). -/
inductive SeqState where
  | idle
  | run
  | wait
  | handler
  | stopped
  deriving DecidableEq, Repr

/-- Trap causes (R304), in priority order. -/
inductive TrapCause where
  | priv
  | unit
  | wdog
  | abort
  | preempt
  deriving DecidableEq, Repr

/-- A command context (R288). -/
structure Ctx where
  abort : Bool
  c0 : W64
  c1 : W64
  c2 : W64
  origin : Option Nat
  deriving DecidableEq, Repr

/-- How a command that its home sequencer is given runs: by words of its routine, by the meaning of its command, or as a short command for which a
handler interrupts a long routine (R298, R299). -/
inductive QKind where
  | words
  | native
  | preempt
  deriving DecidableEq, Repr

/-- A command at its home sequencer that waits for a context, for the sequencer or for a handler (R298): what its routine starts from (R288, R297). -/
structure QCmd where
  origin : Nat
  entryPc : Nat
  opword : W64
  params : List W64
  kind : QKind
  deriving DecidableEq, Repr

/-- What an operation in flight delivers when it completes (R294, R307): a DRAM read, a DRAM write, or a host read. -/
inductive Flight where
  | mem
  | write
  | host
  deriving DecidableEq, Repr

/-- A staged host publication (MOP 0x9, R294, R301). -/
structure Pub where
  addr : Nat
  bytes : List Byte
  deriving DecidableEq, Repr

/-- A word that has issued its operations and waits (R296): its WAIT code, the elapsed tick from which it waits, the A source, the ALU
result, whether it is written, and the flags. -/
structure WordHold where
  on : Nat
  at_ : Nat
  a : W64
  r : W64
  wr : Bool
  f : BitVec 4
  deriving DecidableEq, Repr

/-- A control sequencer (R288). `w` holds W0 to W31, `lb` LB0 to LB7, `lc` LC0 to LC3; `flags` is Z N C V as bits 3 to 0; `memBusy`
and `hostBusy` an operation not complete; `hold` what completed during a handler; `poison` CSEL 0x10; `pendTrap` the trap causes pending; `resume` is the state that a handler interrupted; `prePc` counts issue
cycles since a cause arose, and `tsafe` tells whether a trap-safe point has been reached since the cause (R305); `sinceCmt` the elapsed tick of the
last CMT word or start of the context (R309); `wait` the word that waits, `trapWait` the one that a trap interrupted; `words` the words
completed and not yet entered in the ledger (R356). -/
structure Seqr where
  state : SeqState
  pc : Nat
  ctx : Nat
  w : List W64
  flags : BitVec 4
  lc : List Nat
  mar : W64
  mdr : W64
  xdr : W64
  lb : List W64
  stack : List W64
  ctxs : List Ctx
  queue : List QCmd
  memBusy : Bool
  hostBusy : Bool
  hold : List (Flight × W64)
  poison : Bool
  pubs : List Pub
  pendTrap : List (TrapCause × Nat)
  inTrap : Option TrapCause
  resume : SeqState
  prePc : Nat
  tsafe : Bool
  sinceCmt : Nat
  wdogHit : Bool
  wait : Option WordHold
  trapWait : Option WordHold
  words : Nat
  deriving DecidableEq, Repr

/-- Control stores and what boots with them: the base image in force, words written since (key 16,384 × q + w), dispatch
entries written since, the open area's entry table, and the staged bits [127:0] of a store write (R320). -/
structure Stores where
  base : Option Image
  words : Tbl (BitVec 144)
  disp : Tbl W32
  oaEntry : Tbl Nat
  digest : W32
  patch : Nat
  staged : Tbl W32
  flash : Flash
  csFail : Nat
  deriving DecidableEq, Repr

/-! ### Scratch banks and march engine (R322 to R339) -/

/-- The MARCH_RUN in progress (R333, R335 to R337). `todo` lists (bank, slice) still to test, `tries` the attempts of each
slice. The head of `todo` is the slice in test. -/
structure March where
  origin : Nat
  destructive : Bool
  mask : Nat
  first : Nat
  count : Nat
  todo : List (Nat × Nat)
  tries : Tbl Nat
  failBanks : Nat
  firstFail : Option (Nat × Nat)
  aborts : Nat
  deriving DecidableEq, Repr

/-- Scratch banks: contents (bank k from byte k × 2 MiB), words that read as uncorrectable, corrected words awaiting write-back,
and the march. -/
structure Banks where
  mem : Mem
  poison : List Nat
  fix : List Nat
  march : Option March
  deriving DecidableEq, Repr

/-! ### Power, observation, JTAG -/

/-- Power and thermal state that is no register: the POWER_STATE commands in progress and behind it, as (ORIGIN, target) (R364, R365),
trip comparators reading 115 °C (bit per
sensor), sensors in critical (bit per sensor), the elapsed tick of T0 of the peak capture, whether it has raised PEAKEXP (R372),
when the transition in progress began (R365), and a warm reset in progress (R26): since when, and whether its release waits (R391). -/
structure Power where
  orders : List (Nat × Nat)
  comps : Nat
  crit : Nat
  peakStart : Nat
  peakDone : Bool
  began : Tick
  warm : Bool
  warmAt : Tick
  released : Bool
  deriving DecidableEq, Repr

/-- Trace (R357, R359, R360): sources, destinations and the buffers of entries, with the losses since the last entry; the next codeword slot of OBS0 and OBS1
begins at elapsed tick `slot0` / 225 and `slot1` / 225. -/
structure Trace where
  flowMask : Nat
  evtEn : Bool
  stateMask : Nat
  base : Nat
  sizeLog : Nat
  wrap : Bool
  dramEn : Bool
  obsEn : Bool
  bufDram : List W64
  buf0 : List W64
  buf1 : List W64
  lostD : Nat
  lost0 : Nat
  lost1 : Nat
  slot0 : Nat
  slot1 : Nat
  deriving DecidableEq, Repr

/-- The JTAG TAP (R361, R362): instruction register, REGADDR, what was shifted out last, and whether a test instruction has been in
force since SYS_RESET_N. -/
structure Jtag where
  ir : BitVec 8
  addr : W32
  out : Option W32
  testMode : Bool
  deriving DecidableEq, Repr

/-- Guarded writes and custody (R344 to R346): the arm of each privileged master, and how many nonces were drawn. -/
structure Guard where
  hostArm : Option GwClass
  csqArm : Option GwClass
  draws : Nat
  deriving DecidableEq, Repr

/-- Plan slots (R192, R197, R198), DDRFMCFG.P per channel at PLAN_ADMIT (R209). -/
structure Plans where
  staged : Option Image
  active : Option Image
  drfmP : Tbl Nat
  admitting : Option (Nat × Tick)
  deriving DecidableEq, Repr

/-- Snapshots (R354): the elapsed tick of the Ts of the one pending, and the commands that wait for it; `owed` are the commands, with their
Ts, whose snapshot is taken and not yet complete, and `taken` the Ts of the last one taken and not complete. -/
structure Snap where
  due : Option Nat
  waiters : List Nat
  taken : Option Nat
  owed : List (Nat × Nat)
  deriving DecidableEq, Repr

/-- A COMMIT of the timebase that has not taken effect (R21, R347): the elapsed tick of the housekeeping edge at which it reaches its domain, the staged
settings as it found them, whether it is judged (R348), and the TIMEBASE_SET that made it. -/
structure TbWait where
  edge : Nat
  set : TbSettings
  judged : Bool
  origin : Option Nat
  deriving DecidableEq, Repr

/-- Registers behind the housekeeping clock (R19 to R21): the RO and RC registers of the timebase and power blocks as last copied, the
values that written registers keep in their domain until a write reaches it, as (edge, offset, value), oldest first, and the COMMITs of the
timebase on their way. -/
structure House where
  copy : Tbl W32
  old : List (Nat × Nat × W32)
  commits : List TbWait
  deriving DecidableEq, Repr

/-- The whole engine. -/
structure State where
  /-- R1. -/
  part : Part
  /-- R390: REFSEL[1:0] and BSCAN_EN as sampled. -/
  refstrap : Nat
  bscan : Bool
  /-- Registers by BAR0 offset. -/
  regs : Tbl W32
  /-- Live counters by offset of their LO half, and holding registers likewise (R353). -/
  ctrs : Tbl Ctr
  hold : Tbl Ctr
  /-- HI halves latched by a read of the LO half, by the HI half's offset. -/
  latch : Tbl W32
  /-- R352. -/
  errlog : Tbl ErrEntry
  guard : Guard
  tb : Timebase
  house : House
  lanes : Tbl LaneSt
  train : Option Train
  /-- Frames the engine sent, newest first, with their lane (log entry 6). -/
  sent : List (Nat × TxFrame)
  plans : Plans
  au : Autos
  cap : Cap
  streams : Tbl Stream
  jr : Journal
  dram : Dram
  rings : Tbl Ring
  cmds : List Cmd
  jobs : List Job
  /-- Per codec engine, 64-byte steps done and not yet entered in its ledger (R356). -/
  cxSteps : Tbl Nat
  pcie : Pcie
  /-- Everything sent to the host, newest first (log entry 6). -/
  posted : List Posted
  seqs : Tbl Seqr
  stores : Stores
  banks : Banks
  pwr : Power
  trace : Trace
  snap : Snap
  jtag : Jtag
  /-- The model's own counter of free values used (log entry 7). -/
  fresh : Nat
  /-- The waiting commands, first in first out. -/
  pending : List Instr
  deriving DecidableEq, Repr

/-! ### Reset values -/

/-- The value a register holds after a reset of its domain, where that is not 0 and no strap sets it. Read from the register
tables: R84, R188, R237, R338 with R323, R351, R381. -/
def regReset (off : Nat) : W32 :=
  if off = 0x0 then 0x4C432048#32
  else if off = 0x4 then 0x000000B0#32
  else if off = 0x40008 then 1#32
  else if off = 0x4000C then 1#32
  else if off = 0x40018 then 500#32
  else if off = 0x40040 then 1#32
  else if off = 0x50008 then 0x002D00C8#32
  else if off = 0x5000C then 600#32
  else if 0x14000 ≤ off ∧ off < 0x16000 ∧ off % 4 = 0 then 0x00010000#32
  else if 0x60000 ≤ off ∧ off < 0x60030 ∧ off % 4 = 0 then
    let k := (off - 0x60000) / 4
    let o := [4, 5, 6, 0, 1, 2, 3, 7, 8, 9, 10, 11].getD k 0
    BitVec.ofNat 32 (0xFF000 + 16 * o + o)
  else if 0x80000 ≤ off ∧ off < 0x90000 then
    let x := (off - 0x80000) % 0x2000
    if x = 0x10 then 10#32 else if x = 0x14 then 1#32 else if x = 0x18 then 16#32
    else if x = 0x1C then 100#32 else if x = 0x20 then 3900#32 else 0#32
  else 0#32

/-- Matcher histories with nothing seen (R86). -/
def LaneHist.reset : LaneHist := { cur := none, first := 0, edges := [], out := 0 }

/-- A lane after a reset of RD-CAP. -/
def LaneSt.reset : LaneSt :=
  { trainStart := 0, stateAt := [], retrain := false, passedEcho := false, u2048 := 0, echoes := 0, sumD32 := 0,
    sumU32 := 0, echoNum := 0, ackOk := false, markOk := false, echoSent := 0, latRaw := none, ctrlSeq := 0,
    fecRun := 0, txq := [], txAt := 0, txSlots := 0, txeq := { preset := 0, pre := 0, post := 0 }, rep := none,
    lastSeq := none, nextPos := 0, placed := false, uncorr := 0, lossAt := 0, samples := [], miss := [],
    hist := LaneHist.reset, txBuf := [], rxBuf := [] }

/-- A tally at T0 (R111). -/
def Tally.reset : Tally := { count := 0, done := false, prev := false }

/-- An automaton before any capture. -/
def Auto.reset : Auto := { st := 0, tallies := List.replicate 4 Tally.reset, flags := 0, gates := 0 }

/-- An idle timer (R112). -/
def Timer.reset : Timer := { run := false, line := false, expiry := 0 }

/-- The automata side after a reset of RD-CAP. -/
def Autos.reset : Autos :=
  { autos := List.replicate 8 Auto.reset, timers := List.replicate 32 Timer.reset, hist := [], trig := [],
    lastSlice := none, gateHist := [], hevs := [], forced := [], edges := [], pulses := [], trigOut := false,
    inbound := [], applied := [], outbound := [], casDue := [], lastOut := none, casSeq := [], rxq := [], seen := [], shown := [] }

/-- No capture since a plan was admitted. -/
def Cap.reset : Cap :=
  { state := .none, origin := 0, ring := 0, tag := 0, count := 0, t0 := 0, begun := 0, segs := [], ended := 0, endAt := none,
    lastTick := 0, reason := none, closing := false, anyBegun := false, jumps := [], past := none }

/-- A stream not in use. -/
def Stream.reset : Stream :=
  { active := false, full := none, c := 0, wp := 0, tail := false, seq := 0, lastTs := 0, recs := [], op := [], phase := 0, fullDone := false,
    nextTick := [], q := [], markTs := [], markOvf := 0, overAt := none, dens := none, overMask := 0, vbad := false, segno := 0, due := [],
    commit := none }

/-- No population declared. -/
def PopTimes.reset : PopTimes :=
  { cl := 0, cwl := 0, tRCD := 0, tRP := 0, tRFC1 := 0, tRFCsb := 0, tDRFMsb := 0, tREFSBRD := 0, tWR2RD := 0, tRD2WR := 0,
    tXS := 0, tXSDLL := 0, tRAS := 0, tWR := 0, tRRDL := 0, tRRDS := 0, tFAW := 0, rcdcw := [] }

/-- A DRAM bank with no open row. -/
def DBank.reset : DBank := { row := none, queue := [], ovf := none, blocked := 0, actAt := 0, wrEnd := 0 }

/-- A subchannel with nothing waiting. -/
def SubCh.reset : SubCh :=
  { slots := 0, slotAt := 0, banks := [], acts := [], refq := [], refAt := 0, lfsr := 1#32, reqs := [], lastReq := 0, ppd := false, dbl := false,
    scrubAt := 0, scrubDue := 0, sr := .awake }

/-- A vector after a reset of RD-HOST; the mask bit is set (log entry 4). -/
def Vec.reset : Vec := { addr := 0, data := 0, masked := true, pend := false, acc := 0, first := 0 }

/-- The endpoint after a reset of RD-HOST, not yet ready. -/
def Pcie.reset : Pcie :=
  { ready := false, memSpace := false, bme := false, d3 := false, mps := 128, mrrs := 512, tenBit := false, cto := 0, ro := true,
    msixEn := false, fmask := false, reads := [], waitq := [], quar := [], silent := [], vecs := [], aerCor := 0, aerUnc := 0,
    aerSev := 0x00462030#32, aerUncMask := 0x00400000#32, aerCorMask := 0x0000E000#32,
    aerFirst := 0, aerHdr := [], cfg := [], xfers := [], halted := false, bars := [],
    ssvid := 0x1C7E, ssid := 0x2048, serial := Config.serial }

/-- A free context (R288). -/
def Ctx.reset : Ctx := { abort := false, c0 := 0, c1 := 0, c2 := 0, origin := none }

/-- A sequencer after a reset of RD-CTRL. -/
def Seqr.reset : Seqr :=
  { state := .idle, pc := 0, ctx := 0, w := List.replicate 32 0, flags := 0, lc := [0, 0, 0, 0], mar := 0, mdr := 0, xdr := 0,
    lb := List.replicate 8 0, stack := [], ctxs := List.replicate 4 Ctx.reset, queue := [], memBusy := false, hostBusy := false,
    hold := [], poison := false, pubs := [], pendTrap := [], inTrap := none, resume := .idle, prePc := 0, tsafe := true, sinceCmt := 0,
    wdogHit := false, wait := none, trapWait := none, words := 0 }

/-- An erased flash: both slots hold no valid image (R312, R313). -/
def Flash.blank : Flash := { slotA := Image.empty, slotB := Image.empty }

/-- The settings that the REFSEL straps give (R66). -/
def TbSettings.ofStrap (r : Nat) : TbSettings :=
  let v := if r = 0 then (64, 0, 1) else if r = 1 then (640, 0, 1) else if r = 2 then (256, 0, 1) else (40, 24, 25)
  { refsel := r % 4, mode := false, nint := v.1, nfrac := v.2.1, nmod := v.2.2, den := false, seed := 1, phoff := 0 }

/-- The machine right after SYS_RESET_N with straps 0 and an erased flash: every register at its reset value, the timebase in
INITIAL (R64), every power rail and fuse as R393 and R363 say, no boot image loaded (R313). -/
def State.reset : State :=
  { part := .fa, refstrap := 0, bscan := false,
    regs := [(0x8, 0xF#32), (0x40000, 64#32)],
    ctrs := [], hold := [], latch := [], errlog := [],
    guard := { hostArm := none, csqArm := none, draws := 0 },
    tb := { tick := 0, time := 0, act := TbSettings.ofStrap 0, eclipseAt := 0, lastEclipse := 0, offsetAt := 0, lfsr := 1,
            order := none, later := none, fabLost := none, fabAt := 0, dead := false, conj := none, syncHigh := none, pclk := 0 },
    house := { copy := [], old := [], commits := [] },
    lanes := [], train := none, sent := [], plans := { staged := none, active := none, drfmP := [], admitting := none },
    au := Autos.reset, cap := Cap.reset, streams := [],
    jr := { next := 0, inForce := false, pos := 0, entries := [], wait := [], out := [] },
    dram := { arr := 0, refIn := [], refPend := [], mem := [], times := PopTimes.reset, rt := [], cells := [], turn := [], reads := [], ids := 0,
              subs := [], poison := [], trainOrigin := none },
    rings := [], cmds := [], jobs := [], cxSteps := [], pcie := Pcie.reset, posted := [], seqs := [],
    stores := { base := none, words := [], disp := [], oaEntry := [], digest := 0, patch := 0, staged := [],
                flash := Flash.blank, csFail := 0 },
    banks := { mem := [], poison := [], fix := [], march := none },
    pwr := { orders := [], comps := 0, crit := 0, peakStart := 0, peakDone := false, began := 0, warm := false, warmAt := 0, released := false },
    trace := { flowMask := 0, evtEn := false, stateMask := 0, base := 0, sizeLog := 0, wrap := false, dramEn := false,
               obsEn := false, bufDram := [], buf0 := [], buf1 := [], lostD := 0, lost0 := 0, lost1 := 0, slot0 := 0, slot1 := 0 },
    snap := { due := none, waiters := [], taken := none, owed := [] },
    jtag := { ir := 0x01, addr := 0, out := none, testMode := false },
    fresh := 0, pending := [] }

end Sys2Proof.Machine
end

