-- ==== Sys2Proof/Machine/Ops.lean ====
section
/-! DEFINITION. The named operations every meaning is built from: sparse tables and byte memories, bit fields, the register
file, counters, free values, check codes, event sources and MSI-X signalling. -/

namespace Sys2Proof.Machine

/-- The three outcomes of a step on this state. -/
abbrev Out := Host.Outcome State Fault Refusal

/-- What no engine step changes: the ordering code (R1), the straps, which only SYS_RESET_N samples (R390), the TAP, which is
a domain of its own (R361), and the queue, which `step` alone serves. -/
def keepOutside (s t : State) : State :=
  { t with part := s.part, refstrap := s.refstrap, bscan := s.bscan, jtag := s.jtag, pending := s.pending }

/-- Every engine step: while a boundary-scan test instruction has been in force the engine's function is undefined until
SYS_RESET_N (R362). An engine whose fabric clock is lost for good does nothing until SYS_RESET_N (R71). Otherwise `t` is what the
step makes of the engine. (DEDUCED: log entries 9 and 32.) -/
def engineStep (s t : State) : Out :=
  if s.jtag.testMode then .fault .functionUndefined else if s.tb.dead then .next s else .next (keepOutside s t)

/-! ### Sparse tables and memories -/

/-- The value of key `k`, or `d`. -/
def tblGet {α : Type} (t : Tbl α) (k : Nat) (d : α) : α :=
  match t with
  | [] => d
  | (j, v) :: t' => if j = k then v else tblGet t' k d

/-- The value of key `k`, if listed. -/
def tblFind {α : Type} (t : Tbl α) (k : Nat) : Option α :=
  match t with
  | [] => none
  | (j, v) :: t' => if j = k then some v else tblFind t' k

/-- Set key `k`, keeping the keys rising. -/
def tblSet {α : Type} (t : Tbl α) (k : Nat) (x : α) : Tbl α :=
  match t with
  | [] => [(k, x)]
  | (j, v) :: t' => if j < k then (j, v) :: tblSet t' k x else if j = k then (k, x) :: t' else (k, x) :: (j, v) :: t'

/-- Remove every key for which `p` holds. -/
def tblDrop {α : Type} (t : Tbl α) (p : Nat → Bool) : Tbl α := t.filter fun e => !p e.1

/-- The byte at `a`; an unlisted byte reads 0 (log entry 5). -/
def memGet (m : Mem) (a : Nat) : Byte :=
  match m with
  | [] => 0
  | (x, b) :: m' => if x = a then b else memGet m' a

/-- Write one byte, keeping the canonical form. -/
def memSet (m : Mem) (a : Nat) (v : Byte) : Mem :=
  match m with
  | [] => if v = 0 then [] else [(a, v)]
  | (x, b) :: m' =>
    if x < a then (x, b) :: memSet m' a v
    else if x = a then (if v = 0 then m' else (a, v) :: m')
    else (if v = 0 then (x, b) :: m' else (a, v) :: (x, b) :: m')

/-- Write a byte string from `a` upward. -/
def memPut (m : Mem) (a : Nat) (bs : List Byte) : Mem :=
  match bs with
  | [] => m
  | b :: bs' => memPut (memSet m a b) (a + 1) bs'

/-- `n` bytes from `a` upward. -/
def memTake (m : Mem) (a n : Nat) : List Byte :=
  match n with
  | 0 => []
  | k + 1 => memGet m a :: memTake m (a + 1) k

/-- A little-endian number of bytes (R7). -/
def leVal (bs : List Byte) : Nat :=
  match bs with
  | [] => 0
  | b :: bs' => b.toNat + 256 * leVal bs'

/-- The `n` little-endian bytes of `v` (R7). -/
def leBytes (n v : Nat) : List Byte :=
  match n with
  | 0 => []
  | k + 1 => BitVec.ofNat 8 v :: leBytes k (v / 256)

/-- The little-endian number of `n` bytes at `a` (R7). -/
def memLE (m : Mem) (a n : Nat) : Nat := leVal (memTake m a n)

/-- Pad a byte string with zeros to `n` bytes, cutting what lies beyond. -/
def padTo (n : Nat) (bs : List Byte) : List Byte := (bs ++ List.replicate (n - bs.length) 0).take n

/-! ### Bit fields and numbers -/

/-- Bits [hi:lo] of a number. -/
def bits (v hi lo : Nat) : Nat := v / 2 ^ lo % 2 ^ (hi + 1 - lo)

/-- Bit i of a number. -/
def bit (v i : Nat) : Bool := v / 2 ^ i % 2 == 1

/-- Field [hi:lo] of a register. -/
def fld (v : W32) (hi lo : Nat) : Nat := bits v.toNat hi lo

/-- A register with field [hi:lo] replaced by `x`. -/
def putFld (v : W32) (hi lo x : Nat) : W32 :=
  BitVec.ofNat 32 (v.toNat % 2 ^ lo + (x % 2 ^ (hi + 1 - lo)) * 2 ^ lo + v.toNat / 2 ^ (hi + 1) * 2 ^ (hi + 1))

/-- The mask of bits [hi:lo]. -/
def maskOf (hi lo : Nat) : W32 := BitVec.ofNat 32 (2 ^ (hi + 1) - 2 ^ lo)

/-- Rounded-up quotient. -/
def ceilDiv (a b : Nat) : Nat := if b = 0 then 0 else (a + b - 1) / b

/-- 1 for true. -/
def b2n (b : Bool) : Nat := if b then 1 else 0

/-- A signed value as the low bits of a two's complement field of `w` bits. -/
def toField (w : Nat) (x : Int) : Nat := (x % (2 ^ w : Nat)).toNat

/-- The signed value of a two's complement field of `w` bits. -/
def ofField (w v : Nat) : Int := if v < 2 ^ (w - 1) then (v : Int) else (v : Int) - (2 ^ w : Nat)

/-- Rounded to the nearest whole number, halves rounded up (R48). -/
def roundHalfUp (num : Int) (den : Nat) : Int := (2 * num + den) / (2 * den : Nat)

/-- The i-th element, or `d`. -/
def nth {α : Type} (l : List α) (i : Nat) (d : α) : α := l.getD i d

/-- Replace the i-th element. -/
def putNth {α : Type} (l : List α) (i : Nat) (x : α) : List α := l.set i x

/-- The numbers below `n` for which `p` holds, rising. -/
def numsWhere (n : Nat) (p : Nat → Bool) : List Nat := (List.range n).filter p

/-- The bit mask of a list of bit numbers. -/
def maskOfList (l : List Nat) : Nat := l.foldl (fun m i => m ||| 2 ^ i) 0

/-! ### Check codes (R195, R277) -/

/-- One bit step of CRC-32C, reflected (R277). -/
def crc32Bit (c : Nat) : Nat := if c % 2 = 1 then (c / 2) ^^^ 0x82F63B78 else c / 2

/-- Fold one byte into a CRC-32C register. -/
def crc32Byte (c : Nat) (b : Byte) : Nat :=
  crc32Bit (crc32Bit (crc32Bit (crc32Bit (crc32Bit (crc32Bit (crc32Bit (crc32Bit (c ^^^ b.toNat))))))))

/-- CRC-32C of a byte string (R277). -/
def crc32c (bs : List Byte) : Nat := bs.foldl crc32Byte 0xFFFFFFFF ^^^ 0xFFFFFFFF

/-- One bit step of the ECMA-182 CRC-64, not reflected (R195). -/
def crc64Bit (c : Nat) : Nat :=
  if c / 2 ^ 63 % 2 = 1 then (c * 2 % 2 ^ 64) ^^^ 0x42F0E1EBA9EA3693 else c * 2 % 2 ^ 64

/-- Fold one byte into a CRC-64 register. -/
def crc64Byte (c : Nat) (b : Byte) : Nat :=
  crc64Bit (crc64Bit (crc64Bit (crc64Bit (crc64Bit (crc64Bit (crc64Bit (crc64Bit (c ^^^ (b.toNat * 2 ^ 56)))))))))

/-- Continue a CRC-64 over a byte string (R195, R277). -/
def crc64 (c : Nat) (bs : List Byte) : Nat := bs.foldl crc64Byte c

/-! ### The part (R1 to R3) -/

/-- CAPS.QUADMASK (R5). -/
def quadMask (s : State) : Nat := match s.part with | .fa => 0xF | .ha => 0x3

/-- Quadrants present. -/
def quads (s : State) : Nat := match s.part with | .fa => 4 | .ha => 2

/-- Lanes present (R2); lane n lies in cluster n/8 and quadrant n/32. -/
def laneCount (s : State) : Nat := 32 * quads s

/-- DRAM channels present. -/
def chCount (s : State) : Nat := 2 * quads s

/-- Subchannels present: S of R162. -/
def subCount (s : State) : Nat := 4 * quads s

/-- Sequencers present (R2, R286). -/
def seqCount (s : State) : Nat := 4 + 6 * quads s

/-- Whether a link exists: a lane, or 128 to 131 for K0 to K3. -/
def linkPresent (s : State) (n : Nat) : Bool := decide (n < laneCount s) || (decide (128 ≤ n) && decide (n < 132))

/-! ### Register file -/

/-- The stored word of the register at a BAR0 offset. -/
def reg (s : State) (off : Nat) : W32 := tblGet s.regs off (regReset off)

/-- Store a register word. -/
def setReg (off : Nat) (v : W32) (s : State) : State := { s with regs := tblSet s.regs off v }

/-- Field [hi:lo] of the register at `off`. -/
def rf (s : State) (off hi lo : Nat) : Nat := fld (reg s off) hi lo

/-- Set field [hi:lo] of the register at `off`. -/
def setRf (off hi lo x : Nat) (s : State) : State := setReg off (putFld (reg s off) hi lo x) s

/-- The block of a lane (R57) or cascade lane (R63). -/
def laneBase (n : Nat) : Nat := if n < 128 then 0x400000 + 0x1000 * n else 0x480000 + 0x1000 * (n - 128)

/-- The block of a cluster. -/
def clBase (c : Nat) : Nat := 0x500000 + 0x4000 * c

/-- The block of an automaton. -/
def taBase (a : Nat) : Nat := 0x600000 + 0x10000 * a

/-- The block of a DRAM channel. -/
def chBase (ch : Nat) : Nat := 0x80000 + 0x2000 * ch

/-- The block of a sequencer (R286). -/
def sqBase (q : Nat) : Nat := 0x70000 + 0x400 * q

/-- The block of a codec engine. -/
def cxBase (x : Nat) : Nat := 0x78000 + 0x100 * x

/-! ### Free values -/

/-- The next free value, and the state that has used it (log entry 7). -/
def takeFree (s : State) : W64 × State := (Config.freeValue s.fresh, { s with fresh := s.fresh + 1 })

/-! ### MSI-X (R231 to R235) -/

/-- What the engine sends to the host. (DESIGN CHOICE: log entry 6.) -/
def post (p : Posted) (s : State) : State := { s with posted := p :: s.posted }

/-- A vector's state. -/
def vec (s : State) (v : Nat) : Vec := tblGet s.pcie.vecs v Vec.reset

/-- Set a vector's state. -/
def setVec (v : Nat) (x : Vec) (s : State) : State := { s with pcie := { s.pcie with vecs := tblSet s.pcie.vecs v x } }

/-- Whether messages of a vector are held: masked, function masked, Bus Master Enable 0 or D3hot (R234, R214). -/
def vecHeld (s : State) (v : Nat) : Bool := (vec s v).masked || s.pcie.fmask || !s.pcie.bme || s.pcie.d3

/-- Add 1 to a counter and report whether it wrapped (R353). -/
def ctrStep (off : Nat) (s : State) : State × Bool :=
  let c := tblGet s.ctrs off { val := 0, ovf := false }
  if c.val + 1 = 2 ^ 48 then ({ s with ctrs := tblSet s.ctrs off { val := 0, ovf := true } }, true)
  else ({ s with ctrs := tblSet s.ctrs off { c with val := c.val + 1 } }, false)

/-- MSIX_SENT and MSIX_MERGED (R238). -/
def msixSentOff : Nat := 0x18100 + 8 * 6
def msixMergedOff : Nat := 0x18100 + 8 * 7

/-- A counter has been incremented: a wrap raises GLBEVT.CNTOVF, whose source signals its vector through `again` (R232, R353). -/
def afterStep (again : Nat → State → State) (p : State × Bool) : State :=
  if p.2 && !bit (reg p.1 0x18).toNat 4 then
    let t := setReg 0x18 (reg p.1 0x18 ||| 0x10#32) p.1
    let m := reg t (0x10000 + 4 * 4)
    if bit m.toNat 31 then again (fld m 10 0) t else t
  else p.1

/-- The signals that a vector accumulates reach its count, or it has no time to wait (R233). -/
def signalDue (w : W32) (x : Vec) : Bool := fld w 15 0 == 0 || decide (fld w 31 16 ≤ x.acc + 1)

/-- Signal a vector, as R233 and R234 state. A wrap of one of the two MSI-X counters raises GLBEVT.CNTOVF, whose source may
signal a vector in turn; each counter can wrap once in such a chain, so a fuel of 3 is never used up. (DEDUCED: log entry 62.) -/
def signalVec (fuel v : Nat) (s : State) : State :=
  match fuel with
  | 0 => s
  | f + 1 =>
    let x := vec s v
    if !s.pcie.msixEn then s
    else if x.pend then afterStep (signalVec f) (ctrStep msixMergedOff s)
    else
      let s1 := if x.acc = 0 then s else afterStep (signalVec f) (ctrStep msixMergedOff s)
      if signalDue (reg s (0x14000 + 4 * v)) x then
        if vecHeld s v then setVec v { x with acc := 0, pend := true } s1
        else afterStep (signalVec f) (ctrStep msixSentOff (post (.msix x.addr x.data) (setVec v { x with acc := 0 } s1)))
      else setVec v { x with acc := x.acc + 1, first := if x.acc = 0 then s.tb.time else x.first } s1

/-- Signal a vector. -/
def signal (v : Nat) (s : State) : State := signalVec 3 v s

/-- A message of a vector falls due: send it or hold it (R234). A wrap of MSIX_SENT raises GLBEVT.CNTOVF (R353). -/
def dueVec (v : Nat) (s : State) : State :=
  let x := vec s v
  if vecHeld s v then setVec v { x with acc := 0, pend := true } s
  else afterStep (signalVec 3) (ctrStep msixSentOff (post (.msix x.addr x.data) (setVec v { x with acc := 0, pend := false } s)))

/-! ### Event sources (R232, R236) -/

/-- The register offset and bit of an event source (R236). -/
def srcReg (n : Nat) : Option (Nat × Nat) :=
  if n < 16 then some (0x18, n)
  else if n < 33 then some (0x18000, n - 16)
  else if n < 40 then some (0x40020, n - 33)
  else if n < 136 then some (0x50200 + 4 * ((n - 40) / 4), (n - 40) % 4)
  else if n < 152 then some (0x50004, n - 136)
  else if n < 248 then some (0x60040 + 4 * ((n - 152) / 8), (n - 152) % 8)
  else if n < 256 then some (0x60104, n - 248)
  else if n < 480 then some (sqBase ((n - 256) / 8) + 4, (n - 256) % 8)
  else if n < 536 then some (chBase ((n - 480) / 7) + 8, (n - 480) % 7)
  else if n < 1560 then some (laneBase ((n - 536) / 8) + 0x14, (n - 536) % 8)
  else if n < 1592 then some (clBase ((n - 1560) / 2) + 0x800, (n - 1560) % 2)
  else if n < 1632 then some (taBase ((n - 1592) / 5) + 0x40, [0, 3, 4, 5, 6].getD ((n - 1592) % 5) 0)
  else if n < 1664 then some (laneBase (128 + (n - 1632) / 8) + 0x14, (n - 1632) % 8)
  else if n < 1696 then some (chBase (2 * ((n - 1664) / 8)) + 0x80, (n - 1664) % 8)
  else if n < 1728 then some (cxBase ((n - 1696) / 8), (n - 1696) % 8)
  else if n < 1760 then some (0x180020, n - 1728)
  else if n < 1792 then some (0x180024, n - 1760)
  else none

/-- The event source of a register bit: the inverse of `srcReg` over its 1,792 sources. -/
def regSrc (off b : Nat) : Option Nat := (List.range 1792).find? fun n => srcReg n == some (off, b)

/-- Whether an event bit is defined: reserved bits never fire (R236, R261, R191). -/
def srcDefined (n : Nat) : Bool :=
  if n < 9 then true
  else if n < 16 then false
  else if n < 136 then true
  else if n < 143 then true
  else if n < 152 then false
  else if n < 248 then decide ((n - 152) % 8 < 6)
  else if n < 253 then true
  else if n < 256 then false
  else if n < 1664 then decide (¬ (1632 ≤ n ∧ (n - 1632) % 8 = 7))
  else if n < 1696 then decide ((n - 1664) % 8 < 7)
  else if n < 1728 then decide ((n - 1696) % 8 < 6)
  else if n < 1747 then true
  else if n < 1760 then false
  else decide (n < 1763)

/-- Whether the block of a source is present (R3). -/
def srcPresent (s : State) (n : Nat) : Bool :=
  if 256 ≤ n ∧ n < 480 then decide ((n - 256) / 8 < seqCount s)
  else if 480 ≤ n ∧ n < 536 then decide ((n - 480) / 7 < chCount s)
  else if 536 ≤ n ∧ n < 1560 then decide ((n - 536) / 8 < laneCount s)
  else if 1560 ≤ n ∧ n < 1592 then decide ((n - 1560) / 2 < 4 * quads s)
  else if 1664 ≤ n ∧ n < 1696 then decide ((n - 1664) / 8 < quads s)
  else if 1696 ≤ n ∧ n < 1728 then decide ((n - 1696) / 8 < quads s)
  else true

/-- A source fires: when EVMAP.EN is 1 the vector in EVMAP.VECTOR is signalled (R232). -/
def fire (n : Nat) (s : State) : State :=
  let m := reg s (0x10000 + 4 * n)
  if bit m.toNat 31 then signal (fld m 10 0) s else s

/-- A trace entry enters a buffer of 4,096; one that finds it full is lost, and the next that enters is preceded by a DROP entry
(R358, R360). The result is the buffer, the count of losses pending, and whether an entry was lost. (DEDUCED: log entry 71.) -/
def traceInto (buf : List W64) (lost : Nat) (e : W64) : List W64 × Nat × Bool :=
  if buf.length ≥ 4096 then (buf, min (lost + 1) 0xFFFFFFFF, true)
  else if lost = 0 then (buf ++ [e], 0, false)
  else if buf.length + 1 ≥ 4096 then (buf ++ [BitVec.ofNat 64 (5 * 2 ^ 60 + lost)], 1, true)
  else (buf ++ [BitVec.ofNat 64 (5 * 2 ^ 60 + lost), e], 0, false)

/-- Set the trace. -/
def withTrace (t : Trace) (s : State) : State := { s with trace := t }

/-- The buffers after an entry, and whether one of them lost it: OBS0 carries FLOW, OBS1 the others, DRAM all (R357, R359, R360). (DEDUCED: log entry 71.) -/
def traceWith (flow : Bool) (e : W64) (t : Trace) : Trace × Bool :=
  let d := if t.dramEn then traceInto t.bufDram t.lostD e else (t.bufDram, t.lostD, false)
  let p0 := if t.obsEn && flow then traceInto t.buf0 t.lost0 e else (t.buf0, t.lost0, false)
  let p1 := if t.obsEn && !flow then traceInto t.buf1 t.lost1 e else (t.buf1, t.lost1, false)
  ({ t with bufDram := d.1, lostD := d.2.1, buf0 := p0.1, lost0 := p0.2.1, buf1 := p1.1, lost1 := p1.2.1 }, d.2.2 || p0.2.2 || p1.2.2)

/-- An EVENT, STATE or FLOW entry goes to the trace destinations; a loss raises GLBEVT.TRACEDROP (R360). -/
def traceAdd (flow : Bool) (e : W64) (s : State) : State :=
  let r := traceWith flow e s.trace
  let s1 := withTrace r.1 s
  if r.2 && !bit (reg s1 0x18).toNat 6 then fire 6 (setReg 0x18 (reg s1 0x18 ||| 0x40#32) s1) else s1

/-- The tick count as bits. -/
def tickNow (s : State) : Nat := s.tb.tick

/-- Set the bit of an event source; a change from 0 to 1 fires the source and, with EVTEN, enters the trace (R232, R359). -/
def setSource (n : Nat) (s : State) : State :=
  match srcReg n with
  | none => s
  | some (off, b) =>
    if srcDefined n && srcPresent s n then
      if bit (reg s off).toNat b then s
      else
        let s1 := fire n (setReg off (reg s off ||| BitVec.ofNat 32 (2 ^ b)) s)
        if s1.trace.evtEn && (s1.trace.dramEn || s1.trace.obsEn) then
          traceAdd false (BitVec.ofNat 64 (3 * 2 ^ 60 + n * 2 ^ 49 + tickNow s % 2 ^ 49)) s1
        else s1
    else s

/-- Count one event in the counter whose LO half lies at `off`; a wrap raises GLBEVT.CNTOVF (R353). -/
def count (off : Nat) (s : State) : State :=
  let p := ctrStep off s
  if p.2 then setSource 4 p.1 else p.1

/-- Count `n` events at once. -/
def countN (n off : Nat) (s : State) : State :=
  let c := tblGet s.ctrs off { val := 0, ovf := false }
  if c.val + n < 2 ^ 48 then { s with ctrs := tblSet s.ctrs off { c with val := c.val + n } }
  else setSource 4 { s with ctrs := tblSet s.ctrs off { val := (c.val + n) % 2 ^ 48, ovf := true } }

/-- The LO half of a sequencer counter (R321), of a codec counter (R285), of a bank counter and of a march counter (R339). -/
def sqCtr (q i : Nat) : Nat := sqBase q + 0x100 + 8 * i
def cxCtr (x i : Nat) : Nat := cxBase x + 0x80 + 8 * i
def bankCtr (k i : Nat) : Nat := 0x60200 + 0x80 * k + 8 * i
def marchCtr (i : Nat) : Nat := 0x60800 + 8 * i

/-- GLBEVT, PEEVT, TBEVT, CAPEVT0 and CAPEVT1 bits by number (R236). -/
def srcGlb (b : Nat) : Nat := b
def srcPe (b : Nat) : Nat := 16 + b
def srcTb (b : Nat) : Nat := 33 + b
def srcTh (i b : Nat) : Nat := 40 + 4 * i + b
def srcPwr (b : Nat) : Nat := 136 + b
def srcBnk (k b : Nat) : Nat := 152 + 8 * k + b
def srcMarch (b : Nat) : Nat := 248 + b
def srcSq (q b : Nat) : Nat := 256 + 8 * q + b
def srcDch (ch b : Nat) : Nat := 480 + 7 * ch + b
def srcLane (n b : Nat) : Nat := if n < 128 then 536 + 8 * n + b else 1632 + 8 * (n - 128) + b
def srcCl (c b : Nat) : Nat := 1560 + 2 * c + b
def srcTa (a i : Nat) : Nat := 1592 + 5 * a + i
def srcQd (q b : Nat) : Nat := 1664 + 8 * q + b
def srcCx (x b : Nat) : Nat := 1696 + 8 * x + b
def srcCap (b : Nat) : Nat := 1728 + b
def srcCap1 (b : Nat) : Nat := 1760 + b

/-! ### Bus errors and Completer Abort (R223) -/

/-- A posted write that is not carried out: BUSERR, BUS_ERR, and the first one since the last read of the log (R223, R237).
`bar` is 0, 2 or 4. -/
def busError (kind bar off : Nat) (s : State) : State :=
  let s1 := if bit (reg s 0x18024).toNat 31 then s
    else setReg 0x18024 (BitVec.ofNat 32 (2 ^ 31 + kind * 256 + bar)) (setReg 0x18020 (BitVec.ofNat 32 off) s)
  setSource (srcPe 0) (count 0x18100 s1)

/-- A read answered with Completer Abort (R223); `b` is the PEEVT bit that names why. (DEDUCED: log entry 64.) -/
def completerAbort (b : Nat) (s : State) : State :=
  setSource (srcPe b) (count 0x18108 (post .completerAbort s))

/-- An event of R349 enters CFGLOG, first one kept, with its REASON (R351). -/
def cfgLog (reason off : Nat) (s : State) : State :=
  if bit (reg s 0x1C).toNat 31 then s else setReg 0x1C (BitVec.ofNat 32 (2 ^ 31 + reason * 2 ^ 28 + off % 2 ^ 24)) s

/-! ### Time -/

/-- A microsecond in ticks (R6 table of conversions). -/
def usTicks : Nat := 51200

/-- Elapsed ticks of the engine, which a step or a conjunction does not change (R65). (DESIGN CHOICE: log entry 2.) -/
def nowT (s : State) : Nat := s.tb.time

/-- Timebase states (R73, TBSTAT.STATE). -/
def tbInitial : Nat := 0
def tbLocked : Nat := 1
def tbEclipse : Nat := 2
def tbReacquire : Nat := 3

/-- TBSTAT.STATE. -/
def tbState (s : State) : Nat := rf s 0x4001C 31 28

/-- The engine becomes ready once the timebase has left INITIAL and the PCIe link is up, unless a warm reset is in progress (R217, R378). (DEDUCED: log entry 74.) -/
def updateReady (s : State) : State :=
  if tbState s ≠ tbInitial ∧ rf s 0x18004 31 29 ≠ 0 ∧ s.pwr.warm = false then { s with pcie := { s.pcie with ready := true } } else s

/-- One slice passes: the engine's clock advances by 32 ticks, and the counter too unless the timebase is in INITIAL (R64);
the counter wraps at 2^64. (DESIGN CHOICE: log entry 2.) -/
def advanceSlice (s : State) : State :=
  { s with tb := { s.tb with time := s.tb.time + 32,
                             tick := if tbState s = tbInitial then s.tb.tick else (s.tb.tick + 32) % 2 ^ 64 } }

/-! ### The housekeeping clock (R19 to R21) -/

/-- A housekeeping period, 40 ns, in ticks; edges lie at its multiples in elapsed ticks. (DESIGN CHOICE: log entry 11.) -/
def houseTicks : Nat := 2048

/-- The second housekeeping edge after now (R21). -/
def secondEdge (s : State) : Nat := houseTicks * (nowT s / houseTicks + 2)

/-- The value that a written register has in its domain: until the second edge after a write, the value before it (R21). -/
def domReg (s : State) (off : Nat) : W32 :=
  match s.house.old.find? fun o => o.2.1 == off && decide (nowT s < o.1) with
  | some o => o.2.2
  | none => reg s off

/-- A field of it. -/
def domRf (s : State) (off hi lo : Nat) : Nat := fld (domReg s off) hi lo

/-- Write a register behind the housekeeping clock: reads return the value at once, its domain takes it at the second edge (R21). -/
def holdReg (off : Nat) (v : W32) (s : State) : State :=
  setReg off v { s with house := { s.house with old := s.house.old ++ [(secondEdge s, off, reg s off)] } }

/-! ### Shared predicates -/

/-- The engine is armed: an ARM is accepted and has not ended (R252). -/
def armed (s : State) : Bool := s.cap.state == .waiting || s.cap.state == .running || s.cap.closing

/-- PLAN_ADMIT runs (R200). -/
def admitting (s : State) : Bool := s.plans.admitting.isSome

/-- A capture is running, from T0 until its end (R120, R135). -/
def capRunning (s : State) : Bool := s.cap.state == .running

/-- PWRSTAT.TRIPPED, PWRSTAT.WARN and PWRSTAT.STATE. -/
def tripped (s : State) : Bool := rf s 0x50000 25 25 == 1
def warnOn (s : State) : Bool := rf s 0x50000 26 26 == 1
def pwrState (s : State) : Nat := rf s 0x50000 31 30

/-- DCHSTAT.STATE: 0 UNPOP, 1 UNTRAINED, 2 TRAINING, 3 READY, 4 FAILED. -/
def chState (s : State) (ch : Nat) : Nat := rf s (chBase ch + 4) 31 28

/-- Every present channel is READY. -/
def allReady (s : State) : Bool := (List.range (chCount s)).all fun ch => chState s ch == 3

/-- The declared population in GiB (R159), read from DCHCFG of channel 0. -/
def popGiB (s : State) : Nat := 16 * rf s (chBase 0) 2 0 * rf s (chBase 0) 10 9 * subCount s

/-- Top of the device address space (R162). -/
def topAddr (s : State) : Nat := popGiB s * 2 ^ 30

/-- The journal area begins 512 MiB below Top (R162). -/
def journalBase (s : State) : Nat := topAddr s - 2 ^ 29

/-! ### Rings (R239 to R249) -/

/-- A ring context. -/
def ring? (s : State) (r : Nat) : Option Ring := tblFind s.rings r

/-- Set a ring context. -/
def setRing (r : Nat) (x : Ring) (s : State) : State := { s with rings := tblSet s.rings r x }

/-- The 32 bytes of an entry with its phase bit (R245, R257). -/
def entryBytes (phase : Bool) (e : RingEntry) : List Byte :=
  match e with
  | .cpl tag st final x0 x1 x2 =>
    leBytes 4 tag.toNat ++ leBytes 2 st ++ leBytes 1 (b2n phase + 2 * b2n final) ++ leBytes 1 0 ++
      leBytes 8 x0.toNat ++ leBytes 8 x1.toNat ++ leBytes 8 x2.toNat
  | .record seq off len ts =>
    leBytes 8 seq ++ leBytes 4 off ++ leBytes 2 len ++ leBytes 1 1 ++ leBytes 1 (b2n phase) ++ leBytes 8 ts ++ leBytes 8 0
  | .skip first last =>
    leBytes 8 first ++ leBytes 4 0 ++ leBytes 2 0 ++ leBytes 1 2 ++ leBytes 1 (b2n phase) ++ leBytes 8 last ++ leBytes 8 0
  | .fin next =>
    leBytes 8 next ++ leBytes 4 0 ++ leBytes 2 0 ++ leBytes 1 3 ++ leBytes 1 (b2n phase) ++ leBytes 8 0 ++ leBytes 8 0

/-- Whether the engine may write an entry now: the ring runs, has room (R243), and the function may master the bus (R229, R214). -/
def canWrite (s : State) (x : Ring) : Bool :=
  x.halted.isNone && decide ((x.eng + 1) % x.z ≠ x.host) && s.pcie.bme && !s.pcie.d3

/-- Write one entry at the engine index and signal the ring's vector (R243). -/
def writeEntry (r : Nat) (x : Ring) (e : RingEntry) (s : State) : State :=
  let n := (x.eng + 1) % x.z
  let s1 := post (.write (x.base + 32 * x.eng) (entryBytes x.phase e) false) s
  let s2 := setRing r { x with eng := n, phase := if n = 0 then !x.phase else x.phase } s1
  if x.ien then signal x.vector s2 else s2

/-- Post an entry to a CMP or STR ring, or hold it behind those held already (R243, R248). A ring that no longer exists posts
nothing (R25). -/
def postEntry (r : Nat) (e : RingEntry) (s : State) : State :=
  match ring? s r with
  | none => s
  | some x =>
    if x.held.isEmpty && canWrite s x then writeEntry r x e s
    else
      let s1 := setRing r { x with held := x.held ++ [e] } s
      if x.held.isEmpty && x.type == .cmp then setSource (srcCap 16) s1 else s1

/-- Post held entries in order while there is room (R243, R249). -/
def drainHeld (r : Nat) (es : List RingEntry) (s : State) : State :=
  match es with
  | [] => s
  | e :: rest =>
    match ring? s r with
    | none => s
    | some x => if canWrite s x then drainHeld r rest (writeEntry r { x with held := rest } e s) else s

/-- Post what a ring holds. -/
def drainRing (r : Nat) (s : State) : State :=
  match ring? s r with
  | none => s
  | some x => drainHeld r x.held s

/-- Halt one ring, logging the first since the last read of RHALTLOG (R249, R260). -/
def haltRing (c : HaltCause) (r : Nat) (s : State) : State :=
  match ring? s r with
  | none => s
  | some x =>
    if x.halted.isSome then s
    else
      let code := match c with | .fetchTimeout => 1 | .poisonedFetch => 2 | .busMasterOff => 3
      let s1 := setRing r { x with halted := some c } s
      let s2 := if bit (reg s1 0x180028).toNat 31 then s1 else setReg 0x180028 (BitVec.ofNat 32 (2 ^ 31 + code * 2 ^ 16 + r)) s1
      setSource (srcCap 15) s2

/-! ### Streams and subchannels -/

/-- Streams. -/
def strm (s : State) (i : Nat) : Stream := tblGet s.streams i Stream.reset
def setStrm (i : Nat) (x : Stream) (s : State) : State := { s with streams := tblSet s.streams i x }

/-- Subchannels. -/
def sub (s : State) (i : Nat) : SubCh := tblGet s.dram.subs i SubCh.reset
def setSub (i : Nat) (x : SubCh) (s : State) : State := { s with dram := { s.dram with subs := tblSet s.dram.subs i x } }

/-- The LO half of a subchannel counter (R190). -/
def subCtr (sc i : Nat) : Nat := chBase (sc / 2) + 0x100 + 0x80 * (sc % 2) + 8 * i

/-! ### Placement of device addresses (R162, R163) -/

/-- Log2 of a subchannel's capacity in granules (R162). -/
def subW (s : State) : Nat := 28 + (if popGiB s / subCount s = 16 then 0 else if popGiB s / subCount s = 32 then 1 else 2)

/-- The subchannel and local granule index of a device address (R162). -/
def placeOf (s : State) (a : Nat) : Nat × Nat :=
  let n := subCount s
  if a < journalBase s then (a / 64 % n, a / 64 / n)
  else
    let e := (a - journalBase s) / 64
    let c := e / 4194304
    let e' := e % 4194304
    (c * (n / 2) + e' % (n / 2), 2 ^ subW s - 2 ^ 29 / (64 * n) + e' / (n / 2))

/-- The subchannel of a device address. -/
def subOf (s : State) (a : Nat) : Nat := (placeOf s a).1

/-- Where a burst lies in a subchannel (R163). -/
structure Burst where
  rank : Nat
  bg : Nat
  ba : Nat
  row : Nat
  col : Nat
  deriving DecidableEq, Repr

/-- The place of a local granule index under the address map in force (R163). -/
def burstOf (s : State) (h : Nat) : Burst :=
  let ranks := rf s (chBase 0) 2 0
  let r := if ranks = 4 then 2 else if ranks = 2 then 1 else 0
  let w := subW s - 12 - r
  let map := rf s (chBase 0) 13 12
  if map = 0 then
    { rank := h / 2 ^ (12 + w) % 2 ^ r, bg := bits h (9 + w) (7 + w), ba := bits h (11 + w) (10 + w), row := bits h (6 + w) 7, col := bits h 6 0 }
  else
    let row := bits h (11 + r + w) (12 + r)
    let x := if map = 1 then 0 else row
    { rank := h / 2 ^ 12 % 2 ^ r, bg := bits h 9 7 ^^^ bits x 2 0, ba := bits h 11 10 ^^^ bits x 4 3, row := row, col := bits h 6 0 }

/-- A DRAM bank by number: 32 × rank + 4 × group + bank. -/
def bankNo (x : Burst) : Nat := 32 * x.rank + 4 * x.bg + x.ba

/-! ### Requests to DRAM (R177, R184, R185) -/

/-- Scrub writes of granules in [a, a + n) that still wait are cancelled by another write (R184). -/
def cancelScrub (a n : Nat) (s : State) : State :=
  let hit (r : DReq) : Bool := r.by_ == .scrubWrite && decide (r.addr < a + n) && decide (a < r.addr + 64)
  { s with dram := { s.dram with subs := s.dram.subs.map fun p => (p.1, { p.2 with reqs := p.2.reqs.filter fun r => !hit r }) } }

/-- An entry of self-refresh is ordered and its SRE not yet issued (R185). -/
def entersSr (x : SubCh) : Bool := match x.sr with | .entering _ => true | _ => false

/-- A subchannel takes a request (R185, R367). -/
def takeReq (now : Nat) (r : DReq) (x : SubCh) : SubCh :=
  { x with reqs := x.reqs ++ [r], lastReq := now, ppd := false, sr := if entersSr x then .awake else x.sr }

/-- A request reaches its subchannel. It ends precharge power-down (R367); it aborts an entry of self-refresh whose SRE is not yet issued, which
counts (R185); a write cancels a scrub write of its granule that waits (R184). -/
def addReq (a cls : Nat) (data : Option (List Byte)) (by_ : ReqBy) (s : State) : State :=
  let sc := subOf s a
  let s1 := if data.isSome && by_ != .scrubWrite then cancelScrub (a / 64 * 64) 64 s else s
  let x := sub s1 sc
  let r : DReq := { arr := s1.dram.arr, addr := a, cls := cls, at_ := nowT s1, promoted := false, data := data, by_ := by_ }
  let s2 := setSub sc (takeReq (nowT s1) r x) { s1 with dram := { s1.dram with arr := s1.dram.arr + 1 } }
  if entersSr x then count (subCtr sc 15) s2 else s2

/-- The granules of [a, a + n). -/
def gransOf (a n : Nat) : List Nat := (List.range (ceilDiv (a % 64 + n) 64)).map fun i => a / 64 * 64 + 64 * i

/-- A read of granules begins: one request of class `cls` for each of them (R177). -/
def readGrans (grans : List Nat) (cls : Nat) (by_ : ReadBy) (s : State) : State :=
  let id := s.dram.ids
  let d : DRead := { id := id, grans := grans, left := grans.length, got := [], bad := [], by_ := by_ }
  let s1 := { s with dram := { s.dram with ids := id + 1, reads := s.dram.reads ++ [d] } }
  grans.foldl (fun t a => addReq a cls none (.part id) t) s1

/-- Bytes of DRAM. -/
def dramPut (a : Nat) (bs : List Byte) (s : State) : State := { s with dram := { s.dram with mem := memPut s.dram.mem a bs } }
def dramTake (s : State) (a n : Nat) : List Byte := memTake s.dram.mem a n

/-! ### Journal (R153 to R157, R401) -/

/-- The CAPTURE end reason code (R154). -/
def reasonCode (r : EndReason) : Nat :=
  match r with | .count => 1 | .stop => 2 | .fullstop => 3 | .reset => 4 | .trip => 5 | .machineCheck => 6

/-- All ones, 64 bits. -/
def ones64 : Nat := 2 ^ 64 - 1

/-- JTYPE and body bytes 16 to 55 (R154). -/
def jbodyBytes (b : JBody) : Nat × List Byte :=
  match b with
  | .accept ring op tag idx origin =>
    (1, leBytes 2 ring ++ leBytes 2 op ++ leBytes 4 tag.toNat ++ leBytes 8 idx ++ leBytes 8 origin)
  | .complete ring st tag x0 x1 x2 origin _ =>
    (2, leBytes 2 ring ++ leBytes 2 st ++ leBytes 4 tag.toNat ++ leBytes 8 x0.toNat ++ leBytes 8 x1.toNat ++
      leBytes 8 x2.toNat ++ leBytes 8 (origin.getD ones64))
  | .progress ring tag amount origin =>
    (3, leBytes 2 ring ++ leBytes 2 0 ++ leBytes 4 tag.toNat ++ leBytes 8 amount.toNat ++ leBytes 8 origin)
  | .commit st d =>
    (4, leBytes 1 st ++ leBytes 3 0 ++ leBytes 4 d.segno ++ leBytes 8 (d.seq.getD ones64) ++ leBytes 8 d.next ++ leBytes 8 d.through)
  | .capture ended reason tag tick =>
    (5, leBytes 1 (if ended then 2 else 1) ++ leBytes 1 ((reason.map reasonCode).getD 0) ++ leBytes 2 0 ++ leBytes 4 tag.toNat ++ leBytes 8 tick)
  | .reset k => (6, leBytes 1 k)

/-- The 64 bytes of a journal entry (R153). -/
def jentryBytes (e : JEntry) : List Byte :=
  let b := jbodyBytes e.body
  let head := leBytes 8 (e.jseq * 2 ^ 16 + b2n e.carry * 2 ^ 8 + b.1) ++ leBytes 8 e.tick ++ padTo 40 b.2 ++ leBytes 4 0
  head ++ leBytes 4 (crc32c head)

/-- Entries of the journal copies, and of the on-chip hold (R153, R401). -/
def journalSize : Nat := 4194304
def holdSize : Nat := 16384

/-- The size of the log in use and the distance at which it examines old entries (R156, R401). -/
def jSize (s : State) : Nat := if s.jr.inForce then journalSize else holdSize
def jDist (s : State) : Nat := if s.jr.inForce then 65536 else 1024

/-- The log holds one more entry, at its write position (R153, R401). -/
def logEntry (e : JEntry) (s : State) : State :=
  { s with jr := { s.jr with next := (s.jr.next + 1) % 2 ^ 48, pos := (s.jr.pos + 1) % jSize s,
                             entries := (s.jr.pos, e) :: s.jr.entries.filter fun x => x.1 != s.jr.pos } }

/-- The order of the COMMIT entries of a stream: none before the first record (R155). -/
def commitKey (c : CommitDue) : Nat := match c.seq with | some q => q + 1 | none => 0

/-- A stream with its COMMIT entry, unless a later one is committed already. -/
def noteCommit (d : CommitDue) (x : Stream) : Stream :=
  match x.commit with
  | some c => if commitKey c ≤ commitKey d then { x with commit := some d } else x
  | none => { x with commit := some d }

/-- What a committed journal entry makes true: a COMMIT entry names the records of its stream that are committed (R155). -/
def entryDone (b : JBody) (s : State) : State :=
  match b with
  | .commit i d => setStrm i (noteCommit d (strm s i)) s
  | _ => s

/-- Write one entry at the write position: while a journal is in force two SC1 writes, one of each copy, reach their subchannels, and the entry is
committed when both are done; in the on-chip hold it is committed at once (R153, R401). -/
def jwrite (carry : Bool) (body : JBody) (s : State) : State :=
  let e : JEntry := { jseq := s.jr.next, carry := carry, tick := s.tb.tick, body := body }
  let s1 := logEntry e s
  if s.jr.inForce then
    let a := journalBase s + 64 * s.jr.pos
    let s2 := { s1 with jr := { s1.jr with wait := s1.jr.wait ++ [{ jseq := e.jseq, left := 2, body := body }] } }
    addReq (a + 2 ^ 28) 1 (some (jentryBytes e)) (.journal e.jseq) (addReq a 1 (some (jentryBytes e)) (.journal e.jseq) s2)
  else entryDone body s1

/-- The ACCEPT of a command that has not completed at the position the write position will reach (R156). -/
def jExamined (s : State) (w : Nat) : Option JBody :=
  match s.jr.entries.find? fun x => x.1 == (w + jDist s) % jSize s with
  | some (_, { body := .accept ring op tag idx origin, .. }) =>
    if s.cmds.any fun c => c.origin == origin then some (.accept ring op tag idx origin) else none
  | _ => none

/-- Write an entry and carry the ACCEPTs it examines (R156). Each command open can be carried at most once in a row. -/
def jcarry (fuel : Nat) (carry : Bool) (body : JBody) (s : State) : State :=
  match fuel with
  | 0 => jwrite carry body s
  | f + 1 =>
    let s1 := jwrite carry body s
    match jExamined s1 s.jr.pos with
    | none => s1
    | some b => jcarry f true b (setSource (srcCap 12) s1)

/-- Commit a journal entry (R155, R156). -/
def jcommit (body : JBody) (s : State) : State := jcarry s.cmds.length false body s

/-! ### Opcodes (R251) -/

def opNop : Nat := 0x0001
def opIdentify : Nat := 0x0010
def opInventory : Nat := 0x0011
def opPopulationSet : Nat := 0x0020
def opDramTrain : Nat := 0x0021
def opLaneSet : Nat := 0x0030
def opLinkTrain : Nat := 0x0031
def opTimebaseSet : Nat := 0x0040
def opConjunction : Nat := 0x0041
def opTimebaseRealign : Nat := 0x0042
def opPlanLoad : Nat := 0x0050
def opPlanAdmit : Nat := 0x0051
def opPlanRelease : Nat := 0x0052
def opArm : Nat := 0x0060
def opForceTrigger : Nat := 0x0061
def opStop : Nat := 0x0062
def opDisarm : Nat := 0x0063
def opStreamOpen : Nat := 0x0070
def opStreamClose : Nat := 0x0071
def opJobSearch : Nat := 0x0080
def opJobExtract : Nat := 0x0081
def opJobCompress : Nat := 0x0082
def opJobDecompress : Nat := 0x0083
def opJobVerify : Nat := 0x0084
def opMarchRun : Nat := 0x0090
def opScrubSet : Nat := 0x0091
def opCounterSnapshot : Nat := 0x00A0
def opTraceSet : Nat := 0x00A1
def opPowerState : Nat := 0x00B0
def opThermalProfile : Nat := 0x00B1
def opPatchLoad : Nat := 0x00C0
def opCustodyGrant : Nat := 0x00C1
def opCustodyRelease : Nat := 0x00C2
def opRingCreate : Nat := 0x00D0
def opRingDestroy : Nat := 0x00D1
def opRingResume : Nat := 0x00D2

/-- The opcodes of R251. -/
def opcodes : List Nat :=
  [opNop, opIdentify, opInventory, opPopulationSet, opDramTrain, opLaneSet, opLinkTrain, opTimebaseSet, opConjunction,
   opTimebaseRealign, opPlanLoad, opPlanAdmit, opPlanRelease, opArm, opForceTrigger, opStop, opDisarm, opStreamOpen,
   opStreamClose, opJobSearch, opJobExtract, opJobCompress, opJobDecompress, opJobVerify, opMarchRun, opScrubSet,
   opCounterSnapshot, opTraceSet, opPowerState, opThermalProfile, opPatchLoad, opCustodyGrant, opCustodyRelease,
   opRingCreate, opRingDestroy, opRingResume]

/-- Open-area opcodes (R250). -/
def isOpenArea (op : Nat) : Bool := decide (0x200 ≤ op) && decide (op < 0x300)

/-- The long commands (R246). -/
def isLong (op : Nat) : Bool :=
  isOpenArea op || [opLinkTrain, opDramTrain, opConjunction, opArm, opJobSearch, opJobExtract, opJobCompress, opJobDecompress,
    opJobVerify, opMarchRun].contains op

/-! ### Command contexts (R288, R298) -/

/-- Sequencers. -/
def sq (s : State) (q : Nat) : Seqr := tblGet s.seqs q Seqr.reset
def setSq (q : Nat) (x : Seqr) (s : State) : State := { s with seqs := tblSet s.seqs q x }

/-- The JSQ of a quadrant (R286). -/
def jsqOf (d : Nat) : Nat := 4 + 6 * d + 5

/-- Whether a command has a context. -/
def contextOf (o : Nat) (x : Seqr) : Bool := x.ctxs.any fun c => c.origin == some o

/-- Whether a sequencer executes words of a routine. -/
def inRoutine (x : Seqr) : Bool := x.state == .run || x.state == .wait || x.state == .handler

/-- The registers from which a routine starts: W0 the first 8 bytes of the entry, W1 to W3 zero, W8 to W14 the parameters, CTX the command's
context, PC the first word (R288, R297). -/
def loadRegs (now : Nat) (c : QCmd) (x : Seqr) : Seqr :=
  let w := (List.range 32).map fun i =>
    if i = 0 then c.opword else if i < 4 then 0#64 else if 8 ≤ i ∧ i < 15 then nth c.params (i - 8) 0#64 else nth x.w i 0#64
  { x with pc := c.entryPc, ctx := ((List.range 4).find? fun i => (nth x.ctxs i Ctx.reset).origin == some c.origin).getD 0,
           w := w, sinceCmt := now, wdogHit := false, pubs := [] }

/-- The lowest free context; that of a routine that goes on after its command has ended is not free. -/
def freeIdx (x : Seqr) : Option Nat :=
  (List.range 4).find? fun i => (nth x.ctxs i Ctx.reset).origin.isNone && !(inRoutine x && x.ctx == i)

/-- Commands that DSQ holds take the free contexts, oldest first (R298); one that its meaning carries out then starts. (DESIGN CHOICE: log entry 50.) -/
def allot (fuel now : Nat) (x : Seqr) : Seqr :=
  match fuel with
  | 0 => x
  | f + 1 =>
    match x.queue.find? fun c => !contextOf c.origin x, freeIdx x with
    | some c, some i =>
      let y := { x with ctxs := putNth x.ctxs i { Ctx.reset with origin := some c.origin } }
      allot f now (if c.kind = .native then
        { (if inRoutine y then y else loadRegs now c y) with queue := y.queue.filter fun k => k.origin != c.origin } else y)
    | _, _ => x

/-- The jobs that have a context run (R262, R298). -/
def syncJobs (s : State) : State :=
  { s with jobs := s.jobs.map fun j => { j with running := j.running || contextOf j.origin (sq s (jsqOf j.quad)) } }

/-- Whether a command has a context or a place in the queue. -/
def heldBy (o : Nat) (x : Seqr) : Bool := contextOf o x || x.queue.any fun c => c.origin == o

/-- What a sequencer held for a command is free again. -/
def freeOf (o now : Nat) (x : Seqr) : Seqr :=
  if heldBy o x then
    allot 4 now { x with ctxs := x.ctxs.map fun c => if c.origin = some o then Ctx.reset else c, queue := x.queue.filter fun c => c.origin != o }
  else x

/-- A command has ended: its contexts are free, and its places in queues. -/
def releaseCtx (o : Nat) (s : State) : State :=
  if (s.seqs.any fun p => heldBy o p.2) then syncJobs { s with seqs := s.seqs.map fun p => (p.1, freeOf o s.tb.time p.2) } else s

/-! ### Status codes (R253) and the ends of commands -/

def stDone : Nat := 0x0000
def stDoneZero : Nat := 0x0001
def stAccepted : Nat := 0x0002
def stBadOpcode : Nat := 0x0101
def stBadParam : Nat := 0x0102
def stNotPrivileged : Nat := 0x0103
def stBusy : Nat := 0x0104
def stPlanBandwidth : Nat := 0x0110
def stPlanLatency : Nat := 0x0111
def stPlanBuffer : Nat := 0x0112
def stPlanThermal : Nat := 0x0113
def stPlanAutomaton : Nat := 0x0114
def stPlanCheck : Nat := 0x0115
def stPlanPcie : Nat := 0x0116
def stOutputFull : Nat := 0x0201
def stVerifyMismatch : Nat := 0x0202
def stCheckFail : Nat := 0x0203
def stHostReadTimeout : Nat := 0x0204
def stAborted : Nat := 0x0205
def stMachineCheck : Nat := 0x0206
def stThermalTrip : Nat := 0x0207
def stBusMasterOff : Nat := 0x0208

/-- The CMP ring of a SUB ring. -/
def pairOf (s : State) (r : Nat) : Nat := match ring? s r with | some x => x.pair | none => 0

/-- Whether journal entry `a` was formed before the entry whose JSEQ will be `b` (R153). -/
def jBefore (a b : Nat) : Bool := let d := (b + 2 ^ 48 - a) % 2 ^ 48; decide (0 < d) && decide (d < 2 ^ 47)

/-- Post the completions whose journal entries are committed, in order (R155). -/
def releaseOut (os : List JOut) (s : State) : State :=
  match os with
  | [] => s
  | o :: rest =>
    if s.jr.wait.any fun w => jBefore w.jseq o.gate then s
    else releaseOut rest (postEntry o.ring o.entry { s with jr := { s.jr with out := rest } })

/-- One copy of a journal entry is written: with both it is committed (R153). -/
def jwritten (j : Nat) (s : State) : State :=
  match s.jr.wait.find? fun w => w.jseq == j with
  | none => s
  | some w =>
    if 1 < w.left then { s with jr := { s.jr with wait := s.jr.wait.map fun v => if v.jseq = j then { v with left := v.left - 1 } else v } }
    else
      let s1 := entryDone w.body { s with jr := { s.jr with wait := s.jr.wait.filter fun v => v.jseq != j } }
      releaseOut s1.jr.out s1

/-- Post a completion to the CMP ring paired with a SUB ring (R245), once the journal entries formed so far are committed (R155). With the SUB ring gone
nothing is posted (R25). -/
def postCpl (r : Nat) (tag : W32) (status : Nat) (final : Bool) (x0 x1 x2 : W64) (s : State) : State :=
  match ring? s r with
  | none => s
  | some x =>
    let e := RingEntry.cpl tag status final x0 x1 x2
    if s.jr.wait.isEmpty && s.jr.out.isEmpty then postEntry x.pair e s
    else { s with jr := { s.jr with out := s.jr.out ++ [{ gate := s.jr.next, ring := x.pair, entry := e }] } }

/-- CAPEVT1 bits of an ending (R261): a failure code sets CMDFAIL, ABORTED sets CMDABORT too (log entry 18). -/
def endEvents (status : Nat) (s : State) : State :=
  let s1 := if 0x0201 ≤ status then setSource (srcCap1 1) s else s
  if status = stAborted then setSource (srcCap1 2) s1 else s1

/-- An open command by its ORIGIN. -/
def cmd? (s : State) (origin : Nat) : Option Cmd := s.cmds.find? fun c => c.origin == origin

/-- Replace an open command. -/
def setCmd (c : Cmd) (s : State) : State :=
  { s with cmds := s.cmds.map fun x => if x.origin = c.origin then c else x }

/-- Statuses with which the engine ends a command without a commit word of its routine (R303). -/
def engineEnds (status : Nat) : Bool :=
  [stHostReadTimeout, stAborted, stMachineCheck, stThermalTrip, stBusMasterOff].contains status

/-- End an open command: the COMPLETE entry is committed, then the final completion posted, unless a reset has cleared its ring, and the command
is gone (R25, R155). (DEDUCED: log entry 56.) -/
def finishCmd (origin status : Nat) (x0 x1 x2 : W64) (s : State) : State :=
  match cmd? s origin with
  | none => s
  | some c =>
    let s0 := if isLong c.opcode || engineEnds status then s else count (sqCtr c.home 5) s
    let s1 := jcommit (.complete c.ring status c.tag x0 x1 x2 (some origin) c.opcode) s0
    let s2 := if c.lost then s1 else postCpl c.ring c.tag status true x0 x1 x2 s1
    endEvents status (releaseCtx origin { s2 with cmds := s2.cmds.filter fun x => x.origin != origin })

/-- A context has passed a commit point: its watchdog starts again (R309), and its results enter C0 to C2 (R301). -/
def passCommit (o now : Nat) (x0 x1 x2 : W64) (x : Seqr) : Seqr :=
  if contextOf o x then
    { x with sinceCmt := now, wdogHit := false,
             ctxs := x.ctxs.map fun c => if c.origin = some o then { c with c0 := x0, c1 := x1, c2 := x2 } else c }
  else x

/-- A commit word of a long command's routine: results enter C0 to C2 and PROGRESS is committed with C0 (R301). The final commit word of
a short command is counted where the command ends. (DEDUCED, DESIGN CHOICE: log entries 50 and 56.) -/
def commitWord (origin : Nat) (x0 x1 x2 : W64) (s : State) : State :=
  match cmd? s origin with
  | none => s
  | some c =>
    let s1 := { s with seqs := s.seqs.map fun p => (p.1, passCommit origin s.tb.time x0 x1 x2 p.2) }
    jcommit (.progress c.ring c.tag x0 origin) (setCmd { c with c0 := x0, c1 := x1, c2 := x2 } (count (sqCtr c.home 5) s1))

/-- A long command ends at a final commit word (R301): PROGRESS, then COMPLETE and the completion. -/
def finishLong (origin status : Nat) (x0 x1 x2 : W64) (s : State) : State :=
  finishCmd origin status x0 x1 x2 (commitWord origin x0 x1 x2 s)

/-- The engine ends a command with its committed results (R303). -/
def endBy (origin status : Nat) (s : State) : State :=
  match cmd? s origin with
  | none => s
  | some c => finishCmd origin status c.c0 c.c1 c.c2 s

/-- An open command by opcode. -/
def openOp (s : State) (op : Nat) : Option Cmd := s.cmds.find? fun c => c.opcode == op

/-- Lanes: state beside registers. -/
def lane (s : State) (n : Nat) : LaneSt := tblGet s.lanes n LaneSt.reset
def setLane (n : Nat) (x : LaneSt) (s : State) : State := { s with lanes := tblSet s.lanes n x }

/-- The frame a lane transmits. (DESIGN CHOICE: log entry 6.) -/
def sendFrame (n : Nat) (f : TxFrame) (s : State) : State := { s with sent := (n, f) :: s.sent }

end Sys2Proof.Machine
end

