-- ==== Sys2Proof/Machine/Codec.lean ====
section
/-! DEFINITION. The block codec (R272 to R278): STORED, XRUN and PLANE bodies, their decoders, block headers and the trailer. -/

namespace Sys2Proof.Machine

/-- The little-endian 64-bit words of a block, a short last one padded with zeros (R273). -/
def words64 (bs : List Byte) : List Nat :=
  (List.range (ceilDiv bs.length 8)).map fun i => leVal ((bs.drop (8 * i)).take 8)

/-- The bytes of words, cut to `n` (R273). -/
def unwords64 (ws : List Nat) (n : Nat) : List Byte := (ws.flatMap fun w => leBytes 8 w).take n

/-- Unsigned LEB128 (R274); 10 groups of 7 bits hold 64 bits. -/
def leb128 (fuel v : Nat) : List Byte :=
  match fuel with
  | 0 => []
  | f + 1 => if v < 128 then [BitVec.ofNat 8 v] else BitVec.ofNat 8 (128 + v % 128) :: leb128 f (v / 128)

/-- Read one LEB128 value: the value and the rest. -/
def unleb128 (fuel : Nat) (bs : List Byte) : Option (Nat × List Byte) :=
  match fuel, bs with
  | 0, _ => none
  | _, [] => none
  | f + 1, b :: rest =>
    if b.toNat < 128 then some (b.toNat, rest)
    else match unleb128 f rest with
      | none => none
      | some (v, r) => some (b.toNat - 128 + 128 * v, r)

/-- The differences dᵢ of XRUN (R274). -/
def xorDeltas (prev : Nat) (ws : List Nat) : List Nat :=
  match ws with
  | [] => []
  | w :: rest => (w ^^^ prev) :: xorDeltas w rest

/-- Group differences into maximal runs: (are they zero, the words). -/
def xrunGroups (ds : List Nat) : List (Bool × List Nat) :=
  match ds with
  | [] => []
  | d :: rest =>
    match xrunGroups rest with
    | [] => [(d == 0, [d])]
    | (z, g) :: gs => if z == (d == 0) then (z, d :: g) :: gs else (d == 0, [d]) :: (z, g) :: gs

/-- The XRUN body (R274). -/
def xrunBody (bs : List Byte) : List Byte :=
  (xrunGroups (xorDeltas 0 (words64 bs))).flatMap fun g =>
    if g.1 then leb128 10 (2 * (g.2.length - 1)) else leb128 10 (2 * (g.2.length - 1) + 1) ++ g.2.flatMap fun d => leBytes 8 d

/-- Decode XRUN tokens into exactly `left` words ending exactly at the body's end (R274). -/
def unxrun (fuel left prev : Nat) (bs : List Byte) : Option (List Nat) :=
  match fuel with
  | 0 => none
  | f + 1 =>
    if left = 0 then (if bs.isEmpty then some [] else none)
    else match unleb128 10 bs with
      | none => none
      | some (h, rest) =>
        let n := h / 2 + 1
        if left < n then none
        else if h % 2 = 0 then (unxrun f (left - n) prev rest).map fun t => List.replicate n prev ++ t
        else if rest.length < 8 * n then none
        else
          let ds := words64 (rest.take (8 * n))
          let ws := (ds.foldl (fun (p : Nat × List Nat) d => (p.1 ^^^ d, (p.1 ^^^ d) :: p.2)) (prev, [])).2.reverse
          (unxrun f (left - n) (ws.getLastD prev) (rest.drop (8 * n))).map fun t => ws ++ t

/-- Toggle positions of a plane after position `i`, given the last bit (R275). -/
def planeToggles (i : Nat) (last : Bool) (ws : List Nat) (j : Nat) : List Nat :=
  match ws with
  | [] => []
  | w :: rest => if bit w j == last then planeToggles (i + 1) last rest j else i :: planeToggles (i + 1) (!last) rest j

/-- Gaps between successive positions (R275). -/
def gapsOf (prev : Nat) (ps : List Nat) : List Nat :=
  match ps with
  | [] => []
  | p :: rest => (p - prev) :: gapsOf p rest

/-- The PLANE body (R275). -/
def planeBody (bs : List Byte) : List Byte :=
  let ws := words64 bs
  let x0 := ws.headD 0
  let togg := (List.range 64).map fun j => planeToggles 1 (bit x0 j) (ws.drop 1) j
  let present := numsWhere 64 fun j => bit x0 j || !(togg.getD j []).isEmpty
  leBytes 8 (maskOfList present) ++ leBytes 8 x0 ++
    present.flatMap fun j =>
      let t := togg.getD j []
      leb128 10 t.length ++ (gapsOf 0 t).flatMap fun g => leb128 10 g

/-- Read `k` LEB128 gaps, each at least 1, as toggle positions below `w`. -/
def ungaps (k prev w : Nat) (bs : List Byte) : Option (List Nat × List Byte) :=
  match k with
  | 0 => some ([], bs)
  | n + 1 =>
    match unleb128 10 bs with
    | none => none
    | some (g, rest) =>
      if g = 0 ∨ w ≤ prev + g then none
      else (ungaps n (prev + g) w rest).map fun p => ((prev + g) :: p.1, p.2)

/-- Decode the present planes in ascending order: the toggle positions of each (R275). -/
def unplanes (js : List Nat) (w : Nat) (bs : List Byte) : Option (List (Nat × List Nat)) :=
  match js with
  | [] => if bs.isEmpty then some [] else none
  | j :: rest =>
    match unleb128 10 bs with
    | none => none
    | some (k, r) =>
      if w ≤ k then none
      else match ungaps k 0 w r with
        | none => none
        | some (ps, r2) => (unplanes rest w r2).map fun t => (j, ps) :: t

/-- Decode a PLANE body into `w` words (R275); INIT bits of absent planes are 0. -/
def unplane (w : Nat) (bs : List Byte) : Option (List Nat) :=
  if bs.length < 16 then none
  else
    let present := leVal (bs.take 8)
    let init := leVal ((bs.drop 8).take 8)
    if init &&& (2 ^ 64 - 1 - present) ≠ 0 then none
    else match unplanes (numsWhere 64 fun j => bit present j) w (bs.drop 16) with
      | none => none
      | some tg =>
        some ((List.range w).map fun i =>
          maskOfList ((tg.filter fun p => (bit init p.1) != (((p.2.filter fun x => decide (x ≤ i)).length) % 2 == 1)).map fun p => p.1))

/-- The coded body and its mode: the shortest of the three, the lower MODE on a tie (R276). -/
def codeBody (bs : List Byte) : Nat × List Byte :=
  let x := xrunBody bs
  let p := planeBody bs
  let best := if x.length < bs.length then (1, x) else (0, bs)
  if p.length < best.2.length then (2, p) else best

/-- Decode a body of `ulen` bytes (R273 to R275). -/
def decodeBody (mode ulen : Nat) (body : List Byte) : Option (List Byte) :=
  let w := ceilDiv ulen 8
  if mode = 0 then (if body.length = ulen then some body else none)
  else if mode = 1 then (unxrun (body.length + 1) w 0 body).map fun ws => unwords64 ws ulen
  else if mode = 2 then (unplane w body).map fun ws => unwords64 ws ulen
  else none

/-- A block: header and body (R272). -/
def blockBytes (mode : Nat) (body raw : List Byte) : List Byte :=
  [0x01, BitVec.ofNat 8 mode] ++ leBytes 2 body.length ++ leBytes 4 (crc32c raw) ++ leBytes 8 0 ++ body

/-- The block that the coder writes for an uncoded block; when its shadow decode disagrees a BLOCK record falls back to STORED (R141). -/
def codeBlock (raw : List Byte) (stored : Bool) : List Byte :=
  let c := codeBody raw
  if stored then blockBytes 0 raw raw else blockBytes c.1 c.2 raw

/-- The trailer (R278). -/
def trailerBytes (len nblk jcrc jtag : Nat) : List Byte :=
  [0x02] ++ leBytes 7 0 ++ leBytes 8 len ++ leBytes 8 nblk ++ leBytes 8 jcrc ++ leBytes 4 jtag ++ leBytes 28 0

/-- The output bound of R279. -/
def codedBound (len : Nat) : Nat := ceilDiv len 4096 * 4112 + 64

/-- What a decoder finds at one header (R278, R282). -/
inductive BlockScan where
  | block (mode clen bcrc : Nat)
  | trailer
  | bad
  deriving DecidableEq, Repr

/-- Read a header of 16 bytes (R272, R282 cause 1). -/
def scanHeader (h : List Byte) : BlockScan :=
  let b0 := leVal (h.take 1)
  let mode := leVal ((h.drop 1).take 1)
  let clen := leVal ((h.drop 2).take 2)
  if b0 = 2 then .trailer
  else if b0 = 1 ∧ mode ≤ 2 ∧ 1 ≤ clen ∧ clen ≤ 4096 ∧ leVal ((h.drop 8).take 8) = 0 ∧ h.length = 16 then
    .block mode clen (leVal ((h.drop 4).take 4))
  else .bad

/-- One failed decode check: the block index and the cause (R282). -/
structure DecodeFail where
  index : Nat
  cause : Nat
  deriving DecidableEq, Repr

/-- Walk headers to the trailer: the blocks' offsets, modes and lengths, and the trailer's offset (R278). -/
def walkBlocks (fuel i off : Nat) (bs : List Byte) : Except DecodeFail (List (Nat × Nat × Nat × Nat) × Nat) :=
  match fuel with
  | 0 => .error { index := i, cause := 4 }
  | f + 1 =>
    if bs.length ≤ off then .error { index := i, cause := 4 }
    else match scanHeader ((bs.drop off).take 16) with
      | .bad => .error { index := i, cause := if bs.length < off + 16 then 4 else 1 }
      | .trailer => .ok ([], off)
      | .block mode clen bcrc =>
        match walkBlocks f (i + 1) (off + 16 + clen) bs with
        | .error e => .error e
        | .ok (l, t) => .ok ((off, mode, clen, bcrc) :: l, t)

/-- The first block, in stream order and before any header that fails, of which the source reads poisoned: `bad` says so of a range of the source
(R282 cause 7). -/
def poisonBlock (bad : Nat → Nat → Bool) (fuel i off : Nat) (bs : List Byte) : Option Nat :=
  match fuel with
  | 0 => none
  | f + 1 =>
    if bs.length ≤ off then none
    else if bad off 16 then some i
    else match scanHeader ((bs.drop off).take 16) with
      | .bad => none
      | .trailer => if bad off 64 then some i else none
      | .block _ clen _ => if bad off (16 + clen) then some i else poisonBlock bad f (i + 1) (off + 16 + clen) bs

/-- ULEN of block i of a job (R273). -/
def jobUlen (len i : Nat) : Nat := min (4096 * (i + 1)) len - 4096 * i

/-- Decode every block in order (R282 causes 2 and 3). -/
def decodeBlocks (i len : Nat) (bs : List Byte) (l : List (Nat × Nat × Nat × Nat)) : Except DecodeFail (List Byte) :=
  match l with
  | [] => .ok []
  | (off, mode, clen, bcrc) :: rest =>
    let body := (bs.drop (off + 16)).take clen
    match decodeBody mode (jobUlen len i) body with
    | none => .error { index := i, cause := 2 }
    | some raw =>
      if body.length ≠ clen then .error { index := i, cause := 2 }
      else if crc32c raw ≠ bcrc then .error { index := i, cause := 3 }
      else match decodeBlocks (i + 1) len bs rest with
        | .error e => .error e
        | .ok t => .ok (raw ++ t)

/-- Decode a whole coded stream with every check of R282: the output, or the first failure. -/
def decodeStream (bs : List Byte) : Except DecodeFail (Nat × Nat × List Byte) :=
  match walkBlocks (bs.length + 1) 0 0 bs with
  | .error e => .error e
  | .ok (l, t) =>
    let tr := (bs.drop t).take 64
    let len := leVal ((tr.drop 8).take 8)
    let nblk := leVal ((tr.drop 16).take 8)
    match decodeBlocks 0 len bs l with
    | .error e => .error e
    | .ok out =>
      if tr.length ≠ 64 ∨ t + 64 ≠ bs.length ∨ leVal ((tr.drop 1).take 7) ≠ 0 ∨ leVal (tr.drop 36) ≠ 0 then
        .error { index := nblk, cause := 4 }
      else if nblk ≠ l.length ∨ nblk ≠ ceilDiv len 4096 then .error { index := nblk, cause := 5 }
      else if crc64 0 out ≠ leVal ((tr.drop 24).take 8) then .error { index := nblk, cause := 6 }
      else .ok (len, nblk, out)

end Sys2Proof.Machine
end

