-- ==== Sys2Proof/Machine/Flags.lean ====
section
/-! DEFINITION. Flag computations: which event bits are errors and which unit reports them (R403, R352), and the flags and results
of the sequencers' ALU (R292). -/

namespace Sys2Proof.Machine

/-- The event bits that are errors under R11 (R403). -/
def isError (n : Nat) : Bool :=
  if n < 33 then n == 16 + 6 || n == 16 + 7 || n == 16 + 8 || n == 16 + 1 || n == 16 + 2
  else if n < 40 then n == 33 || n == 38 || n == 39
  else if n < 136 then (n - 40) % 4 != 1
  else if n < 152 then n == 140
  else if n < 248 then (n - 152) % 8 == 0 || (n - 152) % 8 == 1 || (n - 152) % 8 == 3
  else if n < 256 then n == 249 || n == 250 || n == 252
  else if n < 480 then decide ((n - 256) % 8 < 4)
  else if n < 536 then (n - 480) % 7 == 0 || (n - 480) % 7 == 1 || (n - 480) % 7 == 4
  else if n < 1560 then (n - 536) % 8 == 5 || (n - 536) % 8 == 3 || (n - 536) % 8 == 1 || (n - 536) % 8 == 6
  else if n < 1592 then true
  else if n < 1632 then (n - 1592) % 5 != 0
  else if n < 1664 then (n - 1632) % 8 == 5 || (n - 1632) % 8 == 3 || (n - 1632) % 8 == 1 || (n - 1632) % 8 == 6
  else if n < 1696 then decide ((n - 1664) % 8 < 7)
  else if n < 1728 then (n - 1696) % 8 == 3 || (n - 1696) % 8 == 4 || (n - 1696) % 8 == 5
  else n == 1728 + 13

/-- UNIT of an error log entry: the offset of the reporting unit's register block divided by 0x400 (R352). -/
def errUnit (n : Nat) : Nat :=
  (if n < 16 then 0
   else if n < 33 then 0x10000
   else if n < 40 then 0x40000
   else if n < 152 then 0x50000
   else if n < 256 then 0x60000
   else if n < 480 then sqBase ((n - 256) / 8)
   else if n < 536 then chBase ((n - 480) / 7)
   else if n < 1560 then laneBase ((n - 536) / 8)
   else if n < 1592 then clBase ((n - 1560) / 2)
   else if n < 1632 then taBase ((n - 1592) / 5)
   else if n < 1664 then laneBase (128 + (n - 1632) / 8)
   else if n < 1696 then chBase (2 * ((n - 1664) / 8))
   else if n < 1728 then cxBase ((n - 1696) / 8)
   else 0x180000) / 0x400

/-- Write one entry of the chip error log and set GLBEVT.ERRLOG (R352). -/
def logError (n detail : Nat) (s : State) : State :=
  let idx := (reg s 0x30).toNat
  let e : ErrEntry := { tick := s.tb.tick, cause := n, unit := errUnit n, index := idx, detail := detail }
  setSource 5 (setReg 0x30 (BitVec.ofNat 32 (idx + 1)) { s with errlog := tblSet s.errlog (idx % 256) e })

/-! ### Sequencer ALU (R292) -/

/-- Flags as bits 3 to 0: Z, N, C, V. -/
def packFlags (z n c v : Bool) : BitVec 4 := BitVec.ofNat 4 (8 * b2n z + 4 * b2n n + 2 * b2n c + b2n v)

def flagZ (f : BitVec 4) : Bool := bit f.toNat 3
def flagN (f : BitVec 4) : Bool := bit f.toNat 2
def flagC (f : BitVec 4) : Bool := bit f.toNat 1
def flagV (f : BitVec 4) : Bool := bit f.toNat 0

/-- Number of ones. -/
def popCount (v : W64) : Nat := ((List.range 64).filter fun i => v.getLsbD i).length

/-- Leading zeros. -/
def leadingZeros (v : W64) : Nat := ((List.range 64).takeWhile fun i => !v.getLsbD (63 - i)).length

/-- Result, carry and overflow of a + b + c. -/
def addCV (a b : W64) (c : Bool) : W64 × Bool × Bool :=
  let n := a.toNat + b.toNat + b2n c
  let r := BitVec.ofNat 64 n
  (r, decide (2 ^ 64 ≤ n), (a.msb == b.msb) && (r.msb != a.msb))

/-- Result, borrow and overflow of a − b − c. -/
def subCV (a b : W64) (c : Bool) : W64 × Bool × Bool :=
  let r := a - b - BitVec.ofNat 64 (b2n c)
  (r, decide (a.toNat < b.toNat + b2n c), (a.msb != b.msb) && (r.msb != a.msb))

/-- What an ALU operation gives: the result, whether it is written (CMP writes nothing), and the flags. `fv` is a free value for
what R292 does not state: results of shifts by 64 or more, C and V of operations that are no sum or difference (log entry 14). (DESIGN CHOICE: log entry 7.) -/
def alu (op : Nat) (a b : W64) (f : BitVec 4) (fv : W64) : W64 × Bool × BitVec 4 :=
  let zn (r : W64) (c v : Bool) : BitVec 4 := packFlags (r == 0) r.msb c v
  let logic (r : W64) : W64 × Bool × BitVec 4 := (r, true, zn r (fv.getLsbD 0) (fv.getLsbD 1))
  let shift (r : W64) : W64 × Bool × BitVec 4 := logic (if b.toNat < 64 then r else fv)
  let cOf (borrow : Bool) : Bool := borrow == Config.carryIsBorrow
  let borrowIn : Bool := flagC f == Config.carryIsBorrow
  if op = 0x00 then (a, true, f)
  else if op = 0x01 then let x := addCV a b false; (x.1, true, zn x.1 x.2.1 x.2.2)
  else if op = 0x02 then let x := subCV a b false; (x.1, true, zn x.1 (cOf x.2.1) x.2.2)
  else if op = 0x03 then logic (a &&& b)
  else if op = 0x04 then logic (a ||| b)
  else if op = 0x05 then logic (a ^^^ b)
  else if op = 0x06 then shift (a <<< (b.toNat % 64))
  else if op = 0x07 then shift (a >>> (b.toNat % 64))
  else if op = 0x08 then shift (a.sshiftRight (b.toNat % 64))
  else if op = 0x09 then logic (a.rotateLeft (b.toNat % 64))
  else if op = 0x0A then logic (if a.toNat ≤ b.toNat then a else b)
  else if op = 0x0B then logic (if a.toNat ≤ b.toNat then b else a)
  else if op = 0x0C then let x := addCV a b (flagC f); (x.1, true, zn x.1 x.2.1 x.2.2)
  else if op = 0x0D then let x := subCV a b borrowIn; (x.1, true, zn x.1 (cOf x.2.1) x.2.2)
  else if op = 0x0E then let x := subCV a b false; (x.1, false, zn x.1 (cOf x.2.1) x.2.2)
  else if op = 0x0F then logic (BitVec.ofNat 64 (popCount a))
  else if op = 0x10 then logic (BitVec.ofNat 64 (leadingZeros a))
  else if op = 0x11 then logic (BitVec.ofNat 64 ((leBytes 8 b.toNat).foldl crc32Byte (a.toNat % 2 ^ 32)))
  else if op = 0x12 then logic (BitVec.ofNat 64 (crc64 a.toNat (leBytes 8 b.toNat)))
  else (b, true, f)

end Sys2Proof.Machine
end

