-- ==== Sys2Proof/Machine/Operands.lean ====
section
/-! DEFINITION. Operand forms: the sections of a plan image (R192 to R194), lane formats (R40), the fields of stream entries, tallies,
timers and actions, and the parameters, kinds and homes of the opcodes (R244, R251, R286). -/

namespace Sys2Proof.Machine

/-! ### Byte strings -/

/-- Little-endian field of an image. -/
def imLE (im : Image) (off n : Nat) : Nat := memLE im.bytes off n

/-- A part of an image as an image. -/
def imSlice (im : Image) (off n : Nat) : Image :=
  { len := n, bytes := (im.bytes.filter fun c => decide (off ≤ c.1) && decide (c.1 < off + n)).map fun c => (c.1 - off, c.2) }

/-- The bytes of an image. -/
def imBytes (im : Image) : List Byte := memTake im.bytes 0 im.len

/-! ### Lane formats (R40, R41) -/

/-- Channels N of a format. -/
def fmtN (f : Nat) : Nat := [16, 8, 4, 2, 1, 16].getD f 0

/-- Base period P0 in ticks. -/
def fmtP0 (f : Nat) : Nat := [16, 8, 4, 2, 1, 16].getD f 1

/-- STATE format code. -/
def fmtState : Nat := 5

/-- Whether a pair of FMT and RATEDIV is defined (R58, R201). -/
def fmtDefined (f k : Nat) : Bool := decide (f ≤ 5) && decide (k ≤ 20) && !(f == fmtState && k != 0)

/-- Sample period P (R85). -/
def fmtP (f k : Nat) : Nat := fmtP0 f * 2 ^ k

/-! ### Plan images (R192 to R194) -/

/-- Directory index of a section type. -/
def secIndex (im : Image) (t : Nat) : Option Nat := (List.range 10).find? fun i => imLE im (64 + 16 * i) 2 == t

/-- Byte offset of a section. -/
def secOff (im : Image) (t : Nat) : Nat := match secIndex im t with | some i => imLE im (64 + 16 * i + 4) 4 | none => 0

/-- A field of a section. -/
def secLE (im : Image) (t off n : Nat) : Nat := imLE im (secOff im t + off) n

def planId (im : Image) : Nat := imLE im 20 4
def planLen (im : Image) : Nat := imLE im 16 4
def planSigned (im : Image) : Bool := bit (imLE im 12 4) 0
def pLalign (im : Image) : Nat := secLE im 1 0 4
def pUsed (im : Image) (n : Nat) : Bool := bit (secLE im 1 (16 + 4 * n) 1) 0
def pFmt (im : Image) (n : Nat) : Nat := secLE im 1 (17 + 4 * n) 1
def pDiv (im : Image) (n : Nat) : Nat := secLE im 1 (18 + 4 * n) 1
def pCluster (im : Image) (c off : Nat) : Nat := secLE im 2 (16384 * c + off) 4
def pClass (im : Image) (a addr : Nat) : Nat := secLE im 3 (4096 * a + addr) 1
def pTactl (im : Image) (a : Nat) : Nat := secLE im 4 (8448 * a) 4
def pAutoEn (im : Image) (a : Nat) : Bool := bit (pTactl im a) 6
def pInit (im : Image) (a : Nat) : Nat := bits (pTactl im a) 5 0
def pTasel (im : Image) (a k : Nat) : Nat := secLE im 4 (8448 * a + 0x10 + 4 * k) 4
def pSel (im : Image) (a i : Nat) : Nat := if i % 2 = 0 then bits (pTasel im a (i / 2)) 11 0 else bits (pTasel im a (i / 2)) 27 16
def pLevel (im : Image) (a st : Nat) : Nat := secLE im 4 (8448 * a + 0x40 + st) 1
def pTrans (im : Image) (a st sym : Nat) : Nat := secLE im 4 (8448 * a + 0x100 + 2 * (64 * st + sym)) 2
def pTlctl (im : Image) (a u : Nat) : Nat := secLE im 5 (128 * a + 32 * u) 4
def pTlStates (im : Image) (a u : Nat) : Nat := secLE im 5 (128 * a + 32 * u + 8) 8
def pTlThr (im : Image) (a u : Nat) : Nat := secLE im 5 (128 * a + 32 * u + 16) 8
def pTmctl (im : Image) (i : Nat) : Nat := secLE im 5 (1024 + 16 * i) 4
def pTmDur (im : Image) (i : Nat) : Nat := secLE im 5 (1024 + 16 * i + 4) 8
def pTmOwned (im : Image) (i : Nat) : Bool := bit (pTmctl im i) 4
def pTmOwner (im : Image) (i : Nat) : Nat := bits (pTmctl im i) 2 0
def pCaslat (im : Image) : Nat := secLE im 5 1536 4
def pKhopmax (im : Image) : Nat := secLE im 5 1540 4
def pToen (im : Image) : Bool := bit (secLE im 5 1544 1) 0
def pAction (im : Image) (a x : Nat) : Nat := secLE im 6 (2048 * a + 8 * x) 8
def pComaDepth (im : Image) : Nat := secLE im 7 0 8
def pTailDepth (im : Image) : Nat := secLE im 7 8 8
def pSegRate (im : Image) : Nat := secLE im 7 16 2
def pSt (im : Image) (i off n : Nat) : Nat := secLE im 7 (64 + 64 * i + off) n
def pSfmt (im : Image) (i : Nat) : Nat := pSt im i 0 1
def pQsel (im : Image) (i : Nat) : Nat := pSt im i 1 1
def pLaneMask (im : Image) (i : Nat) : Nat := pSt im i 2 1
def pStCluster (im : Image) (i : Nat) : Nat := pSt im i 3 1
def pTdmax (im : Image) (i : Nat) : Nat := pSt im i 4 2
def pMarkSel (im : Image) (i : Nat) : Nat := pSt im i 6 1
def pFullStop (im : Image) (i : Nat) : Bool := bit (pSt im i 7 1) 0
def pBase (im : Image) (i : Nat) : Nat := pSt im i 8 8
def pSize (im : Image) (i : Nat) : Nat := pSt im i 16 8
def pComaWin (im : Image) (i : Nat) : Nat := pSt im i 24 4
def pMrate (im : Image) (i : Nat) : Nat := pSt im i 28 2
def pOrbit (im : Image) (s t k : Nat) : Nat := secLE im 8 (2 * (8192 * s + 4096 * t + k)) 2
def pNres (im : Image) : Nat := secLE im 9 0 2
def pResStream (im : Image) (i : Nat) : Nat := secLE im 9 (16 + 16 * i) 1
def pResRate (im : Image) (i : Nat) : Nat := secLE im 9 (20 + 16 * i) 4
def pCont (im : Image) : Nat := secLE im 10 0 2
def pPeak (im : Image) : Nat := secLE im 10 2 2
def pTpeak (im : Image) : Nat := secLE im 10 4 4

/-- The lanes of a stream in ascending order (R131). -/
def pLanes (im : Image) (i : Nat) : List Nat :=
  (numsWhere 8 fun l => bit (pLaneMask im i) l).map fun l => 8 * pStCluster im i + l

/-- The used streams. -/
def pStreams (im : Image) : List Nat := numsWhere 256 fun i => pSfmt im i != 0

/-- The plan's USED lanes. -/
def pUsedLanes (im : Image) : List Nat := numsWhere 128 fun n => pUsed im n

/-- The active plan, or an all-zero image: while no plan is active every plan-derived field reads 0 (R199). -/
def plan (s : State) : Image := s.plans.active.getD Image.empty

/-- Lane formats of a stream: format, divisor, N, P. -/
def stFmt (im : Image) (i : Nat) : Nat := match pLanes im i with | [] => 0 | n :: _ => pFmt im n
def stDiv (im : Image) (i : Nat) : Nat := match pLanes im i with | [] => 0 | n :: _ => pDiv im n
def stN (im : Image) (i : Nat) : Nat := fmtN (stFmt im i)
def stP (im : Image) (i : Nat) : Nat := fmtP (stFmt im i) (stDiv im i)

/-! ### Actions (R110) -/

def aNuc (w : Nat) : Bool := bit w 63
def aSegend (w : Nat) : Bool := bit w 62
def aTrigout (w : Nat) : Bool := bit w 61
def aHostev (w : Nat) : Bool := bit w 60
def aMark (w : Nat) : Bool := bit w 59
def aCasev (w : Nat) : Bool := bit w 58
def aCasline (w : Nat) : Nat := bits w 57 54
def aTmop (w : Nat) : Nat := bits w 53 52
def aTmsel (w : Nat) : Nat := bits w 51 47
def aTload (w : Nat) : Nat := bits w 46 43
def aQop (w : Nat) : Nat := bits w 42 41
def aQmask (w : Nat) : Nat := bits w 40 25
def aFlagset (w : Nat) : Nat := bits w 24 17
def aFlagclr (w : Nat) : Nat := bits w 16 9
def aOrg (w : Nat) : Bool := bit w 8
def aCode (w : Nat) : Nat := bits w 7 0

/-! ### Kinds of opcode (R251) -/

/-- The jobs (R262). -/
def isJob (op : Nat) : Bool := [opJobSearch, opJobExtract, opJobCompress, opJobDecompress, opJobVerify].contains op

/-- Whether an opcode uses OPT (R251). -/
def usesOpt (op : Nat) : Bool := [opInventory, opPlanRelease, opArm, opStop, opRingResume].contains op

/-- Whether an opcode uses UNLIM (R251). -/
def usesUnlim (op : Nat) : Bool := op == opJobSearch

/-- The parameter bits that an opcode uses, P0 to P6 (R244, R251); an open-area routine defines its own parameters (R250). -/
def paramMasks (op : Nat) (opt : Bool) : List Nat :=
  let all := 2 ^ 64 - 1
  if isOpenArea op then [all, all, all, all, all, all, all]
  else if op = opInventory then [all, all, if opt then 0 else 2 ^ 48 - 1, 0, 0, 0, 0]
  else if op = opPopulationSet then [all, all, 0, 0, 0, 0, 0]
  else if op = opLaneSet then [all, all, all, 1, 0, 0, 0]
  else if op = opLinkTrain then [all, all, 0xF, 0, 0, 0, 0]
  else if op = opTimebaseSet then [all, all, 2 ^ 32 - 1, 0, 0, 0, 0]
  else if op = opConjunction then [0x1F0F, all, 0, 0, 0, 0, 0]
  else if op = opTimebaseRealign then [3, all, 0, 0, 0, 0, 0]
  else if op = opPlanLoad then [all, all, 0, 0, 0, 0, 0]
  else if op = opArm then [all, if opt then all else 0, 0, 0, 0, 0, 0]
  else if op = opForceTrigger then [0xFF, 0xFF, 0, 0, 0, 0, 0]
  else if op = opStop then (if opt then [0xFFFF, 2 ^ 32 - 1, 0, 0, 0, 0, 0] else [0, 0, 0, 0, 0, 0, 0])
  else if op = opStreamOpen then [0xFFFFFF, all, all, all, 0, 0, 0]
  else if op = opStreamClose then [0xFFFF, 0, 0, 0, 0, 0, 0]
  else if op = opJobSearch then [all, all, 0xFF, all, all, all, all]
  else if op = opJobExtract then [0xFF, all, all, all, all, 0, 0]
  else if op = opJobCompress then [all, all, all, all, 3, 0, 0]
  else if op = opJobDecompress then [all, all, all, all, 3, 0, 0]
  else if op = opJobVerify then [all, all, 0, 0, 1, 0, 0]
  else if op = opMarchRun then [0xFFF, 1, all, all, 0, 0, 0]
  else if op = opScrubSet then [0xFF, 2 ^ 28 - 1, 2 ^ 28 - 1, 0x1FF, 0, 0, 0]
  else if op = opTraceSet then [2 ^ 28 - 1, 0xFF01, 0xE000000FFFFFFFFF, 0, 0, 0, 0]
  else if op = opPowerState then [3, 0, 0, 0, 0, 0, 0]
  else if op = opPatchLoad then [all, all, 0, 0, 0, 0, 0]
  else if op = opCustodyGrant then [all, all, 0, 0, 0, 0, 0]
  else if op = opRingCreate then [0x3FFFF, all, all, 0xFFFF, 0, 0, 0]
  else if op = opRingDestroy then [0xFFFF, 0, 0, 0, 0, 0, 0]
  else if op = opRingResume then [if opt then 0 else 0xFFFF, 0, 0, 0, 0, 0, 0]
  else [0, 0, 0, 0, 0, 0, 0]

def ePs (e : Entry) : List W64 := [e.p0, e.p1, e.p2, e.p3, e.p4, e.p5, e.p6]
def eOpt (e : Entry) : Bool := bit e.flags.toNat 0
def eUnlim (e : Entry) : Bool := bit e.flags.toNat 1

/-- Whether flags, reserved fields and unused parameters are as R244 requires. -/
def entryClean (op : Nat) (e : Entry) : Bool :=
  decide (e.flags.toNat < 4) && e.rsvd == 0 && (!eOpt e || usesOpt op) && (!eUnlim e || usesUnlim op) &&
    ((ePs e).zip (paramMasks op (eOpt e))).all fun x => x.1.toNat &&& (2 ^ 64 - 1 - x.2) == 0

/-- The home sequencer of an opcode (R286); jobs and open-area commands go to a quadrant's JSQ. -/
def homeOf (op : Nat) : Nat :=
  if [opPatchLoad, opCustodyGrant, opCustodyRelease, opTimebaseSet, opPopulationSet, opScrubSet].contains op then 1
  else if [opPowerState, opThermalProfile, opMarchRun].contains op then 2
  else if [opTimebaseRealign, opConjunction].contains op then 3
  else if [opLaneSet, opLinkTrain].contains op then 4
  else if op = opDramTrain then 8
  else 0

/-- The opcodes accepted only from ring 0 (R240). -/
def ring0Only (op : Nat) : Bool := [opPatchLoad, opCustodyGrant, opCustodyRelease, opRingCreate, opRingDestroy].contains op

/-- The opcodes accepted while tripped (R375); POWER_STATE to a target other than PS0 is refused later. -/
def tripAllows (op : Nat) : Bool :=
  [opNop, opIdentify, opInventory, opPowerState, opThermalProfile, opCounterSnapshot, opStreamOpen, opStreamClose, opRingCreate,
   opRingDestroy, opRingResume].contains op

end Sys2Proof.Machine
end

