-- ==== Sys2Proof/Machine/Records.lean ====
section
/-! DEFINITION. Records (R138 to R150), regions (R142 to R144), COMMIT entries (R155) and the reporting of errors (R11, R149). -/

namespace Sys2Proof.Machine

/-! ### Record payloads -/

/-- Fields (value, width) packed from bit 0 upward. -/
def packBits (l : List (Nat × Nat)) : Nat :=
  match l with
  | [] => 0
  | (v, w) :: r => v % 2 ^ w + 2 ^ w * packBits r

/-- The total width of packed fields. -/
def bitsLen (l : List (Nat × Nat)) : Nat := (l.map fun p => p.2).sum

/-- Packed fields as bytes. -/
def packBytes (l : List (Nat × Nat)) : List Byte := leBytes (ceilDiv (bitsLen l) 8) (packBits l)

/-- A sample word: lane index l, channel c at bit l × N + c (R139). -/
def wordFields (n : Nat) (ws : List (BitVec 16)) : List (Nat × Nat) := ws.map fun w => (w.toNat, n)

/-- Whether a stream is gated (R132). -/
def stGated (im : Image) (i : Nat) : Bool := decide (pQsel im i < 16)

/-- Whether a stream's lanes run STATE. -/
def stIsState (im : Image) (i : Nat) : Bool := stFmt im i == fmtState

/-- The slot distances of the STATE layout (R139): 16-tick slots since the stored state before. -/
def stateFields (prev : Nat) (ps : List (Nat × List (BitVec 16))) : List (Nat × Nat) :=
  match ps with
  | [] => []
  | (t, ws) :: rest => ((t - prev) / 16, 16) :: wordFields 16 ws ++ stateFields t rest

/-- The group of 64 positions `g` of the gated layout: mask, words, zeros to a 64-bit boundary (R139). -/
def groupFields (n ts p g : Nat) (ps : List (Nat × List (BitVec 16))) : List (Nat × Nat) :=
  let here := ps.filter fun x => (x.1 - ts) / p / 64 == g
  let ws := here.flatMap fun x => wordFields n x.2
  (maskOfList (here.map fun x => (x.1 - ts) / p % 64), 64) :: ws ++ [(0, (64 - bitsLen ws % 64) % 64)]

/-- The data of a DENSE record from its stored positions, oldest first (R139). -/
def denseData (im : Image) (i ts : Nat) (ps : List (Nat × List (BitVec 16))) : List Byte :=
  let n := stN im i
  let p := stP im i
  if stIsState im i then packBytes (stateFields ts ps)
  else if stGated im i then
    let groups := match ps.getLast? with | none => 0 | some x => (x.1 - ts) / p / 64 + 1
    packBytes ((List.range groups).flatMap fun g => groupFields n ts p g ps)
  else packBytes (ps.flatMap fun x => wordFields n x.2)

/-- The head word of DENSE and BLOCK records: NPOS and QM (R139). -/
def denseHead (im : Image) (i ts : Nat) (ps : List (Nat × List (BitVec 16))) : Nat :=
  if !stIsState im i && stGated im i then
    2 ^ 32 + (match ps.getLast? with | none => 0 | some x => (x.1 - ts) / stP im i + 1)
  else ps.length

/-- The size in bytes of a TRANS entry by channels (R140). -/
def transEntry (n : Nat) : Nat := if n = 16 then 8 else if n = 8 then 6 else if n = 1 then 4 else 5

/-- One TRANS entry: DELTA, the new value and the changed mask (R140). -/
def transFields (n delta old new : Nat) : List (Nat × Nat) :=
  let m := new ^^^ old
  if n = 1 then [(delta, 32)]
  else if n = 2 then [(delta, 32), (new, 2), (m, 2), (0, 4)]
  else [(delta, 32), (new, n), (m, n)]

/-- The entries of a TRANS record after the sample (`t`, `old`), oldest first (R140). -/
def transEntries (n t old : Nat) (ps : List (Nat × List (BitVec 16))) : List Byte :=
  match ps with
  | [] => []
  | (u, ws) :: rest =>
    let w := (ws.headD 0).toNat % 2 ^ n
    packBytes (transFields n (u - t) old w) ++ transEntries n u w rest

/-- The payload of a TRANS record that covers ticks up to `upTo` (R140). -/
def transPayload (im : Image) (i lane ts upTo : Nat) (ps : List (Nat × List (BitVec 16))) : List Byte :=
  match ps with
  | [] => []
  | (t, ws) :: rest =>
    let n := stN im i
    let w := (ws.headD 0).toNat % 2 ^ n
    leBytes 8 ((upTo + 1 - ts) * 2 ^ 32 + rest.length * 2 ^ 16 + lane) ++ leBytes 8 w ++ transEntries n t w rest

/-- The bytes of data an open record holds (R138). -/
def openSize (im : Image) (i : Nat) (r : OpenRec) : Nat :=
  if pSfmt im i = 2 then (r.pos.length - 1) * transEntry (stN im i) else (denseData im i r.ts r.pos.reverse).length

/-- A closed data record (R138 to R141); a block whose shadow decode does not match (`bad`) is stored with FLAGS bit 1. The last tick it holds
is the stamp of its last stored sample. (DEDUCED: log entry 41.) -/
def closedRec (im : Image) (i upTo : Nat) (bad : Bool) (r : OpenRec) : QRec :=
  let ps := r.pos.reverse
  if pSfmt im i = 2 then
    { rtype := 2, flags := 0, ts := r.ts, payload := transPayload im i r.lane r.ts upTo ps,
      last := upTo - (upTo - r.ts) % stP im i }
  else
    let d := denseData im i r.ts ps
    let last := (ps.getLast?.map fun x => x.1).getD r.ts
    if pSfmt im i = 3 then
      { rtype := 3, flags := if bad then 2 else 0, ts := r.ts, payload := leBytes 8 (denseHead im i r.ts ps) ++ codeBlock d bad, last := last }
    else { rtype := 1, flags := 0, ts := r.ts, payload := leBytes 8 (denseHead im i r.ts ps) ++ d, last := last }

/-- The payload of a GAP record (R147). -/
def gapPayload (last cause mask detail : Nat) : List Byte :=
  leBytes 8 last ++ leBytes 1 cause ++ leBytes 1 mask ++ leBytes 2 detail

/-- A TIMEBASE record (R147): KIND, byte 17, the signed value in 1/16 tick, and bytes 32 to 47. -/
def timebaseRec (ts kind code : Nat) (v16 : Int) (x y : Nat) : QRec :=
  { rtype := 0xA, flags := 0, ts := ts, last := ts,
    payload := leBytes 1 kind ++ leBytes 1 code ++ leBytes 6 0 ++ leBytes 8 (toField 64 v16) ++ leBytes 8 x ++ leBytes 8 y }

/-- The payload of a FAULT record (R147). -/
def faultPayload (unit cause index detail : Nat) : List Byte :=
  leBytes 2 unit ++ leBytes 2 cause ++ leBytes 4 index ++ leBytes 8 detail

/-! ### Writing records into a region -/

/-- The granules of a byte string at an address. -/
def granules (stream seq addr : Nat) (n : Nat) (bs : List Byte) : List Gran :=
  match n with
  | 0 => []
  | k + 1 => { arr := 0, stream := stream, addr := addr, bytes := bs.take 64, seq := seq } ::
      granules stream seq (addr + 64) k (bs.drop 64)

/-- Granules of a record with this payload (R145). -/
def recLen (payload : List Byte) : Nat := ceilDiv (16 + payload.length) 64

/-- Coma records that a write of `n` granules at `a` overwrites leave the window (R142). (DEDUCED: log entry 39.) -/
def overwritten (segno a n : Nat) (m : RecMeta) : RecMeta :=
  if m.coma && m.segno == segno && decide (m.addr < a + 64 * n) && decide (a < m.addr + 64 * m.len) then { m with gone := true } else m

/-- The lane whose cell holds a record of stream i: that of its lane index for a TRANS record, else the stream's first. (DESIGN CHOICE: log entry 44.) -/
def cellOf (im : Image) (i : Nat) (q : QRec) : Nat := (pLanes im i).getD (if q.rtype = 2 then leVal (q.payload.take 2) else 0) 0

/-- Granules wait in a cell for their turns at the quadrant write path (R13). -/
def sendGrans (n : Nat) (gs : List Gran) (s : State) : State :=
  { s with dram := { s.dram with cells := tblSet s.dram.cells n (tblGet s.dram.cells n [] ++ gs) } }

/-- A granule reaches its memory controller, after every request received before it (R168, R180), and cancels a scrub write of its granule (R184). -/
def granIn (g : Gran) (s : State) : State :=
  let s1 := cancelScrub g.addr 64 s
  { s1 with dram := { s1.dram with arr := s1.dram.arr + 1, rt := s1.dram.rt ++ [{ g with arr := s1.dram.arr }] } }

/-- The next cell of cluster c with a granule, from the one whose turn it is on. -/
def nextCell (s : State) (c : Nat) : Option Nat :=
  let t := tblGet s.dram.turn c 0
  ((List.range 8).map fun k => 8 * c + (t + k) % 8).find? fun n => !(tblGet s.dram.cells n []).isEmpty

/-- The cells of a cluster take turns, one granule each, until `fuel` granules have entered the write path (R13). -/
def clusterIn (fuel c : Nat) (s : State) : State :=
  match fuel with
  | 0 => s
  | f + 1 => match nextCell s c with
    | none => s
    | some n => match tblGet s.dram.cells n [] with
      | [] => s
      | g :: rest =>
        clusterIn f c (granIn g { s with dram := { s.dram with cells := tblSet s.dram.cells n rest, turn := tblSet s.dram.turn c ((n + 1) % 8) } })

/-- Whatever waits in the cells enters the write path (R13). (DESIGN CHOICE: log entry 44.) -/
def cellsIn (s : State) : State :=
  let n := (s.dram.cells.map fun p => p.2.length).sum
  if n = 0 then s else (List.range (4 * quads s)).foldl (fun t c => clusterIn n c t) s

/-- Place one record of `len` granules at the write address (R145). -/
def placeRec (i len : Nat) (q : QRec) (s : State) : State :=
  let x := strm s i
  let coma := !x.tail
  let h := x.seq % 2 ^ 36 * 2 ^ 28 + len * 2 ^ 16 + (q.flags + b2n coma) * 2 ^ 12 + i * 2 ^ 4 + q.rtype
  let bs := padTo (64 * len) (leBytes 8 h ++ leBytes 8 q.ts ++ q.payload)
  let m : RecMeta := { addr := x.wp, len := len, seq := x.seq, rtype := q.rtype, ts := q.ts, last := q.last, segno := x.segno,
                       coma := coma, gone := false, head := bs.take 88 }
  let old := if coma then x.recs.map (overwritten x.segno x.wp len) else x.recs
  sendGrans (cellOf (plan s) i q) (granules i x.seq x.wp len bs)
    (setStrm i { x with seq := x.seq + 1, wp := x.wp + 64 * len, lastTs := q.ts, recs := m :: old } s)

/-- Write one record: in the coma phase circularly, after a PAD record where it does not fit before the window's end (R142). -/
def writeRec (i : Nat) (q : QRec) (s : State) : State :=
  let x := strm s i
  let top := x.c + pComaWin (plan s) i
  let len := recLen q.payload
  if !x.tail && decide (top < x.wp + 64 * len) then
    let s1 := if x.wp < top then
        placeRec i ((top - x.wp) / 64) { rtype := 0xF, flags := 0, ts := x.lastTs, payload := [], last := x.lastTs } s
      else s
    placeRec i len q (setStrm i { strm s1 i with wp := x.c } s1)
  else placeRec i len q s

/-- The end of the region before its closing reserve (R144). -/
def reserveAt (im : Image) (i : Nat) : Nat := pBase im i + pSize im i - 4096

/-- The engine's last record as a COMMIT entry names it (R154). -/
def commitDue (s : State) (i through : Nat) : CommitDue :=
  let x := strm s i
  match x.recs with
  | [] => { segno := x.segno, seq := none, next := pBase (plan s) i, through := through }
  | m :: _ => { segno := x.segno, seq := some m.seq, next := m.addr + 64 * m.len, through := through }

/-- Order a COMMIT entry of a stream (R155). -/
def addDue (i through : Nat) (s : State) : State :=
  setStrm i { strm s i with due := (strm s i).due ++ [commitDue s i through] } s

/-- A segment that the end of the capture cuts at tick `last` (R135); a nucleus after it has no effect. (DEDUCED: log entry 35.) -/
def cutSeg (last : Nat) (g : Seg) : Seg :=
  let late := match g.nuc with | some n => decide (last < n) | none => false
  let g1 := if late then { g with nuc := none, forcedOnly := false, org := none } else g
  match g1.e with
  | some e => if e < last then g1 else { g1 with e := some last, stopped := true }
  | none => { g1 with e := some last, stopped := true }

/-- The engine's ring size n and position p; 1 and 0 with no completed CONJUNCTION (R126, R127). -/
def ringCount (s : State) : Nat := if rf s 0x4001C 22 22 = 1 then rf s 0x40050 27 24 + 1 else 1
def ringPos (s : State) : Nat := if ringCount s = 1 then 0 else rf s 0x40050 31 28

/-- Actions after the last tick have no effect, also where the automata had evaluated them already, and the automata registers show the slice
with the last tick (R129, R135, R144). -/
def truncate (last : Nat) (s : State) : State :=
  let kept := s.cap.segs.filter fun g => decide (g.s ≤ last)
  let segs := kept.dropLast ++ (kept.getLast?.map (cutSeg last)).toList
  { s with cap := { s.cap with segs := segs, begun := s.cap.begun - (s.cap.segs.length - kept.length) },
           au := { s.au with edges := s.au.edges.filter fun u => decide (u ≤ last + 8192),
                             hevs := s.au.hevs.filter fun h => decide (h.tick ≤ last),
                             casDue := s.au.casDue.filter fun c => decide (c.tick ≤ last),
                             inbound := s.au.inbound.filter fun c => decide (c.otick ≤ last) || c.origin != ringPos s,
                             shown := s.au.shown.dropWhile fun p => decide (last < p.1),
                             lastSlice := (s.au.shown.find? fun p => decide (p.1 ≤ last)).map fun p => p.1 } }

/-- The capture is to end at tick `last`, unless it already ends sooner (R135, R144). -/
def orderEnd (last : Nat) (r : EndReason) (s : State) : State :=
  let sooner := match s.cap.endAt with | some (e, _) => decide (e ≤ last) | none => false
  if sooner then s
  else
    let s1 := { s with cap := { s.cap with endAt := some (last, r) } }
    match s.au.lastSlice with
    | some t => if last ≤ t + 31 then truncate last s1 else s1
    | none => s1

/-- Insert a queued record after those with timestamps not later. (DEDUCED: log entry 38.) -/
def insertQ (q : QRec) (l : List QRec) : List QRec :=
  match l with
  | [] => [q]
  | x :: rest => if q.ts < x.ts then q :: x :: rest else x :: insertQ q rest

/-- Queue a record until the writer reaches its timestamp (R146). -/
def enqueue (i : Nat) (q : QRec) (s : State) : State := setStrm i { strm s i with q := insertQ q (strm s i).q } s

/-- A codec engine codes a block of `n` bytes: its counters (R285). -/
def countCoded (x n : Nat) (block : List Byte) (s : State) : State :=
  let mode := ((block.getD 1 0).toNat) % 3
  countN block.length (cxCtr x 5) (countN n (cxCtr x 4) (count (cxCtr x (1 + mode)) (count (cxCtr x 0) s)))

/-- A stream becomes full at tick f (R144), unless it is full from an earlier tick on; with FULLSTOP the capture ends at the first slice
boundary after f. The writer closes the stream's records when it reaches f. -/
def becomeFull (i f : Nat) (s : State) : State :=
  let x := strm s i
  let earlier := match x.full with | some g => decide (g ≤ f) | none => false
  if earlier then s
  else
    let s1 := setStrm i { x with full := some f } s
    let s2 := if x.full.isNone then setSource (srcCap 6) s1 else s1
    if pFullStop (plan s) i then orderEnd (32 * (f / 32 + 1) - 1) .fullstop s2 else s2

/-- Whether a stream stores nothing at tick t any more (R144). -/
def fullBy (x : Stream) (t : Nat) : Bool := match x.full with | some f => decide (f ≤ t) | none => false

/-- The bytes that records up to tick t may still take before the reserve: those queued, and 4,160 for each open one (R144). (DEDUCED: log entry 19.) -/
def spoken (x : Stream) (t : Nat) : Nat :=
  ((x.q.filter fun q => decide (q.ts ≤ t)).map fun q => 64 * recLen q.payload).sum + 4160 * (x.op.filter fun r => decide (r.ts ≤ t)).length

/-- Write a record whose turn has come. Data records were judged when they opened, and their space is kept. A MARK record beyond MRATE is
counted and not written (R148); a record that does not fit before the reserve makes the stream full (R144). (DEDUCED: log entry 19.) -/
def putRec (i : Nat) (q : QRec) (s : State) : State :=
  let x := strm s i
  let im := plan s
  let pastEnd := x.tail && decide (reserveAt im i < x.wp + 64 * recLen q.payload)
  if q.rtype < 8 then writeRec i q s
  else if fullBy x q.ts then s
  else if q.rtype = 9 then
    if x.tail && decide (reserveAt im i < x.wp + spoken x q.ts + 64 * recLen q.payload) then becomeFull i q.ts s
    else
      let recent := x.markTs.filter fun t => decide (q.ts < t + 65536)
      if pMrate im i ≤ recent.length then
        setSource (srcCap 10) (setStrm i { x with markOvf := min (x.markOvf + 1) 0xFFFF, markTs := recent } s)
      else
        writeRec i { q with payload := q.payload.take 2 ++ leBytes 2 x.markOvf ++ q.payload.drop 4 }
          (setStrm i { x with markOvf := 0, markTs := q.ts :: recent } s)
  else
    let s1 := writeRec i q s
    if pastEnd then becomeFull i (if q.rtype = 8 then q.last + 1 else q.ts + 1) s1 else s1

/-- Whether a queued record may be written now: the writer has reached it, and no open data record and no open gap, which begins at
`hold`, stands before it; MARK records wait for neither (R146). -/
def qReady (x : Stream) (pos hold : Nat) (q : QRec) : Bool :=
  decide (q.ts ≤ pos) && (q.rtype == 9 || (decide (q.ts ≤ hold) && x.op.all fun r => decide (q.ts ≤ r.ts)))

/-- Write the queued records that the writer has reached, in order. -/
def flushQ (fuel i pos hold : Nat) (s : State) : State :=
  match fuel with
  | 0 => s
  | f + 1 =>
    let x := strm s i
    match x.q.find? (qReady x pos hold) with
    | none => s
    | some q => flushQ f i pos hold (putRec i q (setStrm i { x with q := x.q.erase q } s))

/-- Write every queued record that the writer, at tick `pos`, has reached, with a gap open from tick `hold` on. -/
def flush (i pos hold : Nat) (s : State) : State := flushQ (strm s i).q.length i pos hold s

/-- The CAPEVT0 bit of a GAP record by its cause (R261). -/
def gapBit (cause : Nat) : Nat := if cause = 1 then 7 else if cause = 2 then 8 else 9

/-- Queue a GAP record for ticks `first` to `last`, cut where the stream is full (R144, R151). -/
def gap (i first last cause mask detail : Nat) (s : State) : State :=
  let x := strm s i
  let e := match x.full with | some f => min last (f - 1) | none => last
  if fullBy x first || decide (e < first) then s
  else setSource (srcCap (gapBit cause))
    (enqueue i { rtype := 8, flags := 0, ts := first, last := e, payload := gapPayload e cause mask detail } s)

/-! ### COMMIT entries and the end of ARM (R155, R252) -/

/-- The ARM's status for an end reason (R252). (DEDUCED: log entry 33.) -/
def armStatus (r : EndReason) : Nat :=
  match r with
  | .count => stDone | .stop => stDone | .fullstop => stDone
  | .reset => stAborted | .trip => stThermalTrip | .machineCheck => stMachineCheck

/-- The capture state without the ARM that waited: none, or the ended capture before it (R255). -/
def unarm (c : Cap) : Cap :=
  match c.past with
  | some p => { c with state := .ended, origin := p.origin, ring := p.ring, tag := p.tag, count := p.count, t0 := p.t0, reason := p.reason, past := none }
  | none => { c with state := if c.anyBegun then .ended else .none }

/-- Set DCHSTAT.ORB of a subchannel. -/
def setOrb (sc v : Nat) (s : State) : State := setRf (chBase (sc / 2) + 4) (25 + 2 * (sc % 2)) (24 + 2 * (sc % 2)) v s

/-- After the capture a subchannel follows the idle schedule (R167). -/
def endOrbit (s : State) (sc : Nat) : State :=
  setSub sc { sub s sc with refAt := nowT s } (setOrb sc 0 s)

/-- Every subchannel follows the idle schedule. -/
def endOrbits (s : State) : State := (List.range (subCount s)).foldl endOrbit s

/-- Whether a COMMIT entry is written and not yet committed. -/
def commitWaits (s : State) : Bool := s.jr.wait.any fun w => match w.body with | .commit _ _ => true | _ => false

/-- Once every COMMIT entry of the ended capture is committed, the CAPTURE end entry is committed and ARM ends (R252). -/
def tryFinishArm (s : State) : State :=
  let c := s.cap
  if c.closing && !commitWaits s && s.streams.all fun p => p.2.due.isEmpty then
    let r := c.reason.getD .count
    let s1 := endOrbits (jcommit (.capture true (some r) c.tag c.lastTick) { s with cap := { c with closing := false } })
    let x0 := BitVec.ofNat 64 (reasonCode r)
    let x1 := BitVec.ofNat 64 c.lastTick
    let x2 := BitVec.ofNat 64 c.ended
    if armStatus r = stDone then finishLong c.origin stDone x0 x1 x2 s1 else finishCmd c.origin (armStatus r) x0 x1 x2 s1
  else s

/-- Whether every granule of a COMMIT entry's records is in DRAM (R155, R168). -/
def dueReady (s : State) (i : Nat) (d : CommitDue) : Bool :=
  match d.seq with
  | none => true
  | some q => (s.dram.rt.all fun g => g.stream != i || decide (q < g.seq)) &&
      s.dram.cells.all fun c => c.2.all fun g => g.stream != i || decide (q < g.seq)

/-- Commit the COMMIT entries of a stream whose records are in DRAM, oldest first. -/
def commitDues (fuel i : Nat) (s : State) : State :=
  match fuel with
  | 0 => s
  | f + 1 =>
    let x := strm s i
    match x.due with
    | [] => s
    | d :: rest =>
      if dueReady s i d then commitDues f i (jcommit (.commit i d) (setStrm i { x with due := rest } s)) else s

/-- Commit what a stream can commit, and end ARM when that was the last (R155, R252). -/
def tryCommit (i : Nat) (s : State) : State := tryFinishArm (commitDues (strm s i).due.length i s)

/-- Commit what every stream can commit. -/
def tryCommitAll (s : State) : State := tryFinishArm (s.streams.foldl (fun t p => commitDues p.2.due.length p.1 t) s)

/-! ### Reports (R11, R149, R403) -/

/-- Whether an automaton's gates or nuclei reach a stream (R149). -/
def autoReaches (im : Image) (a i : Nat) : Bool :=
  pAutoEn im a && (List.range 256).any fun x =>
    let w := pAction im a x
    aNuc w || (aQop w != 0 && stGated im i && bit (aQmask w) (pQsel im i))

/-- The active streams whose path contains the unit that reports source n (R149). A writer overrun concerns one stream only (R211). (DEDUCED: log entry 40.) -/
def faultStreams (s : State) (n detail : Nat) : List Nat :=
  let im := plan s
  let inPath (i : Nat) : Bool :=
    if 536 ≤ n ∧ n < 1560 then (pLanes im i).contains ((n - 536) / 8)
    else if 1560 ≤ n ∧ n < 1592 then pStCluster im i == (n - 1560) / 2
    else if 1592 ≤ n ∧ n < 1632 then autoReaches im ((n - 1592) / 5) i
    else if 480 ≤ n ∧ n < 536 then true
    else if 1664 ≤ n ∧ n < 1696 then
      if (n - 1664) % 8 = 6 then i == detail % 256 else pStCluster im i / 4 == (n - 1664) / 8
    else false
  (s.streams.filter fun p => p.2.active && inPath p.1).map fun p => p.1

/-- Write a FAULT record into one stream (R149). One that goes into the reserve waits behind the records that may not enter it (R144).
(DEDUCED: log entries 19 and 40.) -/
def faultInto (n index detail : Nat) (i : Nat) (s : State) : State :=
  let q : QRec := { rtype := 0xC, flags := 0, ts := s.tb.tick, last := s.tb.tick, payload := faultPayload (errUnit n) n index detail }
  let x := strm s i
  if x.tail && decide (reserveAt (plan s) i < x.wp + spoken x q.ts + 64) && !fullBy x q.ts then
    becomeFull i (q.ts + 1) (enqueue i q s)
  else putRec i q s

/-- A report: the event bit, and for an error of R403 one entry of the chip error log and the FAULT records that follow (R11, R149). (DEDUCED: log entry 40.) -/
def raise (n detail : Nat) (s : State) : State :=
  if srcDefined n && srcPresent s n then
    if isError n then
      let idx := (reg s 0x30).toNat
      let s1 := logError n detail (setSource n s)
      (faultStreams s1 n detail).foldl (fun t i => faultInto n idx detail i t) s1
    else setSource n s
  else s

/-! ### Closing data records (R138, R141) -/

/-- One open record closes. A block whose shadow decode does not match is stored, and the codec engine reports it (R141). -/
def closeOne (i upTo : Nat) (s : State) (r : OpenRec) : State :=
  let x := strm s i
  let im := plan s
  let isBlock := pSfmt im i == 3
  let bad := isBlock && x.vbad
  let s1 := setStrm i { x with vbad := x.vbad && !bad, q := insertQ (closedRec im i (max upTo r.ts) bad r) x.q } s
  if isBlock then
    let g := pStCluster im i / 4
    let d := denseData im i r.ts r.pos.reverse
    countCoded g d.length (codeBlock d bad) (if bad then raise (srcCx g 0) i (count (cxCtr g 7) s1) else s1)
  else s1

/-- Close the open records of a stream that `sel` picks. -/
def closeSel (sel : OpenRec → Bool) (i upTo : Nat) (s : State) : State :=
  let x := strm s i
  (x.op.filter sel).foldl (closeOne i upTo) (setStrm i { x with op := x.op.filter fun r => !sel r } s)

/-- Close every open data record of a stream (R138). -/
def closeAll (i upTo : Nat) (s : State) : State := closeSel (fun _ => true) i upTo s

/-- Close the open record of one lane index (R138). -/
def closeLane (i l upTo : Nat) (s : State) : State := closeSel (fun r => r.lane == l) i upTo s

end Sys2Proof.Machine
end

