-- ==== Sys2Proof/Machine/Ecc.lean ====
section
/-! DEFINITION. DRAM error reports and data (R182, R183), AER, and host reads that fail (R223 to R228). -/

namespace Sys2Proof.Machine

/-! ### Error reports (R183) -/

/-- Record an address in a log pair, first one kept until the HI half is read (R183, R188). -/
def addrLog (lo sc dev a : Nat) (s : State) : State :=
  if bit (reg s (lo + 4)).toNat 31 then s
  else
    let g := a / 64 * 64
    setReg (lo + 4) (BitVec.ofNat 32 (2 ^ 31 + sc % 2 * 2 ^ 16 + dev * 2 ^ 12 + g / 2 ^ 32 % 256))
      (setReg lo (BitVec.ofNat 32 g) s)

/-- A corrected DRAM read (R183). -/
def dramCe (a dev : Nat) (s : State) : State :=
  let sc := subOf s a
  raise (srcDch (sc / 2) 0) (a / 64 * 64) (addrLog (chBase (sc / 2) + 0x40) sc dev a (count (subCtr sc 12) s))

/-- An uncorrectable DRAM read (R183). -/
def dramUe (a : Nat) (s : State) : State :=
  let sc := subOf s a
  raise (srcDch (sc / 2) 1) (a / 64 * 64) (addrLog (chBase (sc / 2) + 0x48) sc 15 a (count (subCtr sc 13) s))

/-- Granules of [a, a + n) whose stored word reads as uncorrectable. -/
def poisonIn (s : State) (a n : Nat) : List Nat := s.dram.poison.filter fun g => decide (a < g + 64) && decide (g < a + n)

/-- Bytes of DRAM as read, with the reports of the uncorrectable granules among them, and whether there were any (R183). (DESIGN CHOICE: log entry 44.) -/
def readDram (a n : Nat) (s : State) : List Byte × Bool × State :=
  let p := poisonIn s a n
  (dramTake s a n, !p.isEmpty, p.foldl (fun t g => dramUe g t) s)

/-- Write bytes of DRAM; a write renews the check bits of its granules (R182). (DESIGN CHOICE: log entry 44.) -/
def writeDram (a : Nat) (bs : List Byte) (s : State) : State :=
  let s1 := cancelScrub a bs.length (dramPut a bs s)
  { s1 with dram := { s1.dram with poison := s1.dram.poison.filter fun g => !(decide (a ≤ g) && decide (g + 64 ≤ a + bs.length)) } }

/-! ### AER and failed host reads (R223 to R228) -/

/-- The bits of configuration space that no other field of the endpoint holds, after a reset: No Snoop and the target link speed. (PRESUMED: log entry 4.) -/
def cfgReset (off : Nat) : W32 := if off = 0x78 then 0x800#32 else if off = 0xA0 then 6#32 else 0#32

/-- Those bits of a doubleword. -/
def cfgBits (s : State) (off : Nat) : W32 := tblGet s.pcie.cfg off (cfgReset off)

/-- Set bits of configuration space. -/
def cfgOr (off : Nat) (m : W32) (s : State) : State := { s with pcie := { s.pcie with cfg := tblSet s.pcie.cfg off (cfgBits s off ||| m) } }

/-- SERR# Enable of the Command register (R213). (PRESUMED: log entry 4.) -/
def serrOn (s : State) : Bool := bit (cfgBits s 0x4).toNat 8

/-- An error message to the root, when Device Control enables its kind or, for an uncorrectable error, SERR# Enable is set; `kind` 0 is correctable, 1 non-fatal,
2 fatal (R224). (PRESUMED: log entry 4.) -/
def errReport (kind : Nat) (s : State) : State :=
  let serr := decide (0 < kind) && serrOn s
  if !(bit (cfgBits s 0x78).toNat kind || serr) || s.pcie.d3 then s
  else
    let s1 := post (.errMsg ([0x30, 0x31, 0x33].getD kind 0)) s
    if serr then cfgOr 0x4 0x40000000#32 s1 else s1

/-- The header of the request at fault enters the header log, unless the log holds one: a free value, as the model holds no headers (R224).
(PRESUMED: log entries 4 and 7.) -/
def aerHeader (b : Nat) (s : State) : State :=
  if bit s.pcie.aerUnc s.pcie.aerFirst then s
  else
    let x := takeFree s
    let y := takeFree x.2
    let t := y.2
    { t with pcie := { t.pcie with aerFirst := b, aerHdr := [x.1.setWidth 32, (x.1 >>> 32).setWidth 32, y.1.setWidth 32, (y.1 >>> 32).setWidth 32] } }

/-- An uncorrectable error in AER, by its bit in the status register: status, first error and header log, and a message at the severity that software
programs, unless it is masked (R224; log entry 4 for the bits). (DEDUCED, PRESUMED: log entries 4 and 64.) -/
def aerUncor (b : Nat) (s : State) : State :=
  let masked := bit s.pcie.aerUncMask.toNat b
  let kind := if bit s.pcie.aerSev.toNat b then 2 else 1
  let s1 := if masked then s else aerHeader b s
  let s2 := cfgOr 0x78 (BitVec.ofNat 32 (2 ^ (16 + kind) + (if b = 20 then 2 ^ 19 else 0))) { s1 with pcie := { s1.pcie with aerUnc := s1.pcie.aerUnc ||| 2 ^ b } }
  raise (srcPe 7) b (if masked then s2 else errReport kind s2)

/-- A correctable error in AER. (PRESUMED: log entry 4.) -/
def aerCor (b : Nat) (s : State) : State :=
  let s1 := cfgOr 0x78 0x10000#32 { s with pcie := { s.pcie with aerCor := s.pcie.aerCor ||| 2 ^ b } }
  raise (srcPe 6) b (if bit s.pcie.aerCorMask.toNat b then s1 else errReport 0 s1)

/-- A read answered with Completer Abort, logged in AER and, as Signaled Target Abort, in the Status register (R223). (DEDUCED, PRESUMED: log entries 4 and 64.) -/
def sendCa (b : Nat) (s : State) : State := aerUncor 15 (cfgOr 0x4 0x8000000#32 (completerAbort b s))

/-- A write of the host to its memory: with Memory Space Enable 0 it hits nothing and is an unsupported request (R222). -/
def hostMem (f : State → State) (s : State) : State := if s.pcie.memSpace then f s else aerUncor 20 s

/-- A register write of a privileged master: the host's is a memory write (R222). -/
def masterMem (m : Master) (f : State → State) (s : State) : State := match m with | .host => hostMem f s | .csq => f s

/-- The engine timeout in µs (R226). -/
def cplTimeoutUs (v : Nat) : Nat :=
  if v = 1 then 80 else if v = 2 then 8000 else if v = 5 then 32000 else if v = 6 then 128000 else if v = 9 then 512000
  else if v = 10 then 2000000 else if v = 13 then 8000000 else if v = 14 then 32000000 else 16000

/-- The engine timeout in ticks. -/
def cplTimeout (s : State) : Nat := cplTimeoutUs s.pcie.cto * usTicks

/-- Put a tag in quarantine for twice the engine timeout (R228). -/
def quarantine (tag : Nat) (s : State) : State :=
  { s with pcie := { s.pcie with quar := (tag, nowT s + 2 * cplTimeout s) :: s.pcie.quar.filter fun q => q.1 != tag } }

/-- A timed-out read is reported, and its tag quarantined (R227 item 1, R228). -/
def readTimedOut (tag addr : Nat) (s : State) : State :=
  let s1 := if bit (reg s 0x1802C).toNat 31 then s
    else setReg 0x1802C (BitVec.ofNat 32 (2 ^ 31 + addr / 2 ^ 32 % 2 ^ 20 * 2 ^ 10 + tag % 1024)) (setReg 0x18028 (BitVec.ofNat 32 addr) s)
  raise (srcPe 1) tag (aerUncor 14 (count 0x18118 (quarantine tag s1)))

/-- A request or completion received with the poisoned bit (R224), which is also a Detected Parity Error. (PRESUMED: log entry 4.) -/
def poisonedTlp (s : State) : State := raise (srcPe 8) 0 (aerUncor 12 (cfgOr 0x4 0x80000000#32 s))

/-- The bytes of a host read, if they arrived. -/
def hostData (d : HostRead) : Option Image := match d with | .data im => some im | _ => none

end Sys2Proof.Machine
end

