-- ==== Sys2Proof/Machine/Seqcore.lean ====
section
/-! DEFINITION. What every sequencer shares: names and homes (R286), raising traps (R304), machine checks (R310, R311), and the
endings that the engine gives to a command together with what ran for it. -/

namespace Sys2Proof.Machine

/-! ### The sequencers (R286) -/

/-- Whether a sequencer exists in this part (R3). -/
def seqPresent (s : State) (q : Nat) : Bool := decide (q < seqCount s)

/-- The quadrant of a sequencer of a quadrant. -/
def seqQuad (q : Nat) : Nat := (q - 4) / 6

/-- The master of a sequencer (R286, R323). -/
def seqMaster (q : Nat) : Nat := if q = 0 then 4 else if q = 1 then 5 else if q < 4 then 6 else seqQuad q

/-- The home bank and the frame slot of a sequencer (R286). -/
def seqBank (q : Nat) : Nat := if q < 2 then q else if q < 4 then 2 else 3 + seqQuad q
def seqSlot (q : Nat) : Nat := if q < 2 then 0 else if q < 4 then q - 2 else (q - 4) % 6

/-- The stack entries of a sequencer (R286). -/
def seqStack (q : Nat) : Nat := if q < 2 then 16 else 8

/-- The JSQs (R286). -/
def isJsq (q : Nat) : Bool := decide (4 ≤ q) && (q - 4) % 6 == 5

/-- The codec engine of a quadrant's JSQ. -/
def seqCodec (q : Nat) : Nat := seqQuad q

/-! ### Ends of commands -/

/-- What ran for a command is gone: its job, training, march, conjunction and the orders it left (R303). -/
def dropWork (o : Nat) (s : State) : State :=
  let s1 := { s with
    jobs := s.jobs.filter fun j => j.origin != o,
    train := match s.train with | some t => if t.origin = o then none else some t | none => none,
    tb := { s.tb with
      conj := match s.tb.conj with | some c => if c.origin = o then none else some c | none => none,
      order := match s.tb.order with | some x => if x.origin = o then none else some x | none => none },
    dram := { s.dram with trainOrigin := if s.dram.trainOrigin = some o then none else s.dram.trainOrigin },
    plans := { s.plans with admitting := match s.plans.admitting with | some x => if x.1 = o then none else some x | none => none },
    pwr := { s.pwr with orders := s.pwr.orders.filter fun x => x.1 != o } }
  match s1.banks.march with
  | some m => if m.origin = o then setRf 0x60100 31 31 0 { s1 with banks := { s1.banks with march := none } } else s1
  | none => s1

/-! ### Contexts and queues (R288, R298) -/

/-- A routine of words starts for a queued command (R288, R298). (DESIGN CHOICE: log entry 50.) -/
def startCmd (now : Nat) (c : QCmd) (x : Seqr) : Seqr :=
  { loadRegs now c x with state := .run, stack := [], queue := x.queue.filter fun k => k.origin != c.origin, wait := none,
                          tsafe := false, prePc := 0 }

/-- An idle sequencer starts the oldest queued command that has a context (R298). -/
def nextCmd (now : Nat) (x : Seqr) : Seqr :=
  let y := allot 4 now x
  if y.state = .idle then
    match y.queue.find? fun c => c.kind == .words && contextOf c.origin y with
    | some c => startCmd now c y
    | none => y
  else y

/-- A routine of words that runs for the command stops, its staged publications are discarded, and the next one starts (R303). -/
def stopRoutine (o now : Nat) (x : Seqr) : Seqr :=
  if (x.state == .run || x.state == .wait) && (nth x.ctxs x.ctx Ctx.reset).origin == some o then
    nextCmd now { x with ctxs := x.ctxs.map fun c => if c.origin = some o then Ctx.reset else c, state := .idle, wait := none, pubs := [] }
  else x

/-- The engine ends a command with its committed results and drops what ran for it (R303). -/
def killCmd (o status : Nat) (s : State) : State :=
  let s1 := dropWork o s
  endBy o status { s1 with seqs := s1.seqs.map fun p => (p.1, stopRoutine o s1.tb.time p.2) }

/-- The CLQ of a cluster (R286). -/
def clqOf (c : Nat) : Nat := 4 + 6 * (c / 4) + c % 4

/-- Whether a command runs on sequencer q, as its home or as a helper (R287): LINK_TRAIN on the CLQs of its lanes, DRAM_TRAIN on every
MSQ. (DESIGN CHOICE: log entry 50.) -/
def runsOn (s : State) (c : Cmd) (q : Nat) : Bool :=
  c.home == q ||
    (c.opcode == opLinkTrain && (match s.train with
      | some t => (t.cur ++ t.waves.flatten).any fun n => decide (n < 128) && clqOf (n / 8) == q
      | none => false)) ||
    (c.opcode == opDramTrain && decide (4 ≤ q) && (q - 4) % 6 == 4)

/-! ### Machine checks (R310, R311) -/

/-- Parity groups of a control-store word that fail (R289). -/
def parityFails (w : BitVec 144) : Nat :=
  maskOfList (numsWhere 8 fun k =>
    ((List.range 17).filter fun i => w.getLsbD (17 * k + i)).length % 2 == (if w.getLsbD (136 + k) then 1 else 0))

/-- A sequencer stops with a machine check: its staged effects are discarded, and the commands it was running end, but an ARM. -/
def machineCheck (q code pgrp : Nat) (s : State) : State :=
  let x := sq s q
  if x.state == .stopped || !seqPresent s q then s
  else
    let s1 := setSq q { x with state := .stopped, pubs := [], pendTrap := [], inTrap := none, queue := [] } s
    let s2 := setReg (sqBase q + 8) (BitVec.ofNat 32 (2 ^ 31 + code * 2 ^ 24 + pgrp * 2 ^ 16 + x.pc)) s1
    let s3 := raise (srcSq q 0) code s2
    ((s3.cmds.filter fun c => runsOn s c q && c.opcode != opArm).map fun c => c.origin).foldl (fun z o => killCmd o stMachineCheck z) s3

/-! ### Traps (R304) -/

/-- Priority of a trap cause, 1 first, and its code and vector word. -/
def trapPrio (c : TrapCause) : Nat := match c with | .priv => 1 | .unit => 2 | .wdog => 3 | .abort => 4 | .preempt => 5
def trapCode (c : TrapCause) : Nat := match c with | .priv => 5 | .unit => 3 | .wdog => 4 | .abort => 1 | .preempt => 2

/-- Raise a trap cause with its detail: the two privileged sequencers take only UNIT and WDOG, and a UNIT cause inside a handler is a
machine check (R304, R310). -/
def raiseTrap (q : Nat) (c : TrapCause) (detail : Nat) (s : State) : State :=
  let x := sq s q
  if !seqPresent s q || x.state == .stopped || (decide (q < 2) && c != .unit && c != .wdog) then s
  else if c = .unit ∧ x.inTrap.isSome then machineCheck q 7 0 s
  else if x.pendTrap.any fun p => p.1 == c && ((c != .abort && c != .preempt) || p.2 == detail) then s
  else setSq q { x with pendTrap := x.pendTrap ++ [(c, detail)], tsafe := x.tsafe && !x.pendTrap.isEmpty,
                        prePc := if x.pendTrap.isEmpty then 0 else x.prePc } s

/-- A UNIT cause: the unit and the error code are the detail (R306). (DEDUCED: log entry 54.) -/
def unitTrap (q unit err : Nat) (s : State) : State := raiseTrap q .unit (unit * 65536 + err) s

/-! ### Codec engines -/

/-- A job ends with its own results at a point that publishes nothing (R264, R280). -/
def failJob (o status : Nat) (x0 x1 x2 : Nat) (s : State) : State :=
  finishLong o status (BitVec.ofNat 64 x0) (BitVec.ofNat 64 x1) (BitVec.ofNat 64 x2) (dropWork o s)

/-- The running codec job whose block a codec engine has in work: the oldest of its quadrant. -/
def codecJob (s : State) (x : Nat) : Option Job :=
  s.jobs.find? fun j => j.quad == x && j.running && (j.kind == .compress || j.kind == .decompress || j.kind == .verify)

/-- The next block of the quadrant's first BLOCK stream with an open record falls back to STORED (R141, R280). -/
def spoilBlock (x : Nat) (s : State) : State :=
  match s.streams.find? fun p => p.2.active && pSfmt (plan s) p.1 == 3 && pStCluster (plan s) p.1 / 4 == x && !p.2.op.isEmpty with
  | some p => setStrm p.1 { p.2 with vbad := true } s
  | none => s

/-- The block in work fails as under R280: that of a job, or else that of a BLOCK record. (DESIGN CHOICE: log entry 58.) -/
def failBlock (x : Nat) (s : State) : State :=
  match codecJob s x with
  | none => spoilBlock x s
  | some j =>
    let bound := if j.kind = .compress then codedBound (j.p.getD 1 0).toNat else 0
    failJob j.origin stVerifyMismatch 0 bound j.count (setSource (srcCx x 0) (count (cxCtr x 7) s))

end Sys2Proof.Machine
end

