-- ==== Sys2Proof/Machine/Banks.lean ====
section
/-! DEFINITION. Scratch banks (R322 to R331): ownership, handover, accesses through the two ports, collisions and errors; and trap
frames (R305 to R307), which stand in them. -/

namespace Sys2Proof.Machine

/-! ### Ownership (R323 to R327) -/

/-- Words of a bank, and the key of a word among all banks. -/
def bankWords : Nat := 262144
def wordKey (k w : Nat) : Nat := bankWords * k + w

/-- BANKOWNk and its fields. -/
def ownOff (k : Nat) : Nat := 0x60000 + 4 * k
def ownerOf (s : State) (k : Nat) : Nat := rf s (ownOff k) 7 4
def guestOf (s : State) (k : Nat) : Nat := rf s (ownOff k) 15 12
def pendOf (s : State) (k : Nat) : Bool := rf s (ownOff k) 31 31 == 1

/-- The master code of a user (R286, R323). -/
def userCode (m : BankUser) : Nat := match m with | .host => 0xB | .seq q => seqMaster q | .codec x => 7 + x

/-- Whether a user exists in this part (R3). -/
def userPresent (s : State) (m : BankUser) : Bool :=
  match m with | .host => true | .seq q => seqPresent s q | .codec x => decide (x < quads s)

/-- Whether a master code may own a bank: codes 0xD and 0xE are reserved, 0xF is for the guest field, and those of absent quadrants name
no master (R323, R3). (DEDUCED: log entry 47.) -/
def masterCode (s : State) (c : Nat) : Bool :=
  if c < 4 then decide (c < quads s) else if c < 7 then true else if c < 0xB then decide (c - 7 < quads s) else decide (c ≤ 0xC)

/-- The first word of a bank's trap area (R324). -/
def trapWord : Nat := 0x1F0000 / 8

/-- The port that serves an access: `some true` the owner port, `some false` the other port, none for a master that may not make it. While
a handover is pending the owner port accepts nothing new (R322, R324, R326, R327). (DEDUCED: log entry 47.) -/
def portFor (s : State) (m : BankUser) (k w : Nat) (op : PortOp) : Option Bool :=
  let writes := op != .read
  let isSeq := match m with | .seq _ => true | _ => false
  if !userPresent s m || decide (12 ≤ k) || decide (bankWords ≤ w) then none
  else if userCode m == ownerOf s k then
    if pendOf s k || (decide (trapWord ≤ w) && writes && !isSeq) then none else some true
  else if userCode m == guestOf s k && decide (w < trapWord) then some false
  else none

/-! ### Accesses (R328 to R331) -/

/-- A word as stored. -/
def bankWord (s : State) (k w : Nat) : W64 := BitVec.ofNat 64 (memLE s.banks.mem (8 * wordKey k w) 8)

/-- Whether a stored word reads as uncorrectable. -/
def bankPoison (s : State) (k w : Nat) : Bool := s.banks.poison.contains (wordKey k w)

/-- Store a word with valid check bits; a write-back of the word is no longer due (R331). -/
def putWord (k w : Nat) (v : W64) (s : State) : State :=
  let key := wordKey k w
  { s with banks := { s.banks with mem := memPut s.banks.mem (8 * key) (leBytes 8 v.toNat),
                                   poison := s.banks.poison.filter fun x => x != key,
                                   fix := s.banks.fix.filter fun x => x != key } }

/-- Store a word that reads as uncorrectable. -/
def spoilWord (k w : Nat) (v : W64) (s : State) : State :=
  let t := putWord k w v s
  { t with banks := { t.banks with poison := wordKey k w :: t.banks.poison } }

/-- An uncorrectable read: counted, logged and reported (R331, R338). -/
def bankUe (k w : Nat) (s : State) : State :=
  let s1 := count (bankCtr k 7) s
  let s2 := if bit (reg s1 (0x60080 + 4 * k)).toNat 31 then s1 else setReg (0x60080 + 4 * k) (BitVec.ofNat 32 (2 ^ 31 + 8 * w)) s1
  raise (srcBnk k 1) (8 * w) s2

/-- What the SECDED check of a read finds (R331): a corrected word waits for its write-back; a word that has failed stays failed. (DEDUCED, DESIGN CHOICE: log entries 45 and 78.) -/
def bankEcc (k w : Nat) (ecc : Ecc) (s : State) : State :=
  match ecc with
  | .good => s
  | .corrected _ =>
    if bankPoison s k w then s
    else raise (srcBnk k 0) (8 * w)
      (count (bankCtr k 6) { s with banks := { s.banks with fix := wordKey k w :: s.banks.fix.filter fun x => x != wordKey k w } })
  | .uncorrectable f => spoilWord k w (bankWord s k w ^^^ BitVec.ofNat 64 f) s

/-- One access, already allowed: the value it returns, whether that is poisoned, and the bank after it. An atomic on a word that cannot
be read is not made (R328, R331). (DEDUCED: log entry 48.) -/
def bankOp (owner : Bool) (k w : Nat) (op : PortOp) (s : State) : (W64 × Bool) × State :=
  let v := bankWord s k w
  let bad := bankPoison s k w
  let seen (t : State) : State := if bad then bankUe k w t else t
  match op with
  | .read => ((v, bad), seen (count (bankCtr k (if owner then 0 else 2)) s))
  | .write x => ((v, false), putWord k w x (count (bankCtr k (if owner then 1 else 3)) s))
  | .fetchAdd d => ((v, bad), if bad then seen (count (bankCtr k 4) s) else putWord k w (v + d) (count (bankCtr k 4) s))
  | .swap x => ((v, bad), if bad then seen (count (bankCtr k 4) s) else putWord k w x (count (bankCtr k 4) s))

/-- Whether an operation writes. -/
def opWrites (op : PortOp) : Bool := op != .read

/-- Whether an operation returns a value. -/
def opReturns (op : PortOp) : Bool := match op with | .write _ => false | _ => true

/-- An access without ownership (R327): the host's request is answered by its own rule. -/
def notOwned (m : BankUser) (k w : Nat) (s : State) : State :=
  let s1 := raise (srcBnk k 3) (8 * w) s
  match m with
  | .host => s1
  | .seq q => unitTrap q (0x60000 / 0x400) 3 s1
  | .codec x => failBlock x s1

/-- What the requester does with a value (R291, R294, R304, R284). The host's answer is posted by its own rule. -/
def bankDeliver (m : BankUser) (op : PortOp) (v : W64) (bad : Bool) (s : State) : State :=
  if !opReturns op then s
  else match m with
    | .host => s
    | .seq q =>
      let s1 := setSq q { sq s q with mdr := v, poison := bad } s
      if bad then unitTrap q (0x60000 / 0x400) 1 s1 else s1
    | .codec x => if bad then failBlock x (raise (srcCx x 4) 0 s) else s

/-- One access: refused, or served with what it returns (R327, R328). -/
def bankAccess (m : BankUser) (k w : Nat) (op : PortOp) (s : State) : Option (W64 × Bool) × State :=
  match portFor s m k w op with
  | none => (none, if k < 12 then notOwned m k w s else s)
  | some owner =>
    let r := bankOp owner k w op s
    (some r.1, bankDeliver m op r.1.1 r.1.2 r.2)

/-- The host's answer to a bank read made on its own, outside R220's view: the 8 bytes, or Completer Abort. -/
def hostAnswer (m : BankUser) (r : Option (W64 × Bool)) (s : State) : State :=
  match m, r with
  | .host, some (v, bad) => post (.readData (leBytes 8 v.toNat) bad) s
  | .host, none => sendCa 11 s
  | _, _ => s

/-- Whether a user makes an access through a given port; the host makes no atomics (R222, R322). -/
def usesPort (s : State) (owner : Bool) (u : BankUser) (k w : Nat) (op : PortOp) : Bool :=
  portFor s u k w op == some owner && !(u == .host && op != .read && match op with | .write _ => false | _ => true)

/-- What the access of the other port returns goes to its master. -/
def deliverTo (u : BankUser) (op : PortOp) (r : W64 × Bool) (s : State) : State :=
  bankDeliver u op r.1 r.2 (if opReturns op then hostAnswer u (some r) s else s)

/-- Two accesses to one word in one cycle: the other port's goes first, the owner port's second; two writes collide (R329, R330). (DEDUCED, DESIGN CHOICE: log entries 48 and 77.) -/
def bankPair (m : BankUser) (k w : Nat) (op : PortOp) (other : Option (BankUser × PortOp)) (s : State) : State :=
  match portFor s m k w op, other with
  | some owner, some (u, o2) =>
    if usesPort s (!owner) u k w o2 then
      let t :=
        if owner then
          let a := bankOp false k w o2 s
          let b := bankOp true k w op a.2
          deliverTo m op b.1 (deliverTo u o2 a.1 b.2)
        else
          let a := bankOp false k w op s
          let b := bankOp true k w o2 a.2
          deliverTo u o2 b.1 (deliverTo m op a.1 b.2)
      if opWrites op && opWrites o2 then setSource (srcBnk k 2) (count (bankCtr k 5) t) else t
    else (bankAccess m k w op s).2
  | _, _ => (bankAccess m k w op s).2

/-- The KIND of a dropped write to the scratch-bank view (R223). -/
def kindBank : Nat := 4

/-- BANK_READ. -/
def doBankRead (m : BankUser) (k w : Nat) (ecc : Ecc) (s : State) : State :=
  if 12 ≤ k ∨ bankWords ≤ w ∨ !userPresent s m then s
  else
    let s1 := if (portFor s m k w .read).isSome then
        let t := bankEcc k w ecc s
        match m, ecc with
        | .codec x, .corrected _ => raise (srcCx x 5) 0 t
        | _, _ => t
      else s
    let r := bankAccess m k w .read s1
    hostAnswer m r.1 r.2

/-- The meaning of BANK_READ. -/
def execBankRead (m : BankUser) (k w : Nat) (ecc : Ecc) (s : State) : Out := engineStep s (doBankRead m k w ecc s)

/-- A write or an atomic. A host write that is refused is a bus error (R220, R327). -/
def doBankOp (m : BankUser) (k w : Nat) (op : PortOp) (other : Option (BankUser × PortOp)) (s : State) : State :=
  if 12 ≤ k ∨ bankWords ≤ w ∨ !userPresent s m then s
  else
    let s1 := bankPair m k w op other s
    match m with
    | .host => if (portFor s m k w op).isNone then busError kindBank 2 (0x200000 * k + 8 * w) s1 else s1
    | _ => s1

/-- BANK_WRITE, FETCH_ADD and SWAP. The host window makes no atomics: R222 refuses its AtomicOp requests. -/
def doBankWrite (m : BankUser) (k w : Nat) (v : W64) (other : Option (BankUser × PortOp)) (s : State) : State := doBankOp m k w (.write v) other s
def doFetchAdd (m : BankUser) (k w : Nat) (d : W64) (other : Option (BankUser × PortOp)) (s : State) : State :=
  if m = .host then s else doBankOp m k w (.fetchAdd d) other s
def doSwap (m : BankUser) (k w : Nat) (v : W64) (other : Option (BankUser × PortOp)) (s : State) : State :=
  if m = .host then s else doBankOp m k w (.swap v) other s

/-- The meaning of BANK_WRITE. -/
def execBankWrite (m : BankUser) (k w : Nat) (v : W64) (other : Option (BankUser × PortOp)) (s : State) : Out := engineStep s (doBankWrite m k w v other s)

/-- The meaning of FETCH_ADD. -/
def execFetchAdd (m : BankUser) (k w : Nat) (d : W64) (other : Option (BankUser × PortOp)) (s : State) : Out := engineStep s (doFetchAdd m k w d other s)

/-- The meaning of SWAP. -/
def execSwap (m : BankUser) (k w : Nat) (v : W64) (other : Option (BankUser × PortOp)) (s : State) : Out := engineStep s (doSwap m k w v other s)

/-- CORRECTED_WRITE_BACK: the corrected word is written back, unless a write reached it first (R331). -/
def doWriteBack (k w : Nat) (s : State) : State :=
  { s with banks := { s.banks with fix := s.banks.fix.filter fun x => x != wordKey k w } }

/-- The meaning of CORRECTED_WRITE_BACK. -/
def execCorrectedWriteBack (k w : Nat) (s : State) : Out := engineStep s (doWriteBack k w s)

/-! ### Handover (R325, R326) -/

/-- The march engine runs a MARCH_RUN on bank k. -/
def marching (s : State) (k : Nat) : Bool := match s.banks.march with | some m => bit m.mask k | none => false

/-- Whether a user may write BANKOWNk: the current owner or a privileged master (R325). (DEDUCED: log entry 47.) -/
def mayHand (s : State) (m : BankUser) (k : Nat) : Bool :=
  match m with
  | .seq q => q == 1 || seqMaster q == ownerOf s k
  | .host => ownerOf s k == 0xB || rf s 0x14 31 31 == 1
  | .codec _ => false

/-- Whether a BANKOWN write is dropped for its values or the bank's state (R325). -/
def handBad (s : State) (k new guest : Nat) : Bool :=
  pendOf s k || !masterCode s new || !(guest == 0xF || masterCode s guest) || (new == 0xC && marching s k) ||
    guest == 0xB || guest == 0xC || guest == new

/-- A dropped BANKOWN write (R325). -/
def handDrop (m : BankUser) (k kind : Nat) (s : State) : State :=
  match m with
  | .host => busError kind 0 (ownOff k) s
  | .seq q => unitTrap q (0x60000 / 0x400) kind s
  | .codec _ => s

/-- The handover takes effect (R326). (DEDUCED: log entry 47.) -/
def handOver (k : Nat) (s : State) : State :=
  let old := ownerOf s k
  let new := rf s (ownOff k) 3 0
  let s1 := setRf (ownOff k) 31 31 0 (setRf (ownOff k) 7 4 new s)
  let s2 := if new = 0xC then setRf (ownOff k) 19 16 old s1 else s1
  setSource (srcBnk k 4) (count (bankCtr k 9) s2)

/-- BANKOWN_WRITE. (DEDUCED: log entry 47.) -/
def doBankown (m : BankUser) (k : Nat) (v : W32) (s : State) : State :=
  let new := fld v 3 0
  let guest := fld v 15 12
  if 12 ≤ k ∨ !userPresent s m then s
  else if !mayHand s m k then handDrop m k 7 s
  else if handBad s k new guest then handDrop m k 6 s
  else
    let s1 := setRf (ownOff k) 15 12 guest (setRf (ownOff k) 3 0 new s)
    if new = ownerOf s k then s1 else setRf (ownOff k) 31 31 1 s1

/-- The meaning of BANKOWN_WRITE. -/
def execBankownWrite (m : BankUser) (k : Nat) (v : W32) (s : State) : Out :=
  engineStep s (match m with | .host => hostMem (doBankown m k v) s | _ => doBankown m k v s)

/-- HANDOVER: every access of a command is over when the command is, so none is in flight. (DEDUCED: log entry 47.) -/
def doHandover (k : Nat) (s : State) : State := if k < 12 ∧ pendOf s k then handOver k s else s

/-- The meaning of HANDOVER. -/
def execHandover (k : Nat) (s : State) : Out := engineStep s (doHandover k s)

/-- What the banks do by themselves: corrected words are written back, and handovers take effect, no access being in flight (R326, R331). -/
def banksTime (s : State) : State :=
  (List.range 12).foldl (fun z k => doHandover k z) { s with banks := { s.banks with fix := [] } }

/-! ### Trap frames (R305 to R307) -/

/-- The first word of a sequencer's frame in its home bank (R306). -/
def frameWord (q : Nat) : Nat := trapWord + 64 * seqSlot q

/-- Words 0 to 62 of the frame (R306). -/
def frameBody (s : State) (q : Nat) (c : TrapCause) (detail : Nat) : List Nat :=
  let x := sq s q
  let inFlight := b2n (x.memBusy || x.hostBusy)
  let aborts := maskOfList (numsWhere 4 fun i => (nth x.ctxs i Ctx.reset).abort)
  [x.pc + trapCode c * 2 ^ 16 + x.ctx * 2 ^ 20 + inFlight * 2 ^ 22,
   x.flags.toNat + x.stack.length * 2 ^ 4 + aborts * 2 ^ 12] ++
    (List.range 16).map (fun i => (nth x.stack i 0).toNat) ++
    (List.range 4).map (fun i => nth x.lc i 0) ++
    (List.range 32).map (fun i => (nth x.w i 0).toNat) ++
    [x.mar.toNat, x.mdr.toNat, x.xdr.toNat, detail, s.tb.tick / 32 * 32, 0, 0, 0, 0]

/-- A frame with its check word (R306). -/
def sealFrame (ws : List Nat) : List Nat := ws ++ [crc32c (ws.flatMap fun v => leBytes 8 v)]

/-- Write a frame through the sequencer's master port. -/
def writeFrame (q : Nat) (ws : List Nat) (s : State) : State :=
  (ws.zip (List.range 64)).foldl (fun z p => (bankOp true (seqBank q) (frameWord q + p.2) (.write (BitVec.ofNat 64 p.1)) z).2) s

/-- Whether a sequencer's master owns its home bank, as a frame needs (R306). -/
def frameOwned (s : State) (q : Nat) : Bool := ownerOf s (seqBank q) == seqMaster q && !pendOf s (seqBank q)

/-- The trap counter of a cause (R321), and its SQEVT bit, if it has one (R319). -/
def trapCtr (c : TrapCause) : Nat := match c with | .abort => 0 | .preempt => 1 | .unit => 2 | .wdog => 3 | .priv => 4
def trapBit (c : TrapCause) : Option Nat := match c with | .wdog => some 3 | .priv => some 2 | .unit => some 1 | _ => none

/-- SQTRAPLOG records a PRIV or UNIT trap, the first since its last read (R319). -/
def trapLog (q : Nat) (c : TrapCause) (s : State) : State :=
  let o := sqBase q + 0xC
  if (c = .priv ∨ c = .unit) ∧ !bit (reg s o).toNat 31 then setReg o (BitVec.ofNat 32 (2 ^ 31 + trapCode c * 2 ^ 24 + (sq s q).pc)) s else s

/-- Entry into a handler: the frame is saved, the trap counted, logged and reported (R305, R306). A frame that cannot be saved is a machine
check. -/
def enterTrap (q : Nat) (c : TrapCause) (detail : Nat) (s : State) : State :=
  if !frameOwned s q then machineCheck q 5 0 s
  else
    let s1 := writeFrame q (sealFrame (frameBody s q c detail)) s
    let s2 := trapLog q c (count (sqCtr q (trapCtr c)) s1)
    match trapBit c with
    | some b => raise (srcSq q b) (trapCode c) s2
    | none => s2

end Sys2Proof.Machine
end

