-- ==== Sys2Proof/Machine/Submission.lean ====
section
/-! DEFINITION. Examination, refusal and acceptance of submission entries (R246 to R250, R407), shared by every command. -/

namespace Sys2Proof.Machine

/-! ### The dispatch table (R297, R313) -/

/-- The dispatch entry of an opcode: as written since boot, or of the base image. -/
def dispEntry (s : State) (op : Nat) : W32 :=
  match tblFind s.stores.disp (op % 1024) with
  | some v => v
  | none => match s.stores.base with
    | some im => BitVec.ofNat 32 (imLE im (256 + 4 * (op % 1024)) 4)
    | none => 0

/-- Whether an opcode has a routine (R250, R297); with no valid boot image only NOP and IDENTIFY have one (R313). (DESIGN CHOICE: log entry 76.) -/
def opValid (s : State) (op : Nat) : Bool :=
  if 1024 ≤ op then false
  else if isOpenArea op then tblGet s.stores.oaEntry (op - 0x200) 0 != 0
  else match s.stores.base with
    | none => op == opNop || op == opIdentify
    | some _ => bit (dispEntry s op).toNat 31

/-- MCVER (R315). (DESIGN CHOICE: log entry 76.) -/
def mcver (s : State) : W64 :=
  match s.stores.base with
  | none => 0
  | some im => BitVec.ofNat 64 (s.stores.digest.toNat * 2 ^ 32 + imLE im 10 2 * 2 ^ 16 + s.stores.patch % 2 ^ 16)

/-! ### Reads of host memory (R225) -/

/-- The tags the engine may use (R225). -/
def tagOk (s : State) (t : Nat) : Bool := if s.pcie.tenBit then decide (256 ≤ t) else decide (t < 256)

/-- The lowest usable tag that is neither outstanding nor in quarantine (R225). -/
def freeTag (s : State) : Option Nat :=
  (List.range 1024).find? fun t => tagOk s t && !(s.pcie.reads.any fun x => x.tag == t) && !(s.pcie.quar.any fun q => q.1 == t)

/-- Whether the engine may send requests to host memory (R214, R229). -/
def canMaster (s : State) : Bool := s.pcie.bme && !s.pcie.d3

/-- Reads that wait take tags, in order, and are transmitted (R225); not while the function may not master the bus. -/
def pumpReads (fuel : Nat) (s : State) : State :=
  match fuel, s.pcie.waitq, if canMaster s then freeTag s else none with
  | f + 1, x :: rest, some t =>
    pumpReads f { s with pcie := { s.pcie with waitq := rest, reads := s.pcie.reads ++ [{ x with tag := t, at_ := nowT s }] } }
  | _, _, _ => s

/-- Issue a read of host memory; with no tag it waits, and PEEVT.QUARFULL is set (R225). -/
def issueRead (addr len : Nat) (why : ReadFor) (s : State) : State :=
  let x : HRead := { tag := 0, addr := addr, len := len, at_ := nowT s, data := [], by_ := why }
  let s1 := pumpReads 1 { s with pcie := { s.pcie with waitq := s.pcie.waitq ++ [x] } }
  if s1.pcie.waitq.isEmpty || (freeTag s1).isSome then s1 else setSource (srcPe 15) s1

/-- The pieces of a transfer: reads of at most Max_Read_Request_Size that cross no 4 KiB boundary (R225). Each piece is at least one byte, so a
fuel of `len` is never used up. -/
def xferPieces (fuel mrrs addr len : Nat) : List (Nat × Nat) :=
  match fuel with
  | 0 => []
  | f + 1 =>
    if len = 0 then []
    else
      let n := max 1 (min len (min mrrs (4096 - addr % 4096)))
      (addr, n) :: xferPieces f mrrs (addr + n) (len - n)

/-- A transfer from host memory begins (R225). -/
def startXfer (w : XferFor) (addr len : Nat) (s : State) : State :=
  let s1 := { s with pcie := { s.pcie with xfers := s.pcie.xfers ++ [{ whose := w, addr := addr, len := len, got := [] }] } }
  (xferPieces len s.pcie.mrrs addr len).foldl (fun z p => issueRead p.1 p.2 (.xfer w) z) s1

/-- Whether the entry of ring `r` in examination waits for a transfer. -/
def readingEntry (s : State) (r : Nat) : Bool := s.pcie.xfers.any fun x => match x.whose with | .cmd k _ _ => k == r | .job _ => false

/-! ### Examination -/

/-- Whether a sequencer is stopped (R311). -/
def sqStopped (s : State) (q : Nat) : Bool := (sq s q).state == .stopped

/-- Whether a short command of ring `r` is accepted and not ended: its ring's next entry waits for its completion (R247). -/
def shortOpen (s : State) (r : Nat) : Bool := s.cmds.any fun c => c.ring == r && !isLong c.opcode

/-- Whether a fetch of ring `r` is outstanding. -/
def fetching (s : State) (r : Nat) : Bool := (s.pcie.reads ++ s.pcie.waitq).any fun x => x.by_ == .fetch r

/-- Whether a command waits for a free context of its home: DSQ holds it and examines no later entry of its ring (R298). -/
def dspHeld (s : State) (r : Nat) : Bool :=
  s.seqs.any fun p => p.2.queue.any fun c => !contextOf c.origin p.2 && s.cmds.any fun k => k.origin == c.origin && k.ring == r

/-- Whether the journal entry of ring `r`'s previous command is not yet committed (R247). -/
def ringUncommitted (s : State) (r : Nat) : Bool :=
  s.jr.wait.any fun w => match w.body with | .accept k _ _ _ _ => k == r | .complete k _ _ _ _ _ _ _ => k == r | _ => false

/-- Whether the engine examines the entry at the engine index of ring `r` now: one that it has read, also on a ring that has halted since (R246 to
R249, R26, R217, R311). (DEDUCED: log entry 65.) -/
def examinable (s : State) (r : Nat) : Bool :=
  match ring? s r with
  | none => false
  | some x =>
    x.type == .sub && x.eng != x.got && s.pcie.ready && !s.pwr.warm && !sqStopped s 0 && !shortOpen s r && !dspHeld s r &&
      !ringUncommitted s r && !readingEntry s r && (match ring? s x.pair with | some c => c.held.isEmpty | none => false)

/-- The engine index of ring `r`. -/
def engIdx (s : State) (r : Nat) : Nat := match ring? s r with | some x => x.eng | none => 0

/-- Pass the entry at the engine index. -/
def passEntry (r : Nat) (s : State) : State :=
  match ring? s r with
  | none => s
  | some x => setRing r { x with eng := (x.eng + 1) % x.z } s

/-- A refusal: status and the three results (R202). -/
structure Refuse where
  status : Nat
  x0 : W64
  x1 : W64
  x2 : W64
  deriving DecidableEq, Repr

/-- A refusal without results (R251). -/
def plainRefuse (st : Nat) : Refuse := { status := st, x0 := 0, x1 := 0, x2 := 0 }

/-- Refuse a command: its COMPLETE entry, one final completion, and nothing else (R246). -/
def refuse (r op : Nat) (e : Entry) (v : Refuse) (s : State) : State :=
  let s1 := jcommit (.complete r v.status e.tag v.x0 v.x1 v.x2 none op) s
  setSource (srcCap1 0) (postCpl r e.tag v.status true v.x0 v.x1 v.x2 s1)

/-- Accept a command: its ACCEPT entry, and the command is open (R246). The ORIGIN is the entry's JSEQ. -/
def accept (r op home idx : Nat) (e : Entry) (s : State) : State :=
  let o := s.jr.next
  let s1 := jcommit (.accept r op e.tag idx o) s
  { s1 with cmds := s1.cmds ++ [{ ring := r, opcode := op, tag := e.tag, origin := o, c0 := 0, c1 := 0, c2 := 0, abort := false,
                                  home := home, lost := false }] }

/-- How a command of a row is judged and what it does. `bad`: R407 item 3; `busy`: item 4, in its order; `zero`: nothing to
do (R259), and `zrun` its end; `acc`: the results of ACCEPTED of a long command; `run`: its effect, given its ORIGIN. `homes` are its home and
helper sequencers (R286, R287). -/
structure CmdRow where
  homes : List Nat
  bad : State → Bool
  busy : State → Option Refuse
  zero : Bool
  zrun : Nat → State → State
  acc : State → W64 × W64
  run : Nat → State → State

/-- The opcodes of which at most one is accepted and not ended (R248). -/
def single (op : Nat) : Bool := [opArm, opLinkTrain, opDramTrain, opConjunction, opMarchRun].contains op

/-- Whether a sequencer is clock-gated in PS2 and PS3 (R363, R366). -/
def gatedHome (q : Nat) : Bool := decide (4 ≤ q)

/-- The commands that a running PLAN_ADMIT refuses (R200). -/
def admitBars (op : Nat) : Bool :=
  [opPlanAdmit, opPlanLoad, opPlanRelease, opArm, opLinkTrain, opPopulationSet, opDramTrain, opTimebaseSet, opConjunction].contains op

/-- The engine-state refusals that concern every command: trip (R375), a running PLAN_ADMIT (R200), stopped home or helper (R311), power state (R366), and the
limits of R248. -/
def commonBusy (op : Nat) (homes : List Nat) (s : State) : Bool :=
  (tripped s && !tripAllows op) || homes.any (sqStopped s) ||
    (decide (2 ≤ pwrState s) && homes.any gatedHome) ||
    (pwrState s == 1 && (op == opLaneSet || op == opLinkTrain)) || (admitting s && admitBars op) ||
    (single op && (openOp s op).isSome) || (isJob op && decide (256 ≤ s.jobs.length))

/-- The home of a command as the dispatch table names it: a sequencer, the JSQ of the quadrant in P6, or the JSQ that its kind chooses (R297). -/
def homeIn (s : State) (op : Nat) (e : Entry) (dflt : Nat) : Nat :=
  if s.stores.base.isNone || isOpenArea op then dflt
  else
    let h := fld (dispEntry s op) 26 22
    if h < 28 then h else if h = 28 then jsqOf (bits e.p6.toNat 1 0) else dflt

/-- The home and the helpers of a command (R287, R297). -/
def rowHomes (s : State) (op : Nat) (e : Entry) (hs : List Nat) : List Nat := homeIn s op e (hs.headD 0) :: hs.tail

/-- Judge an examined entry: a refusal under R407, or none. (DEDUCED: log entry 20.) -/
def judge (r op : Nat) (e : Entry) (k : CmdRow) (s : State) : Option Refuse :=
  if !opValid s op then some (plainRefuse stBadOpcode)
  else if ring0Only op && r != 0 then some (plainRefuse stNotPrivileged)
  else if !entryClean op e || k.bad s then some (plainRefuse stBadParam)
  else if commonBusy op (rowHomes s op e k.homes) s then some (plainRefuse stBusy)
  else k.busy s

/-- Bytes 0 to 7 of a submission entry (R244). -/
def opWordOf (op : Nat) (e : Entry) : W64 :=
  BitVec.ofNat 64 (op + e.flags.toNat * 2 ^ 16 + e.rsvd.toNat * 2 ^ 24 + e.tag.toNat * 2 ^ 32)

/-- The entry of a command as its routine's registers hold it (R244, R288). -/
def entryOfRegs (w0 : W64) (ps : List W64) : Entry :=
  { flags := (w0 >>> 16).setWidth 8, rsvd := (w0 >>> 24).setWidth 8, tag := (w0 >>> 32).setWidth 32, p0 := nth ps 0 0, p1 := nth ps 1 0, p2 := nth ps 2 0,
    p3 := nth ps 3 0, p4 := nth ps 4 0, p5 := nth ps 5 0, p6 := nth ps 6 0 }

/-- The first word of an opcode's routine (R297). -/
def entryWord (s : State) (op : Nat) : Nat := if isOpenArea op then tblGet s.stores.oaEntry (op - 0x200) 0 else fld (dispEntry s op) 13 0

/-- DSQ gives a command to its home sequencer (R298). -/
def placeCmd (q op : Nat) (e : Entry) (o : Nat) (kind : QKind) (s : State) : State :=
  let x := sq s q
  setSq q (allot 4 (nowT s) { x with queue := x.queue ++ [{ origin := o, entryPc := entryWord s op, opword := opWordOf op e, params := ePs e, kind := kind }] }) s

/-- Whether a sequencer runs a long routine: of words, or of a command with a context there that its meaning carries out (R299). -/
def runsLong (s : State) (q : Nat) : Bool :=
  inRoutine (sq s q) || s.cmds.any fun c => c.home == q && isLong c.opcode && c.opcode != opArm && contextOf c.origin (sq s q)

/-- Carry out an accepted command: DONE_ZERO alone when there is nothing to do, ACCEPTED first for a long command, which takes a context of its home (R246,
R298). A short command at a sequencer that is not privileged and runs a long routine raises a preemption trap there, whose handler runs it (R299). -/
def carryOut (r op : Nat) (e : Entry) (k : CmdRow) (o : Nat) (s : State) : State :=
  let q := homeIn s op e (k.homes.headD 0)
  let s := count (sqCtr q 7) s
  if k.zero then k.zrun o s
  else if isOpenArea op then k.run o (postCpl r e.tag stAccepted false (k.acc s).1 (k.acc s).2 0 s)
  else if !opcodes.contains op then k.run o s
  else if isLong op then k.run o (placeCmd q op e o .native (postCpl r e.tag stAccepted false (k.acc s).1 (k.acc s).2 0 s))
  else if decide (2 ≤ q) && runsLong s q then raiseTrap q .preempt o (placeCmd q op e o .preempt s)
  else k.run o (placeCmd q op e o .native s)

/-- The entry at the engine index is judged, and refused or accepted (R246). (DEDUCED, DESIGN CHOICE: log entries 20 and 50.) -/
def submitNow (r op : Nat) (e : Entry) (k : CmdRow) (s : State) : State :=
  let idx := engIdx s r
  let s1 := passEntry r s
  match judge r op e k s1 with
  | some v => refuse r op e v s1
  | none => carryOut r op e k s1.jr.next (accept r op (homeIn s1 op e (k.homes.headD 0)) idx e s1)

/-- Examine one entry (R246). -/
def submit (r op : Nat) (e : Entry) (k : CmdRow) (s : State) : State := if examinable s r then submitNow r op e k s else s

/-- Examine the entry of a command that reads `len` bytes of host memory before it is accepted: what can be judged without them is judged first,
then the transfer begins, and its end judges the entry again (R225, R246); with Bus Master Enable 0 there is no transfer (R229). `k` is the row by what the
transfer has brought. (DEDUCED: log entry 20.) -/
def submitRead (r op : Nat) (e : Entry) (addr len : Nat) (k : HostRead → CmdRow) (s : State) : State :=
  if !examinable s r then s
  else if (judge r op e (k .pending) (passEntry r s)).isSome || (k .pending).zero then submitNow r op e (k .pending) s
  else if !s.pcie.bme then submitNow r op e (k .busOff) s
  else startXfer (.cmd r op e) addr len s

/-- No state refusal of its own. -/
def neverBusy : State → Option Refuse := fun _ => none

/-- BUSY_STATE when a condition holds. -/
def busyIf (p : State → Bool) : State → Option Refuse := fun s => if p s then some (plainRefuse stBusy) else none

/-- A row with its home under R286 and every check at its plainest. -/
def baseRow (op : Nat) : CmdRow :=
  { homes := [homeOf op], bad := fun _ => false, busy := neverBusy, zero := false, zrun := fun o => finishCmd o stDoneZero 0 0 0, acc := fun _ => (0, 0),
    run := fun o => finishCmd o stDone 0 0 0 }

/-- A command that has read host memory: a failed read ends it with HOST_READ_TIMEOUT, the clearing of Bus Master Enable with
BUS_MASTER_OFF, otherwise it runs (R224, R227, R229). (DEDUCED: log entry 20.) -/
def withHostData (d : HostRead) (run : Image → Nat → State → State) (o : Nat) (s : State) : State :=
  match d with
  | .data im => run im o s
  | .failed => finishCmd o stHostReadTimeout 0 0 0 s
  | .busOff => finishCmd o stBusMasterOff 0 0 0 s
  | .pending => s

/-- An address as a number. -/
def pn (v : W64) : Nat := v.toNat

/-- Fields of a parameter. -/
def pf (v : W64) (hi lo : Nat) : Nat := bits v.toNat hi lo

end Sys2Proof.Machine
end

