-- ==== Sys2Proof/Machine/Credit.lean ====
section
/-! DEFINITION. The thermal model: the hottest valid sensor (R368, R371) and the credit C(P) (R370). The logarithm is computed in
fixed point with 160 fraction bits, far below the millisecond to which the credit is cut (log entry 17). -/

namespace Sys2Proof.Machine

/-- One as a fixed-point number. -/
def fxOne : Nat := 2 ^ 160

/-- Terms of z + z³/3 + z⁵/5 + ..., from the term `t` with divisor `d`; z² is `z2`. -/
def atanhTerms (fuel t d z2 : Nat) : Nat :=
  match fuel with
  | 0 => 0
  | f + 1 => t / d + atanhTerms f (t * z2 / fxOne) (d + 2) z2

/-- atanh of a fixed-point number of at most 1/3. -/
def atanhFx (z : Nat) : Nat := atanhTerms 60 z 1 (z * z / fxOne)

/-- ln (num / den) for num ≥ den, as a fixed-point number: ln m + k ln 2 with m in [1, 2), each by atanh ((m − 1) / (m + 1)). (DESIGN CHOICE: log entry 17.) -/
def lnFx (num den : Nat) : Nat :=
  let k := Nat.log2 (num / den)
  let d := den * 2 ^ k
  2 * atanhFx ((num - d) * fxOne / (num + d)) + k * (2 * atanhFx (fxOne / 3))

/-- Whether sensor i holds a valid reading: a good conversion, and the last one did not fail (R368). -/
def sensorValid (s : State) (i : Nat) : Bool := let v := reg s (0x50100 + 4 * i); bit v.toNat 31 && !bit v.toNat 30

/-- A sensor's reading in 1/16 °C. -/
def sensorTemp (s : State) (i : Nat) : Int := ofField 16 (rf s (0x50100 + 4 * i) 15 0)

/-- The hottest valid sensor and its reading; with none valid, 0x1F and 100.0 °C (R371). (DEDUCED: log entry 70.) -/
def hottest (s : State) : Nat × Int :=
  let valid := numsWhere 24 (sensorValid s)
  match valid with
  | [] => (0x1F, 1600)
  | i :: rest => rest.foldl (fun b j => if b.2 < sensorTemp s j then (j, sensorTemp s j) else b) (i, sensorTemp s i)

/-- C(P) in ms for a power in W (R370): temperatures in 1/16,000 °C. (DESIGN CHOICE: log entry 17.) -/
def credit (s : State) (p : Nat) : Nat :=
  let th := (hottest s).2
  let rth := max 1 (domRf s 0x50008 15 0)
  let tau := 100 * max 1 (domRf s 0x5000C 15 0)
  let tss := domRf s 0x50008 23 16 * 1000 + rth * p
  if 1600 ≤ th then 0
  else if tss ≤ 100000 then 0xFFFFFFFF
  else min 0xFFFFFFFE (tau * lnFx ((16 * tss : Int) - 1000 * th).toNat (16 * tss - 1600000) / fxOne)

end Sys2Proof.Machine
end

