-- ==== Sys2Proof/Machine/Crypto.lean ====
section
/-! DEFINITION. SHA-384 and the ECDSA P-384 verdict that R196, R312, R313, R314 and R345 name. The specification names the two algorithms and the places of
their operands; the algorithms themselves are those of FIPS 180-4 and FIPS 186-5 (PRESUMED: log entry 12). -/

namespace Sys2Proof.Machine

/-! ### SHA-384 -/

/-- The largest r below 2^n whose k-th power is at most v. -/
def floorRoot (n k v : Nat) : Nat :=
  match n with
  | 0 => 0
  | m + 1 => let r := floorRoot m k (v / 2 ^ k); if (2 * r + 1) ^ k ≤ v then 2 * r + 1 else 2 * r

/-- The first primes, those below 410. -/
def smallPrimes : List Nat := (List.range 410).filter fun p => decide (2 ≤ p) && (List.range 21).all fun d => decide (d < 2) || p == d || p % d != 0

/-- The 80 round constants: fractions of cube roots. -/
def shaRoundConsts : List W64 := (smallPrimes.take 80).map fun p => BitVec.ofNat 64 (floorRoot 68 3 (p * 2 ^ 192))

/-- The initial value: fractions of the square roots of the ninth to the sixteenth prime. -/
def shaInit : List W64 := ((smallPrimes.drop 8).take 8).map fun p => BitVec.ofNat 64 (floorRoot 68 2 (p * 2 ^ 128))

/-- Big-endian value of bytes. -/
def beNat (bs : List Byte) : Nat := bs.foldl (fun n b => 256 * n + b.toNat) 0

/-- The message with its padding: a one bit, zeros, and the bit length, to whole blocks of 128 bytes. -/
def shaPad (bs : List Byte) : List Byte :=
  let n := bs.length
  bs ++ [0x80#8] ++ List.replicate ((239 - n % 128) % 128) 0#8 ++ (leBytes 16 (8 * n)).reverse

/-- Three rotations, or two and a shift, added without carry. -/
def rot3 (x : W64) (a b c : Nat) : W64 := x.rotateRight a ^^^ x.rotateRight b ^^^ x.rotateRight c
def rotShift (x : W64) (a b c : Nat) : W64 := x.rotateRight a ^^^ x.rotateRight b ^^^ (x >>> c)

/-- The schedule continued: `w` holds the words so far, the youngest first. -/
def shaSchedule (n : Nat) (w : List W64) : List W64 :=
  match n with
  | 0 => w.reverse
  | m + 1 => shaSchedule m ((rotShift (nth w 1 0) 19 61 6 + nth w 6 0 + rotShift (nth w 14 0) 1 8 7 + nth w 15 0) :: w)

/-- One round on the eight working words. -/
def shaRound (h : List W64) (kw : W64) : List W64 :=
  let v (i : Nat) : W64 := nth h i 0
  let t := v 7 + rot3 (v 4) 14 18 41 + ((v 4 &&& v 5) ^^^ (~~~(v 4) &&& v 6)) + kw
  let maj := (v 0 &&& v 1) ^^^ (v 0 &&& v 2) ^^^ (v 1 &&& v 2)
  [t + rot3 (v 0) 28 34 39 + maj, v 0, v 1, v 2, v 3 + t, v 4, v 5, v 6]

/-- One block. -/
def shaBlock (h : List W64) (bs : List Byte) : List W64 :=
  let w := (List.range 16).map fun i => BitVec.ofNat 64 (beNat ((bs.drop (8 * i)).take 8))
  let kws := List.zipWith (fun a b => a + b) shaRoundConsts (shaSchedule 64 w.reverse)
  List.zipWith (fun a b => a + b) h (kws.foldl shaRound h)

/-- The blocks of a padded message. -/
def shaBlocks (fuel : Nat) (h : List W64) (bs : List Byte) : List W64 :=
  match fuel with
  | 0 => h
  | f + 1 => if bs.isEmpty then h else shaBlocks f (shaBlock h (bs.take 128)) (bs.drop 128)

/-- SHA-384 as a number, its first byte most significant. -/
def sha384 (bs : List Byte) : Nat :=
  ((shaBlocks (bs.length / 128 + 2) shaInit (shaPad bs)).take 6).foldl (fun n w => n * 2 ^ 64 + w.toNat) 0

/-! ### P-384 -/

def p384 : Nat := 2 ^ 384 - 2 ^ 128 - 2 ^ 96 + 2 ^ 32 - 1
def p384B : Nat := 0xb3312fa7e23ee7e4988e056be3f82d19181d9c6efe8141120314088f5013875ac656398d8a2ed19d2a85c8edd3ec2aef
def p384Order : Nat := 0xffffffffffffffffffffffffffffffffffffffffffffffffc7634d81f4372ddf581a0db248b0a77aecec196accc52973
def p384Base : Nat × Nat :=
  (0xaa87ca22be8b05378eb1c71ef320ad746e1d3b628ba79b9859f741e082542a385502f25dbf55296c3a545e3872760ab7,
   0x3617de4a96262c6f5d9e98bf9292dc29f8f41dbd289a147ce9da3113b5f0b8c00a60b1ce1d7e819d7a431d7c90ea0e5f)

/-- a ^ e modulo m, for e below 2^n. -/
def powMod (n m a e : Nat) : Nat :=
  match n with
  | 0 => 1
  | k + 1 => let h := powMod k m (a * a % m) (e / 2); if e % 2 = 1 then a * h % m else h

/-- The inverse modulo a prime. -/
def invMod (m a : Nat) : Nat := powMod 384 m (a % m) (m - 2)

/-- The chord or tangent of slope l through two points: the third point, mirrored. -/
def chord (l : Nat) (a b : Nat × Nat) : Nat × Nat :=
  let x := (l * l + 2 * p384 - a.1 - b.1) % p384
  (x, (l * (a.1 + p384 - x) + p384 - a.2) % p384)

/-- The sum of two points; no point stands for the one at infinity. -/
def addPt (a b : Option (Nat × Nat)) : Option (Nat × Nat) :=
  match a, b with
  | none, q => q
  | p, none => p
  | some p, some q =>
    if p.1 ≠ q.1 then some (chord ((q.2 + p384 - p.2) * invMod p384 (q.1 + p384 - p.1) % p384) p q)
    else if p.2 = q.2 ∧ p.2 ≠ 0 then some (chord ((3 * p.1 * p.1 + p384 - 3) * invMod p384 (2 * p.2) % p384) p q)
    else none

/-- k times a point, for k below 2^n. -/
def mulPt (n k : Nat) (p : Option (Nat × Nat)) : Option (Nat × Nat) :=
  match n with
  | 0 => none
  | m + 1 => let h := mulPt m (k / 2) (addPt p p); if k % 2 = 1 then addPt p h else h

/-- A public key: a point of the curve other than the one at infinity. -/
def keyOk (q : Nat × Nat) : Bool :=
  decide (q.1 < p384) && decide (q.2 < p384) && q.2 * q.2 % p384 == (q.1 * q.1 * q.1 + (p384 - 3) * q.1 + p384B) % p384

/-- The ECDSA verdict on a digest. -/
def ecdsaOk (q : Nat × Nat) (digest r t : Nat) : Bool :=
  keyOk q && decide (0 < r) && decide (r < p384Order) && decide (0 < t) && decide (t < p384Order) &&
    (let w := invMod p384Order t
     match addPt (mulPt 384 (digest * w % p384Order) (some p384Base)) (mulPt 384 (r * w % p384Order) (some q)) with
     | some p => p.1 % p384Order == r
     | none => false)

/-- Whether a signature of 96 bytes, r and s, verifies over a message with a key of 96 bytes, x and y (R196, R312). -/
def signatureOk (key msg sig : Image) : Bool :=
  ecdsaOk (imLE key 0 48, imLE key 48 48) (sha384 (imBytes msg)) (imLE sig 0 48) (imLE sig 48 48)

/-- Whether SHA-384 of a public key equals the KEYHASH fuse (R313). -/
def keyHashOk (key : Image) : Bool := sha384 (imBytes key) == Config.keyHash

end Sys2Proof.Machine
end

