-- ==== Sys2Proof/Machine/PlanCheck.lean ====
section
/-! DEFINITION. The admission checks of R201 on a plan image, each with the result of R202 and R406, and their repeats at ARM (R209). -/

namespace Sys2Proof.Machine

/-- A failed check: its number, the section at fault, the entry, the value found and the limit (R202). -/
structure Fail where
  check : Nat
  stype : Nat
  entry : Nat
  found : Nat
  limit : Nat
  deriving DecidableEq, Repr

/-- The code of a check (R201). -/
def checkCode (n : Nat) : Nat :=
  [stBadParam, stBadParam, stPlanCheck, stPlanCheck, stBusy, stBadParam, stPlanAutomaton, stPlanLatency, stPlanBandwidth, stPlanBuffer,
    stPlanPcie, stPlanThermal].getD n stBadParam

/-- A failed check as a refusal (R202). -/
def Fail.refuse (f : Fail) : Refuse :=
  { status := checkCode f.check, x0 := BitVec.ofNat 64 (f.stype + f.check * 2 ^ 16 + f.entry * 2 ^ 32), x1 := BitVec.ofNat 64 f.found,
    x2 := BitVec.ofNat 64 f.limit }

/-- A failure without numbers. -/
def bare (check stype entry : Nat) : Fail := { check := check, stype := stype, entry := entry, found := 0, limit := 0 }

/-- The first failure of a list. -/
def firstFail (l : List (Option Fail)) : Option Fail := l.findSome? id

/-- A failure when a condition holds. -/
def failIf (p : Bool) (f : Fail) : Option Fail := if p then some f else none

/-! ### Check 1: framing (R192 to R194) -/

/-- The size of a section type (R194). -/
def secSize (s : State) (im : Image) (t off : Nat) : Nat :=
  if t = 1 then 528 else if t = 2 then 262144 else if t = 3 then 32768 else if t = 4 then 67584 else if t = 5 then 1552
  else if t = 6 then 16384 else if t = 7 then 16448 else if t = 8 then 16384 * subCount s
  else if t = 9 then 16 + 16 * imLE im off 2 else 16

/-- The directory fields of section i: type, version, offset, size. -/
def dirEntry (im : Image) (i : Nat) : Nat × Nat × Nat × Nat :=
  (imLE im (64 + 16 * i) 2, imLE im (66 + 16 * i) 2, imLE im (68 + 16 * i) 4, imLE im (72 + 16 * i) 4)

/-- Framing of directory entry i (R193, R194). -/
def dirFail (s : State) (im : Image) (i : Nat) : Option Fail :=
  let d := dirEntry im i
  let t := d.1
  let off := d.2.2.1
  let size := d.2.2.2
  let bad (o found limit : Nat) : Fail := { check := 1, stype := 0, entry := 64 + 16 * i + o, found := found, limit := limit }
  let clash := (List.range i).any fun j =>
    let e := dirEntry im j
    decide (off < e.2.2.1 + e.2.2.2) && decide (e.2.2.1 < off + size)
  firstFail
    [failIf (t == 0 || decide (10 < t) || (List.range i).any fun j => (dirEntry im j).1 == t) (bad 0 t 10),
     failIf (d.2.1 != 1) (bad 2 d.2.1 1),
     failIf (off % 64 != 0 || decide (off < 224) || decide (planLen im - 8 < off + size)) (bad 4 off (planLen im - 8)),
     failIf (t == 9 && decide (256 < imLE im off 2)) { check := 1, stype := 9, entry := 0, found := imLE im off 2, limit := 256 },
     failIf (size != secSize s im t off) (bad 8 size (secSize s im t off)),
     failIf clash (bad 4 off 0)]

/-- The section that holds byte `a`, with the offset in it. -/
def secAt (im : Image) (a : Nat) : Option (Nat × Nat) :=
  (List.range 10).findSome? fun i =>
    let d := dirEntry im i
    if d.2.2.1 ≤ a ∧ a < d.2.2.1 + d.2.2.2 then some (d.1, a - d.2.2.1) else none

/-- Framing of an image that a transfer of `n` bytes brought (R192 to R194, R197). The limit of 1 MiB is that of LENGTH, which ends with the
check value: the 96 bytes of a signature are not counted in it. (DEDUCED, DESIGN CHOICE: log entry 21.) -/
def framingFail (s : State) (im : Image) (n : Nat) : Option Fail :=
  let len := planLen im
  let want := len + (if planSigned im then 96 else 0)
  let bad (o found limit : Nat) : Fail := { check := 1, stype := 0, entry := o, found := found, limit := limit }
  let stray := im.bytes.find? fun c => decide (224 ≤ c.1) && decide (c.1 < len - 8) && (secAt im c.1).isNone
  firstFail
    ([failIf (imLE im 0 8 != 0x4E414C50424D454C) (bad 0 (imLE im 0 8) 0x4E414C50424D454C),
      failIf (imLE im 8 2 != 1) (bad 8 (imLE im 8 2) 1),
      failIf (imLE im 10 2 != 10) (bad 10 (imLE im 10 2) 10),
      failIf (decide (1048576 < len) || decide (len < 232)) (bad 16 len 1048576),
      failIf (n != want) (bad 16 n want)] ++
     (List.range 10).map (dirFail s im) ++ [stray.map fun c => bad c.1 c.2.toNat 0])

/-- The defined bits of header or directory byte `o` (R192, R193). (DEDUCED: log entry 21.) -/
def headMask (o : Nat) : Nat :=
  if o < 12 then 255 else if o = 12 then 1 else if o < 16 then 0 else if o < 27 then 255 else if o = 27 then 0
  else if o < 32 then 255 else if o < 64 then 0 else if (o - 64) % 16 < 12 then 255 else 0

/-- The defined bits of byte `o` of a section (R194 and the layouts it cites). (DEDUCED: log entry 21.) -/
def secMask (im : Image) (t o : Nat) : Nat :=
  if t = 1 then
    if o < 4 then 255 else if o < 16 then 0 else if (o - 16) % 4 = 0 then 1 else if (o - 16) % 4 = 3 then 0 else 255
  else if t = 2 then
    let x := o % 16384
    if x < 0x400 then (let y := x % 0x80; if y = 0 then 0x7F else if 0x40 ≤ y then 0x7F else 0)
    else if x < 0x1000 then 0
    else if x < 0x3000 then
      let y := x % 0x100
      if y = 0 then 0x73 else if y = 1 then 0x1F else if 8 ≤ y ∧ y < 0x20 then 255 else if 0x80 ≤ y then 255 else 0
    else (let y := x % 0x20; if y = 0 then 0xC7 else if 4 ≤ y ∧ y < 12 then 255 else 0)
  else if t = 4 then
    let x := o % 8448
    if x = 0 then 0x7F else if x < 0x10 then 0
    else if x < 0x28 then (if x % 2 = 0 then 255 else 0x0F) else if x < 0x40 then 0 else if x < 0x80 then 255
    else if x < 0x100 then 0 else 255
  else if t = 5 then
    if o < 1024 then
      let x := o % 32
      if x = 0 then 255 else if x = 1 then 0x3F else if 8 ≤ x ∧ x < 24 then 255 else 0
    else if o < 1536 then (let x := o % 16; if x = 0 then 0x17 else if 4 ≤ x ∧ x < 12 then 255 else 0)
    else if o < 1544 then 255 else if o = 1544 then 1 else 0
  else if t = 7 then
    if o < 6 then 255 else if o < 8 then 0 else if o < 14 then 255 else if o < 16 then 0 else if o < 18 then 255
    else if o < 64 then 0
    else if pSfmt im ((o - 64) / 64) = 0 then 0
    else
      let x := (o - 64) % 64
      if x < 7 then 255 else if x = 7 then 1 else if x < 13 then 255 else if x < 16 then 0 else if x < 30 then 255 else 0
  else if t = 9 then
    if o < 2 then 255 else if o < 16 then 0
    else (let x := o % 16; if x = 0 then 255 else if 4 ≤ x ∧ x < 8 then 255 else 0)
  else if t = 10 then (if o < 8 then 255 else 0)
  else 255

/-- The entry that R202 and R406 name for byte `o` of a section. (DEDUCED: log entry 21.) -/
def entryOf (t o : Nat) : Nat :=
  if t = 1 ∧ 16 ≤ o then (o - 16) / 4
  else if t = 7 ∧ 64 ≤ o then (o - 64) / 64
  else if t = 9 ∧ 16 ≤ o then (o - 16) / 16
  else if t = 8 then o / 2
  else o

/-- A reserved field that is not zero (R8, check 1). (DEDUCED: log entry 21.) -/
def reservedFail (im : Image) : Option Fail :=
  im.bytes.findSome? fun c =>
    let a := c.1
    let b := c.2.toNat
    if a < 224 then
      failIf (b &&& (255 - headMask a) != 0) { check := 1, stype := 0, entry := a, found := b, limit := 0 }
    else match secAt im a with
      | none => none
      | some (t, o) =>
        failIf (b &&& (255 - secMask im t o) != 0) { check := 1, stype := t, entry := entryOf t o, found := b, limit := 0 }

/-! ### Check 2: check value and signature (R195, R196) -/

/-- The plan key of the loaded boot image, if it carries one (R312). -/
def planKey (s : State) : Option Image :=
  match s.stores.base with
  | some b => if bit (imLE b 28 1) 0 then some (imSlice b 128 96) else none
  | none => none

/-- Check 2. -/
def valueFail (s : State) (im : Image) : Option Fail :=
  let len := planLen im
  let stored := imLE im (len - 8) 8
  let crc := crc64 0 (memTake im.bytes 0 (len - 8))
  firstFail
    [failIf (stored != crc) { check := 2, stype := 0, entry := len - 8, found := stored, limit := crc },
     match planKey s with
     | none => none
     | some k =>
       if planSigned im then failIf (!signatureOk k (imSlice im 0 len) (imSlice im len 96)) (bare 2 0 len)
       else some (bare 2 0 12)]

/-! ### Checks 3 and 4: target and engine state -/

/-- Check 3. -/
def targetFail (s : State) (im : Image) : Option Fail :=
  firstFail
    [failIf (imLE im 26 1 != quadMask s) { check := 3, stype := 0, entry := 26, found := imLE im 26 1, limit := quadMask s },
     failIf (imLE im 24 2 != rf s (chBase 0) 29 16)
       { check := 3, stype := 0, entry := 24, found := imLE im 24 2, limit := rf s (chBase 0) 29 16 },
     failIf (imLE im 28 4 != popGiB s) { check := 3, stype := 0, entry := 28, found := imLE im 28 4, limit := popGiB s }]

/-- LANESTAT.STATE. -/
def laneState (s : State) (n : Nat) : Nat := rf s (laneBase n + 0x10) 31 28
def lnDisabled : Nat := 0
def lnSigdet : Nat := 1
def lnCdr : Nat := 2
def lnRxeq : Nat := 3
def lnFeclock : Nat := 4
def lnTxeq : Nat := 5
def lnEcho : Nat := 6
def lnConfirm : Nat := 7
def lnRun : Nat := 8
def lnResume : Nat := 9
def lnDown : Nat := 10
def lnFailed : Nat := 11
def lnStandby : Nat := 12

/-- Whether a lane is in RUN with this active format and divisor. -/
def laneReady (s : State) (n f k : Nat) : Bool :=
  laneState s n == lnRun && rf s (laneBase n + 0x10) 23 21 == f && rf s (laneBase n + 0x10) 20 16 == k

/-- The USED lanes that are present, declare a defined pair, and do not stand as declared (R201 check 4, R209). -/
def lanesNotReady (s : State) (im : Image) : List Nat :=
  (pUsedLanes im).filter fun n =>
    decide (n < laneCount s) && fmtDefined (pFmt im n) (pDiv im n) && !laneReady s n (pFmt im n) (pDiv im n)

/-- Check 4. -/
def stateFail (s : State) (im : Image) : Option Fail :=
  firstFail
    [failIf (armed s || !allReady s) (bare 4 0 0),
     (lanesNotReady s im).head?.map fun n => { check := 4, stype := 1, entry := n, found := laneState s n, limit := lnRun }]

/-! ### Check 5: settings (R98, R133, R181, R208) -/

/-- Settings of one cell matcher of a lane with N channels and period P (R98): the offset of the field at fault, value found,
limit. A field that begins inside a register is named by its own first byte: CMSEL.A is byte 6 (R202). (DEDUCED: log entry 21.) -/
def cellFail (t pol a b n ch p : Nat) : Option (Nat × Nat × Nat) :=
  if 4 < t then some (0, t, 4)
  else if t ≠ 3 ∧ pol ≠ 0 then some (0, pol, 0)
  else if 2 ^ ch ≤ b then some (4, b, 2 ^ ch - 1)
  else if 2 ^ ch ≤ a then some (6, a, 2 ^ ch - 1)
  else if (t = 0 ∨ t = 3 ∨ t = 4) ∧ b ≠ 0 then some (4, b, 0)
  else if t = 0 ∧ a ≠ 0 then some (6, a, 0)
  else if t < 3 ∧ n ≠ 0 then some (8, n, 0)
  else if (t = 1 ∨ t = 3 ∨ t = 4) ∧ a = 0 then some (6, 0, 1)
  else if t = 2 ∧ a = 0 ∧ b = 0 then some (4, 0, 1)
  else if t = 3 ∧ pol = 0 then some (0, 0, 1)
  else if t = 3 ∧ n ≤ p then some (8, n, p + 1)
  else if t = 4 ∧ n = 0 then some (8, 0, 1)
  else none

/-- The cell matchers of a lane (R98). -/
def laneCells (s : State) (im : Image) (n : Nat) : Option Fail :=
  (List.range 16).findSome? fun m =>
    let o := 0x3000 + 0x200 * (n % 8) + 0x20 * m
    let f (x : Nat) : Nat := pCluster im (n / 8) (o + x)
    let t := bits (f 0) 2 0
    let pol := bits (f 0) 7 6
    let sel := f 4
    let thr := f 8
    if t = 0 ∧ pol = 0 ∧ sel = 0 ∧ thr = 0 then none
    else
      let r := if !pUsed im n || decide (laneCount s ≤ n) then
          (if t ≠ 0 ∨ pol ≠ 0 then some (0, if t ≠ 0 then t else pol, 0) else if sel % 65536 ≠ 0 then some (4, sel % 65536, 0)
           else if sel ≠ 0 then some (6, sel / 65536, 0) else some (8, thr, 0))
        else cellFail t pol (sel / 65536) (sel % 65536) thr (fmtN (pFmt im n)) (fmtP (pFmt im n) (pDiv im n))
      r.map fun x => { check := 5, stype := 2, entry := 16384 * (n / 8) + o + x.1, found := x.2.1, limit := x.2.2 }

/-- BUSSEL entry j of a bus (R103). -/
def busSel (im : Image) (c b j : Nat) : Nat := secLE im 2 (16384 * c + 0x80 * b + 0x40 + j) 1

/-- Width of a bus. -/
def busWidth (im : Image) (c b : Nat) : Nat := bits (pCluster im c (0x80 * b)) 6 0

/-- Settings of one bus (R93 to R95, R98). -/
def busFail (s : State) (im : Image) (c b : Nat) : Option Fail :=
  let w := busWidth im c b
  let base := 16384 * c + 0x80 * b
  let bad (o found limit : Nat) : Fail := { check := 5, stype := 2, entry := base + o, found := found, limit := limit }
  let laneOf (j : Nat) : Nat := 8 * c + busSel im c b j / 16
  if w = 0 ∧ (List.range 64).all fun j => busSel im c b j == 0 then none
  else firstFail
    ([failIf (decide (64 < w) || (w != 0 && decide (4 * quads s ≤ c))) (bad 0 w 64)] ++
     (List.range 64).map fun j =>
       let ch := busSel im c b j
       if w ≤ j then failIf (ch != 0) (bad (0x40 + j) ch 0)
       else
         let n := laneOf j
         let n0 := laneOf 0
         failIf (!pUsed im n || decide (fmtN (pFmt im n) ≤ ch % 16) ||
           fmtP (pFmt im n) (pDiv im n) != fmtP (pFmt im n0) (pDiv im n0) ||
           (pFmt im n == fmtState) != (pFmt im n0 == fmtState)) (bad (0x40 + j) ch 0))

/-- A 64-bit setting of a cluster matcher. -/
def kmWide (im : Image) (c m o : Nat) : Nat := secLE im 2 (16384 * c + 0x1000 + 0x100 * m + o) 8

/-- Settings of one cluster matcher (R97, R98). -/
def clusterFail (s : State) (im : Image) (c m : Nat) : Option Fail :=
  let ctl := pCluster im c (0x1000 + 0x100 * m)
  let t := bits ctl 1 0
  let nset := bits ctl 12 8
  let mask := kmWide im c m 8
  let a := kmWide im c m 0x10
  let b := kmWide im c m 0x18
  let e (i : Nat) : Nat := kmWide im c m (0x80 + 8 * i)
  let w := busWidth im c (bits ctl 6 4)
  let es := List.range 16
  let bad (o found limit : Nat) : Fail :=
    { check := 5, stype := 2, entry := 16384 * c + 0x1000 + 0x100 * m + o, found := found, limit := limit }
  let wide := [(8, mask), (0x10, a), (0x18, b)] ++ es.map fun i => (0x80 + 8 * i, e i)
  if ctl = 0 ∧ wide.all fun x => x.2 == 0 then none
  else if t = 0 then
    match wide.find? fun x => x.2 != 0 with
    | some x => some (bad x.1 x.2 0)
    | none => if bits ctl 6 4 ≠ 0 then some (bad 0 (bits ctl 6 4) 0) else some (bad 1 nset 0)
  else firstFail
    ([failIf (w == 0 || decide (4 * quads s ≤ c)) (bad 0 0 1),
      failIf (if t = 3 then nset == 0 || decide (16 < nset) else nset != 0) (bad 1 nset (if t = 3 then 16 else 0))] ++
     (es.map fun i => failIf (decide (nset ≤ i) && e i != 0) (bad (0x80 + 8 * i) (e i) 0)) ++
     (wide.map fun x => failIf (decide (2 ^ w ≤ x.2)) (bad x.1 x.2 (2 ^ w - 1))) ++
     [failIf (t == 1 && b != 0) (bad 0x18 b 0), failIf (t == 2 && mask != 0) (bad 8 mask 0), failIf (t == 3 && a != 0) (bad 0x10 a 0),
      failIf (t == 3 && b != 0) (bad 0x18 b 0), failIf (t != 2 && mask == 0) (bad 8 0 1), failIf (t == 2 && decide (b < a)) (bad 0x10 a b)])

/-- Settings of one used stream (R131 to R133): value found and limit. -/
def streamFail (s : State) (im : Image) (i : Nat) : Option Fail :=
  let ls := pLanes im i
  let base := pBase im i
  let size := pSize im i
  let cw := pComaWin im i
  let bad (found limit : Nat) : Fail := { check := 5, stype := 7, entry := i, found := found, limit := limit }
  let feeds (n : Nat) : Nat := ((pStreams im).filter fun j => decide (j ≤ i) && (pLanes im j).contains n).length
  firstFail
    [failIf (decide (3 < pSfmt im i) || decide (16 < pQsel im i) || decide (15 < pStCluster im i)) (bad (pSfmt im i) 3),
     failIf ls.isEmpty (bad 0 1),
     (ls.find? fun n => decide (laneCount s ≤ n) || !pUsed im n).map fun n => bad n 0,
     failIf (ls.any fun n => pFmt im n != stFmt im i || pDiv im n != stDiv im i) (bad (pLaneMask im i) 0),
     (ls.find? fun n => decide (2 < feeds n)).map fun n => bad n 2,
     failIf (stGated im i && pSfmt im i != 1) (bad (pQsel im i) 16),
     failIf (if pSfmt im i = 2 then pTdmax im i == 0 || decide (1024 < pTdmax im i) else pTdmax im i != 0) (bad (pTdmax im i) 1024),
     failIf ((pMarkSel im i == 0) != (pMrate im i == 0)) (bad (pMrate im i) 0),
     failIf (base % 4096 != 0 || size % 4096 != 0) (bad base 4096),
     failIf (decide (size < cw + 8192)) (bad size (cw + 8192)),
     failIf (decide (journalBase s < base + size)) (bad (base + size) (journalBase s)),
     ((pStreams im).find? fun j => decide (j < i) && decide (base < pBase im j + pSize im j) &&
       decide (pBase im j < base + size)).map fun j => bad base (pBase im j),
     failIf (cw == 0 || cw % 4096 != 0) (bad cw 4096)]

/-! Orbit tables (R164 to R175, R181). -/

/-- One table of a subchannel, as (slot, entry). -/
def orbitTable (im : Image) (sc t : Nat) : List (Nat × Nat) := (List.range 4096).map fun k => (k, pOrbit im sc t k)

def oCode (e : Nat) : Nat := bits e 15 12
def oArg (e : Nat) : Nat := bits e 11 0

/-- The entry of R202 for slot k. -/
def orbitEntry (sc t k : Nat) : Nat := 8192 * sc + 4096 * t + k

/-- The slots that stand in read windows: windows alternate with the TURN runs, and the first is a write window (R166). -/
def readSlots (reads inTurn : Bool) (l : List (Nat × Nat)) : List (Nat × Nat) :=
  match l with
  | [] => []
  | e :: rest =>
    if oCode e.2 = 5 then readSlots (if inTurn then reads else !reads) true rest
    else if reads then e :: readSlots reads false rest
    else readSlots reads false rest

/-- Slots of a time in ps, rounded up: a slot is 16 transfers (R164). -/
def slotsOf (s : State) (ps : Nat) : Nat := ceilDiv (ps * rf s (chBase 0) 29 16) 16000000

/-- L_N and L_H (R164). -/
def spacingLimit (s : State) (t : Nat) : Nat := (if t = 0 then 3900 else 1950) * rf s (chBase 0) 29 16 / 16000

/-- The TURN runs in order, as (first slot, length); `cur` is the run in progress. -/
def turnRuns (cur : Option (Nat × Nat)) (l : List (Nat × Nat)) : List (Nat × Nat) :=
  match l with
  | [] => cur.toList
  | e :: rest =>
    if oCode e.2 = 5 then turnRuns (some (match cur with | some r => (r.1, r.2 + 1) | none => (e.1, 1))) rest
    else cur.toList ++ turnRuns none rest

/-- Slots of a table whose entry satisfies `p`. -/
def slotsWhere (tab : List (Nat × Nat)) (p : Nat → Bool) : List Nat := (tab.filter fun e => p e.2).map fun e => e.1

/-- Successive distances, cyclic over 4,096, with the later slot. -/
def cyclicGaps (ks : List Nat) : List (Nat × Nat) :=
  match ks with
  | [] => []
  | k0 :: _ => (ks.zip (ks.drop 1 ++ [k0 + 4096])).map fun p => (p.2 - p.1, p.2 % 4096)

/-- The refresh entries of each refreshed unit: a rank, or a rank and bank set (R169). -/
def refreshUnits (s : State) : List (Nat → Bool) :=
  let ranks := rf s (chBase 0) 2 0
  if rf s (chBase 0) 11 11 = 0 then (List.range ranks).map fun r e => oCode e == 2 && oArg e == r
  else (List.range (4 * ranks)).map fun u e => oCode e == 3 && oArg e == u

/-- One entry of a table, wherever its window (R181, first row). A WR entry in a read window is bad too. -/
def slotBad (s : State) (im : Image) (k e : Nat) : Bool :=
  let a := oArg e
  let c := oCode e
  let ranks := rf s (chBase 0) 2 0
  let sameBank := rf s (chBase 0) 11 11 == 1
  if c = 0 then a != 0
  else if c = 1 then decide (256 ≤ a) || pSfmt im (a % 256) == 0
  else if c = 2 then decide (ranks ≤ a) || sameBank
  else if c = 3 then decide (16 ≤ a) || decide (ranks ≤ a / 4) || !sameBank
  else if c = 4 then decide (16 ≤ a) || decide (ranks ≤ a / 4)
  else if c = 5 then a != 0 || k == 0
  else true

/-- The first of some slots. -/
def minSlot (l : List (Nat × Nat)) : Option (Nat × Nat) :=
  l.foldl (fun m e => match m with | none => some e | some x => if e.1 < x.1 then some e else m) none

/-- The BAD_PARAM rows of R181 for one table; `other` is the other table, which R170 enters or leaves. -/
def tableFail (s : State) (im : Image) (sc t : Nat) : Option Fail :=
  let tab := orbitTable im sc t
  let other := orbitTable im sc (1 - t)
  let reads := readSlots false false tab
  let runs := turnRuns none tab
  let bad (k found limit : Nat) : Fail := { check := 5, stype := 8, entry := orbitEntry sc t k, found := found, limit := limit }
  let limit := spacingLimit s t
  let ranks := rf s (chBase 0) 2 0
  let near (least : Nat) (p : Nat → Bool) : Option Fail :=
    ((cyclicGaps (slotsWhere tab p)).find? fun g => decide (g.1 < least)).map fun g => bad g.2 g.1 least
  firstFail
    ([(minSlot ((tab.find? fun e => slotBad s im e.1 e.2).toList ++ (reads.find? fun e => oCode e.2 == 1).toList)).map fun e => bad e.1 e.2 0,
      failIf (runs.length % 2 == 1) (bad 0 runs.length 0),
      failIf reads.isEmpty (bad 0 0 1)] ++
     ((List.range runs.length).map fun n =>
       let least := slotsOf s (if n % 2 = 0 then s.dram.times.tWR2RD else s.dram.times.tRD2WR)
       let run := nth runs n (0, 0)
       failIf (decide (run.2 < least)) (bad run.1 run.2 least)) ++
     ((refreshUnits s).flatMap fun u =>
       let ks := slotsWhere tab u
       let first := (slotsWhere other u).headD 4096
       [failIf ks.isEmpty (bad 0 0 1),
        ((cyclicGaps ks).find? fun g => decide (limit < g.1)).map fun g => bad g.2 g.1 limit,
        failIf (decide (spacingLimit s 0 < 4096 - ks.getLastD 0 + first)) (bad (ks.getLastD 0) (4096 - ks.getLastD 0 + first) (spacingLimit s 0))]) ++
     ((List.range ranks).map fun r => near (slotsOf s s.dram.times.tRFC1) fun e => oCode e == 2 && oArg e == r) ++
     ((List.range ranks).map fun r =>
       near (slotsOf s s.dram.times.tREFSBRD) fun e => (oCode e == 3 || oCode e == 4) && oArg e / 4 == r) ++
     [if t = 0 then none
      else ((tab.zip other).find? fun x => oCode x.2.2 != 0 && x.1.2 != x.2.2).map fun x => bad x.1.1 x.1.2 x.2.2])

/-- The tables of every subchannel in order. -/
def tables (s : State) : List (Nat × Nat) := (List.range (subCount s)).flatMap fun sc => [(sc, 0), (sc, 1)]

/-- Settings of the upload reservations (R194, R207). -/
def uploadFail (im : Image) (i : Nat) : Option Fail :=
  let st := pResStream im i
  let rate := pResRate im i
  let bad (found limit : Nat) : Fail := { check := 5, stype := 9, entry := i, found := found, limit := limit }
  firstFail
    [failIf (rate == 0 || decide (110000 < rate)) (bad rate 110000),
     failIf (pSfmt im st == 0 || (List.range i).any fun j => pResStream im j == st) (bad st 0)]

/-- Settings of the thermal declaration (R208). -/
def thermalSet (im : Image) : Option Fail :=
  let bad (o found limit : Nat) : Fail := { check := 5, stype := 10, entry := o, found := found, limit := limit }
  firstFail
    [failIf (pCont im == 0) (bad 0 0 1),
     failIf (decide (pPeak im < pCont im)) (bad 2 (pPeak im) (pCont im)),
     failIf (decide (310 < pPeak im)) (bad 2 (pPeak im) 310),
     failIf ((pTpeak im != 0) != decide (240 < pPeak im)) (bad 4 (pTpeak im) 0)]

/-- Check 5. -/
def settingsFail (s : State) (im : Image) : Option Fail :=
  firstFail
    [(pUsedLanes im).findSome? fun n =>
       failIf (decide (laneCount s ≤ n) || !fmtDefined (pFmt im n) (pDiv im n))
         { check := 5, stype := 1, entry := n, found := pFmt im n * 256 + pDiv im n, limit := 0 },
     (List.range 128).findSome? (laneCells s im),
     (List.range 128).findSome? fun x => busFail s im (x / 8) (x % 8),
     (List.range 512).findSome? fun x => clusterFail s im (x / 32) (x % 32),
     (pStreams im).findSome? (streamFail s im),
     failIf (pSegRate im == 0) { check := 5, stype := 7, entry := 16, found := 0, limit := 1 },
     (tables s).findSome? fun x => tableFail s im x.1 x.2,
     (List.range (pNres im)).findSome? (uploadFail im),
     thermalSet im]

/-! ### Check 6: automata (R117, R128) -/

/-- Reserved line numbers (R99). -/
def lineReserved (l : Nat) : Bool := decide (2708 ≤ l) && decide (l < 4095)

/-- A tally's fields. -/
def tlEn (im : Image) (a u : Nat) : Bool := bit (pTlctl im a u) 13
def tlRise (im : Image) (a u : Nat) : Bool := bit (pTlctl im a u) 12
def tlLine (im : Image) (a u : Nat) : Nat := bits (pTlctl im a u) 11 0

/-- Settings of one tally (R128). -/
def tallyFail (im : Image) (a u : Nat) : Option Fail :=
  let o := 128 * a + 32 * u
  let bad (x found limit : Nat) : Fail := { check := 6, stype := 5, entry := o + x, found := found, limit := limit }
  firstFail
    [failIf (decide (2 ^ 48 ≤ pTlThr im a u)) (bad 16 (pTlThr im a u) (2 ^ 48 - 1)),
     failIf (tlEn im a u && lineReserved (tlLine im a u)) (bad 0 (tlLine im a u) 2707),
     failIf (tlEn im a u && pTlStates im a u == 0) (bad 8 0 1),
     failIf (!tlEn im a u && pTlctl im a u != 0) (bad 0 (pTlctl im a u) 0),
     failIf (!tlEn im a u && pTlStates im a u != 0) (bad 8 (pTlStates im a u) 0),
     failIf (!tlEn im a u && pTlThr im a u != 0) (bad 16 (pTlThr im a u) 0)]

/-- Whether an action word breaks R128. -/
def actionBad (im : Image) (a x w : Nat) : Bool :=
  if w = 0 then false
  else
    x == 0 || !pAutoEn im a || aTmop w == 3 || aQop w == 3 || (aQop w == 0) != (aQmask w == 0) || (aFlagset w &&& aFlagclr w) != 0 ||
      (aTmop w != 0 && !(pTmOwned im (aTmsel w) && pTmOwner im (aTmsel w) == a)) || (aTmop w == 0 && aTmsel w != 0) ||
      (!aCasev w && !aOrg w && aCasline w != 0) || ((List.range 4).any fun u => bit (aTload w) u && !tlEn im a u) ||
      (aCode w != 0 && !aMark w && !aHostev w) || (aOrg w && !aNuc w && !aMark w && !aHostev w)

/-- Check 6. -/
def automataFail (im : Image) : Option Fail :=
  let at4 (a o found limit : Nat) : Fail := { check := 6, stype := 4, entry := 8448 * a + o, found := found, limit := limit }
  let autos := List.range 8
  firstFail
    [(List.range 32).findSome? fun x =>
       let thr := pTlThr im (x / 4) (x % 4)
       failIf (tlEn im (x / 4) (x % 4) && decide (thr < 33))
         { check := 6, stype := 5, entry := 128 * (x / 4) + 32 * (x % 4) + 16, found := thr, limit := 33 },
     (List.range 32).findSome? fun i =>
       failIf (pTmOwned im i && decide (pTmDur im i < 33))
         { check := 6, stype := 5, entry := 1028 + 16 * i, found := pTmDur im i, limit := 33 },
     autos.findSome? fun a => (List.range 12).findSome? fun i =>
       failIf (lineReserved (pSel im a i)) (at4 a (0x10 + 2 * i) (pSel im a i) 2707),
     autos.findSome? fun a => (List.range 4096).findSome? fun x =>
       failIf (decide (64 ≤ pClass im a x)) { check := 6, stype := 3, entry := 4096 * a + x, found := pClass im a x, limit := 63 },
     autos.findSome? fun a => (List.range 4096).findSome? fun x =>
       failIf (decide (16384 ≤ pTrans im a (x / 64) (x % 64))) (at4 a (0x100 + 2 * x) (pTrans im a (x / 64) (x % 64)) 16383),
     autos.findSome? fun a => (List.range 64).findSome? fun x =>
       failIf (decide (16 ≤ pLevel im a x)) (at4 a (0x40 + x) (pLevel im a x) 15),
     autos.findSome? fun a => (List.range 256).findSome? fun x =>
       failIf (actionBad im a x (pAction im a x)) { check := 6, stype := 6, entry := 2048 * a + 8 * x, found := pAction im a x, limit := 0 },
     (List.range 32).findSome? fun x => tallyFail im (x / 4) (x % 4),
     (List.range 32).findSome? fun i =>
       failIf (decide (2 ^ 48 ≤ pTmDur im i) || (!pTmOwned im i && pTmDur im i != 0))
         { check := 6, stype := 5, entry := 1028 + 16 * i, found := pTmDur im i, limit := 0 }]

/-! ### Check 7: latency (R48, R49, R126, R201) -/

/-- LANELAT. -/
def laneLat (s : State) (n : Nat) : Nat := (reg s (laneBase n + 0x1C)).toNat

/-- A lane whose latency does not fit LALIGN (R49). -/
def latFail (s : State) (im : Image) : Option Fail :=
  (pUsedLanes im).findSome? fun n =>
    failIf (decide (pLalign im < laneLat s n + 64)) { check := 7, stype := 1, entry := n, found := laneLat s n + 64, limit := pLalign im }

/-- Ring size of the last CONJUNCTION (R84). -/
def ringSize (s : State) : Nat := rf s 0x40050 27 24 + 1

/-- Check 7. -/
def latencyFail (s : State) (im : Image) : Option Fail :=
  let l := pLalign im
  let cl := pCaslat im
  let hop := max (reg s 0x40054).toNat (reg s 0x40058).toNat
  let need := (ringSize s - 1) * (pKhopmax im + 10240)
  firstFail
    [latFail s im,
     failIf (l % 32 != 0 || decide (l < 8192) || decide (262144 < l)) { check := 7, stype := 1, entry := 0, found := l, limit := 262144 },
     failIf (cl % 32 != 0 || decide (cl < 1024)) { check := 7, stype := 5, entry := 1536, found := cl, limit := 1024 },
     failIf (decide (1 < ringSize s) && decide (pKhopmax im < hop)) { check := 7, stype := 5, entry := 1540, found := hop, limit := pKhopmax im },
     failIf (decide (1 < ringSize s) && decide (cl < need)) { check := 7, stype := 5, entry := 1536, found := cl, limit := need },
     (List.range 2048).findSome? fun x =>
       failIf (!pToen im && aTrigout (pAction im (x / 256) (x % 256)))
         { check := 7, stype := 6, entry := 8 * x, found := pAction im (x / 256) (x % 256), limit := 0 }]

/-! ### Checks 8 and 9: bandwidth and buffers (R203 to R205). Fractions are pairs (numerator, denominator). -/

def frAdd (a b : Nat × Nat) : Nat × Nat := (a.1 * b.2 + b.1 * a.2, a.2 * b.2)
def frMul (a b : Nat × Nat) : Nat × Nat := (a.1 * b.1, a.2 * b.2)
def frSum (l : List (Nat × Nat)) : Nat × Nat := l.foldl frAdd (0, 1)

/-- w of R203 in bytes per tick. -/
def stRate (im : Image) (i : Nat) : Nat × Nat :=
  let l := (pLanes im i).length
  let n := stN im i
  if pSfmt im i = 2 then (l * transEntry n * pTdmax im i, 1024)
  else if stIsState im i then (2 + 2 * l, 16)
  else if stGated im i then (8 * l * n + 15, 64 * stP im i)
  else (l * n, 8 * stP im i)

/-- c of R203. -/
def stClosure (im : Image) (i : Nat) : Nat × Nat :=
  let w := stRate im i
  let plain := pSfmt im i != 2 && !stIsState im i
  if plain && !stGated im i && 524288 * w.1 % (4096 * w.2) == 0 then (0, 1)
  else
    let c := (2 * (if pSfmt im i = 2 then (pLanes im i).length else 1), 524288)
    if plain && stGated im i then frAdd c (2, 4160 * stP im i) else c

/-- G of R203 in granules per tick. -/
def stDemand (im : Image) (i : Nat) : Nat × Nat :=
  let w := stRate im i
  let f := if 8320 ≤ pComaWin im i then (pComaWin im i, pComaWin im i - 4160) else (2, 1)
  frAdd (frMul f (frAdd (65 * w.1, 4096 * w.2) (stClosure im i))) (2 * pMrate im i + 6 * pSegRate im + 16, 65536)

/-- WR entries a stream needs on every subchannel in every table (R203). -/
def stNeed (s : State) (im : Image) (i : Nat) : Nat :=
  let g := stDemand im i
  ceilDiv (g.1 * 4096 * 819200) (g.2 * rf s (chBase 0) 29 16 * subCount s)

/-- WR entries of a stream in a table. -/
def wrCount (tab : List (Nat × Nat)) (i : Nat) : Nat := (slotsWhere tab fun e => e == 4096 + i).length

/-- The PLAN_BANDWIDTH rows of R181 and R203 for one table. -/
def bandFail (s : State) (im : Image) (sc t : Nat) : Option Fail :=
  let tab := orbitTable im sc t
  let wrs := slotsWhere tab fun e => oCode e == 1
  let need := 2 ^ (13 - rf s (chBase (sc / 2) + 0x10) 3 0)
  firstFail
    ([failIf (decide (2867 < wrs.length)) { check := 8, stype := 8, entry := orbitEntry sc t (nth wrs 2867 0), found := wrs.length, limit := 2867 }] ++
     ((pStreams im).map fun i =>
       failIf (decide (wrCount tab i < stNeed s im i))
         { check := 8, stype := 7, entry := i, found := (2 * sc + t) * 2 ^ 32 + wrCount tab i, limit := stNeed s im i }) ++
     ((List.range (4 * rf s (chBase 0) 2 0)).map fun u =>
       let have_ := (slotsWhere tab fun e => oCode e == 4 && oArg e == u).length
       failIf (decide (have_ < need)) { check := 8, stype := 8, entry := orbitEntry sc t 0, found := have_, limit := need }))

/-- FREE entries in the read windows of a table. -/
def freeReads (tab : List (Nat × Nat)) : Nat := ((readSlots false false tab).filter fun e => oCode e.2 == 0).length

/-- The first index at which a running sum exceeds a limit (R406). -/
def sumOver (limit acc : Nat) (l : List (Nat × Nat)) : Option Nat :=
  match l with
  | [] => none
  | (i, v) :: rest => if limit < acc + v then some i else sumOver limit (acc + v) rest

/-- The whole of a sum. -/
def sumAll (l : List (Nat × Nat)) : Nat := (l.map fun p => p.2).sum

/-- The upload reservations as (index, MB/s). -/
def resRates (im : Image) : List (Nat × Nat) := (List.range (pNres im)).map fun i => (i, pResRate im i)

/-- The running sum of BLOCK streams of a quadrant: the first stream at which Σ 8 w × 51.2 Gbit/s exceeds 256 Gbit/s (R204). -/
def blockFail (im : Image) (q : Nat) : Option Fail :=
  let bs := (pStreams im).filter fun i => pSfmt im i == 3 && pStCluster im i / 4 == q
  let mbit (x : Nat × Nat) : Nat := 409600 * x.1 / x.2
  let tooFast (k : Nat) : Bool := let x := frSum ((bs.take (k + 1)).map (stRate im)); decide (256000 * x.2 < 409600 * x.1)
  ((List.range bs.length).find? tooFast).map fun k =>
    { check := 8, stype := 7, entry := nth bs k 0, found := mbit (frSum (bs.map (stRate im))), limit := 256000 }

/-- Check 8. -/
def bandwidthFail (s : State) (im : Image) : Option Fail :=
  let fr := ((tables s).map fun x => freeReads (orbitTable im x.1 x.2)).foldl min 4096
  let cap := subCount s * 64 * fr * rf s (chBase 0) 29 16
  firstFail
    [(tables s).findSome? fun x => bandFail s im x.1 x.2,
     (List.range 4).findSome? (blockFail im),
     (sumOver (cap / 65536) 0 (resRates im)).map fun i =>
       { check := 8, stype := 9, entry := i, found := sumAll (resRates im), limit := cap / 65536 }]

/-- T_W of a stream in slots (R205). -/
def waitSlots (s : State) (im : Image) (i : Nat) : Nat :=
  let ts := s.dram.times
  let tB := max (if rf s (chBase 0) 11 11 = 0 then ts.tRFC1 else 0) (max ts.tRFCsb ts.tDRFMsb)
  let runs := (tables s).map fun x =>
    ((cyclicGaps (slotsWhere (orbitTable im x.1 x.2) fun e => e == 4096 + i)).map fun g => g.1 - 1).foldl max 0
  runs.foldl max 0 + slotsOf s tB

/-- The backlog 64 × G × T_W / L of a stream in bytes (R205): the share of R152. (DEDUCED: log entry 41.) -/
def backlogShare (s : State) (im : Image) (i : Nat) : Nat × Nat :=
  let g := stDemand im i
  (64 * g.1 * waitSlots s im i * 819200, g.2 * rf s (chBase 0) 29 16 * max 1 (pLanes im i).length)

/-- Check 9. -/
def bufferFail (s : State) (im : Image) : Option Fail :=
  firstFail
    [(pUsedLanes im).findSome? fun n =>
       let v := (fmtN (pFmt im n) * (pLalign im - laneLat s n), 8 * fmtP (pFmt im n) (pDiv im n))
       let parts := ((pStreams im).filter fun i => (pLanes im i).contains n).map fun i =>
         frAdd (backlogShare s im i) (8320, (pLanes im i).length)
       let x := frAdd v (frSum parts)
       failIf (decide (131072 * x.2 < x.1)) { check := 9, stype := 1, entry := n, found := ceilDiv x.1 x.2, limit := 131072 },
     (pStreams im).findSome? fun i =>
       let g := stDemand im i
       let need := 64 * ceilDiv (g.1 * pComaDepth im) g.2 + 8320
       failIf (decide (pComaWin im i < need)) { check := 9, stype := 7, entry := i, found := pComaWin im i, limit := need }]

/-! ### Checks 10 and 11: link and thermal (R206 to R208) -/

/-- U of R206 in MB/s, rounded down. -/
def uploadU (speed width : Nat) : Nat := if speed < 3 ∨ 6 < speed then 0 else 110000 * width / (16 * 2 ^ (6 - speed))

/-- Check 10 (R207). -/
def linkFail (s : State) (im : Image) : Option Fail :=
  let u := uploadU (rf s 0x18004 31 29) (rf s 0x18004 28 24)
  (sumOver u 0 (resRates im)).map fun i => { check := 10, stype := 9, entry := i, found := sumAll (resRates im), limit := u }

/-- Check 11 (R208). (DEDUCED: log entry 70.) -/
def thermalFail (s : State) (im : Image) : Option Fail :=
  let bad (o found limit : Nat) : Fail := { check := 11, stype := 10, entry := o, found := found, limit := limit }
  firstFail
    [failIf (decide (240 < pCont im)) (bad 0 (pCont im) 240),
     failIf (decide (240 < pPeak im) && warnOn s) (bad 2 (pPeak im) 240),
     failIf (decide (240 < pPeak im) && decide (credit s (pPeak im) < pTpeak im)) (bad 4 (pTpeak im) (credit s (pPeak im)))]

/-- The checks of R201 on the staged image, in order. With the staged slot empty check 4 fails: no image is there for the checks before it. -/
def admitFail (s : State) : Option Fail :=
  match s.plans.staged with
  | none => some (bare 4 0 0)
  | some im =>
    firstFail
      [reservedFail im, valueFail s im, targetFail s im, stateFail s im, settingsFail s im, automataFail im, latencyFail s im,
       bandwidthFail s im, bufferFail s im, linkFail s im, thermalFail s im]

/-- The conditions that ARM repeats on the active plan, in the order of R209; results are 0 (R251). -/
def armFail (s : State) : Option Nat :=
  let im := plan s
  let drfm := (List.range (chCount s)).any fun ch => decide (rf s (chBase ch + 0x10) 3 0 < tblGet s.plans.drfmP ch 0)
  if !(lanesNotReady s im).isEmpty then some stBusy
  else if (latFail s im).isSome then some stPlanLatency
  else if drfm then some stPlanBandwidth
  else if (linkFail s im).isSome then some stPlanPcie
  else if (thermalFail s im).isSome then some stPlanThermal
  else none

end Sys2Proof.Machine
end

