-- ==== Sys2Proof/Machine/Plan.lean ====
section
/-! DEFINITION. Plan slots: PLAN_LOAD, PLAN_ADMIT and PLAN_RELEASE (R197 to R200, R360). -/

namespace Sys2Proof.Machine

/-- A refusal from an image check (R202). -/
def failRefuse (f : Option Fail) : Option Refuse := f.map Fail.refuse

/-- The checks of PLAN_LOAD on the image that the host read returned (R197). A read that failed is no refusal (R227). -/
def planLoadCheck (e : Entry) (d : HostRead) (s : State) : Option Refuse :=
  match d with
  | .data im =>
    if pn e.p1 = 0 then none
    else
      let x := imSlice im 0 (pn e.p1)
      failRefuse (firstFail [framingFail s x (pn e.p1), valueFail s x])
  | _ => none

/-- PLAN_LOAD places the image in the staged slot (R197). -/
def runPlanLoad (e : Entry) (im : Image) (o : Nat) (s : State) : State :=
  let x := imSlice im 0 (pn e.p1)
  finishCmd o stDone (BitVec.ofNat 64 (planId x)) 0 0 { s with plans := { s.plans with staged := some x } }

/-- The row of PLAN_LOAD. -/
def planLoadRow (e : Entry) (d : HostRead) : CmdRow :=
  { baseRow opPlanLoad with zero := pn e.p1 == 0, busy := planLoadCheck e d, run := withHostData d (runPlanLoad e) }

/-- PLAN_LOAD reads the image. -/
def doPlanLoad (r : Nat) (e : Entry) : State → State := submitRead r opPlanLoad e (pn e.p0) (pn e.p1) (planLoadRow e)

/-- The meaning of PLAN_LOAD. -/
def execPlanLoad (r : Nat) (e : Entry) (s : State) : Out := engineStep s (doPlanLoad r e s)

/-- Whether [a, a + n) overlaps a region of a plan. -/
def regionHit (im : Image) (a n : Nat) : Bool :=
  (pStreams im).any fun i => decide (a < pBase im i + pSize im i) && decide (pBase im i < a + n)

/-- Bytes of the DRAM trace region (R359). -/
def traceBytes (sizeLog : Nat) : Nat := 4096 * 2 ^ sizeLog

/-- DRAM trace is turned off when a new plan's regions overlap its region (R360). -/
def traceYield (im : Image) (s : State) : State :=
  if s.trace.dramEn && regionHit im (4096 * s.trace.base) (traceBytes s.trace.sizeLog) then
    setSource 8 { s with trace := { s.trace with dramEn := false } }
  else s

/-- LALIGN changes with the active plan, and with it every stamp of a sample already received (R48). -/
def shiftStamps (d : Int) (s : State) : State :=
  let f (t : Nat) : Nat := ((t : Int) + d).toNat
  { s with lanes := s.lanes.map fun p => (p.1, { p.2 with samples := p.2.samples.map fun x => { x with stamp := f x.stamp },
                                                          miss := p.2.miss.map fun m => { m with first := f m.first, last := m.last.map f } }) }

/-- The staged image becomes the active plan (R198); records of an earlier plan's capture stay deliverable to a stream still open
(R257), whose binding is marked. -/
def activate (im : Image) (s : State) : State :=
  let mark (x : Ring) : Ring := { x with bound := x.bound.map fun b => { b with live := b.live && !s.cap.anyBegun } }
  let s1 := { s with plans := { staged := none, active := some im, admitting := none,
                                drfmP := (List.range (chCount s)).map fun ch => (ch, rf s (chBase ch + 0x10) 3 0) },
                     rings := s.rings.map fun p => (p.1, mark p.2), cap := Cap.reset }
  setSource (srcCap 14) (traceYield im (shiftStamps ((pLalign im : Int) - pLalign (plan s)) s1))

/-- How long a PLAN_ADMIT that finds nothing at fault runs: at most 50 ms (R198). (DESIGN CHOICE: log entry 77.) -/
def admitTicks : Nat := min Config.admitTime (50000 * usTicks)

/-- PLAN_ADMIT runs from its acceptance on, and refuses meanwhile what R200 names. (DESIGN CHOICE: log entry 77.) -/
def runPlanAdmit (o : Nat) (s : State) : State := { s with plans := { s.plans with admitting := some (o, nowT s + admitTicks) } }

/-- PLAN_ADMIT ends: the staged image becomes the active plan, and DONE is posted (R198). (DEDUCED: log entry 34.) -/
def doAdmitEnd (o : Nat) (s : State) : State :=
  match s.plans.staged with
  | none => { s with plans := { s.plans with admitting := none } }
  | some im => finishCmd o stDone (BitVec.ofNat 64 (planId im)) 0 0 (activate im s)

/-- The end of PLAN_ADMIT has its time. -/
def admitTime (s : State) : State :=
  match s.plans.admitting with
  | some (o, t) => if t ≤ nowT s then doAdmitEnd o s else s
  | none => s

/-- PLAN_ADMIT: its checks are those of R201; R200 keeps what they look at as it is while it runs. -/
def doPlanAdmit (r : Nat) (e : Entry) : State → State :=
  submit r opPlanAdmit e { baseRow opPlanAdmit with busy := fun s => failRefuse (admitFail s), run := runPlanAdmit }

/-- The meaning of PLAN_ADMIT. -/
def execPlanAdmit (r : Nat) (e : Entry) (s : State) : Out := engineStep s (doPlanAdmit r e s)

/-- PLAN_RELEASE empties the active slot, and with OPT the staged one (R199). CAPEVT0.PLANCHG tells of a plan released (R261). -/
def runPlanRelease (e : Entry) (o : Nat) (s : State) : State :=
  let s1 := { s with plans := { s.plans with active := none, staged := if eOpt e then none else s.plans.staged } }
  finishCmd o stDone 0 0 0 (if s.plans.active.isSome then setSource (srcCap 14) (shiftStamps (-(pLalign (plan s) : Int)) s1) else s1)

/-- PLAN_RELEASE. -/
def doPlanRelease (r : Nat) (e : Entry) : State → State :=
  submit r opPlanRelease e { baseRow opPlanRelease with busy := busyIf armed, run := runPlanRelease e }

/-- The meaning of PLAN_RELEASE. -/
def execPlanRelease (r : Nat) (e : Entry) (s : State) : Out := engineStep s (doPlanRelease r e s)

end Sys2Proof.Machine
end

