-- ==== Sys2Proof/Machine/Lane.lean ====
section
/-! DEFINITION. What the rules of a lane share: its registers and states, stamps (R47 to R50), missing runs (R52, R55), entry into and
exit from its states (R44, R53 to R56, R404). -/

namespace Sys2Proof.Machine

/-- The LO half of a lane counter (R62). -/
def laneCtr (n i : Nat) : Nat := laneBase n + 0x100 + 8 * i

/-- LANECFG, LANEDESC and LANECTL fields (R57, R59, R60). -/
def lnAutores (s : State) (n : Nat) : Bool := rf s (laneBase n) 12 12 == 1
def lnFmt (s : State) (n : Nat) : Nat := rf s (laneBase n) 2 0
def lnDiv (s : State) (n : Nat) : Nat := rf s (laneBase n) 7 3
def lnFmtMask (s : State) (n : Nat) : Nat := rf s (laneBase n + 4) 31 26
def lnLatClass (s : State) (n : Nat) : Nat := rf s (laneBase n + 4) 25 24
def lnNch (s : State) (n : Nat) : Nat := rf s (laneBase n + 4) 23 19
def lnInlat (s : State) (n : Nat) : Nat := rf s (laneBase n + 4) 15 0
def lnEn (s : State) (n : Nat) : Bool := rf s (laneBase n + 8) 0 0 == 1

/-- LANESTAT fields beside STATE (R60). -/
def lnCause (s : State) (n : Nat) : Nat := rf s (laneBase n + 0x10) 27 24
def lnAfmt (s : State) (n : Nat) : Nat := rf s (laneBase n + 0x10) 23 21
def lnAdiv (s : State) (n : Nat) : Nat := rf s (laneBase n + 0x10) 20 16
def lnAttn (s : State) (n : Nat) : Bool := rf s (laneBase n + 0x10) 15 15 == 1

/-- Set LANESTAT.STATE and CAUSE. -/
def setLaneState (n st cause : Nat) (s : State) : State := setRf (laneBase n + 0x10) 31 24 (16 * st + cause) s

/-- A lane is in training from SIGDET to CONFIRM (R44). (DEDUCED: log entry 26.) -/
def inTraining (s : State) (n : Nat) : Bool := decide (1 ≤ laneState s n) && decide (laneState s n ≤ 7)

/-- The engine seeks FEC lock: in FECLOCK, and in a fast resume, until 8 codewords in a row were decodable (R34, R44, R54). -/
def seeksLock (s : State) (n : Nat) : Bool :=
  (laneState s n == lnFeclock || laneState s n == lnResume) && decide ((lane s n).fecRun < 8)

/-- Frames reach the engine once it has FEC lock: at the end of FECLOCK, in the states that follow it, and in a fast resume that has lock
again (R34, R44, R54). -/
def rxLocked (s : State) (n : Nat) : Bool := decide (4 ≤ laneState s n) && decide (laneState s n ≤ 9) && !seeksLock s n

/-- Base period and sample period of a lane's active format. -/
def lnP0 (s : State) (n : Nat) : Nat := fmtP0 (lnAfmt s n)
def lnP (s : State) (n : Nat) : Nat := fmtP (lnAfmt s n) (lnAdiv s n)

/-- Positions of a SAMPLE frame (R40). -/
def framePos (s : State) (n : Nat) : Nat := 5120 / fmtN (lnAfmt s n)

/-- LALIGN in force; 0 while no plan is active (R48). -/
def lalign (s : State) : Nat := pLalign (plan s)

/-- u of a base-rate position, in 1/2048 tick (R47). -/
def posU (s : State) (n pos : Nat) : Int := (lane s n).u2048 + (2048 * lnP0 s n * pos : Nat)

/-- The stamp of a base-rate position (R48). -/
def posStamp (s : State) (n pos : Nat) : Nat := (roundHalfUp (posU s n pos) 2048 + (lalign s : Int)).toNat

/-- LANEDSK (R50, R60): RES is the fraction above the rounded instant, PHASE the stamp modulo P. -/
def laneDsk (s : State) (n : Nat) : W32 :=
  let x := lane s n
  if n < 128 ∧ x.passedEcho then
    let r := roundHalfUp x.u2048 2048
    let res := (16 * (x.u2048 - 2048 * r)) / 2048
    let ph := ((r + (lalign s : Int)) % (lnP s n : Nat)).toNat
    BitVec.ofNat 32 (toField 4 res * 2 ^ 28 + ph % 2 ^ 24)
  else 0#32

/-- A change of the lane registers that the engine refuses (R349): CFGLOG and GLBEVT.CFGREJ, and for a refused write a bus error of KIND
0x6. -/
def cfgReject (reason off : Nat) (dropped : Bool) (s : State) : State :=
  let s1 := setSource 0 (cfgLog reason off s)
  if dropped then busError 6 0 off s1 else s1

/-! ### Missing runs (R52, R55) -/

/-- The run that is open, if any. -/
def openMiss (x : LaneSt) : Bool := x.miss.any fun m => m.last.isNone

/-- Close an open run at a tick. -/
def closeMiss (last : Nat) (l : List Miss) : List Miss := l.map fun m => if m.last.isNone then { m with last := some last } else m

/-- A lane stops delivering: its gap opens at the first position not received, with the LANESTAT.CAUSE it has then (R55, R147). -/
def openGap (n detail : Nat) (s : State) : State :=
  let x := lane s n
  if n < 128 ∧ x.placed ∧ !openMiss x then
    setLane n { x with miss := x.miss ++ [{ first := posStamp s n x.nextPos, last := none, cause := 1, detail := detail }] } s
  else s

/-- Leave RUN (or any state) for another one, with the gap that begins there. -/
def leaveRun (n st cause : Nat) (s : State) : State := openGap n cause (setLaneState n st cause s)

/-- A lane is powered down into DISABLED or into DOWN with CAUSE 0x0 (R404). -/
def laneOff (n st : Nat) (s : State) : State := if laneState s n = lnRun then leaveRun n st 0 s else setLaneState n st 0 s

/-- LANECTL.EN takes a value (R404). -/
def setLaneEn (n : Nat) (en : Bool) (s : State) : State :=
  let s1 := setReg (laneBase n + 8) (BitVec.ofNat 32 (b2n en)) s
  if !en then (if laneState s n = lnDisabled then s1 else laneOff n lnDisabled s1)
  else if laneState s n = lnDisabled then setLaneState n lnDown 0 s1 else s1

/-! ### Frames the engine transmits (R35 to R38) -/

/-- A codeword slot of the transmit stream in 1/225 tick: 5,440 bits at 56.25 Gbit/s (R34). -/
def slotLen : Nat := 1114112

/-- The next codeword slot of a lane begins within the slice that passes now. (DESIGN CHOICE: log entry 80.) -/
def slotOpen (s : State) (n : Nat) : Bool := decide ((lane s n).txAt < 225 * (nowT s + 32))

/-- A frame takes the next codeword slot of a lane. (DESIGN CHOICE: log entry 80.) -/
def sendSlot (n : Nat) (f : TxFrame) (s : State) : State :=
  setLane n { lane s n with txAt := max (lane s n).txAt (225 * nowT s) + slotLen, txSlots := (lane s n).txSlots + 1 } (sendFrame n f s)

/-- Transmit a CONTROL frame with these payload bytes; SEQ counts CONTROL frames modulo 4,096 (R35), and the first carries 0, the count of
those before it. (DESIGN CHOICE: log entry 80.) -/
def sendControl (n code : Nat) (payload : Mem) (s : State) : State :=
  let s1 := sendSlot n (.control (lane s n).ctrlSeq code payload) s
  setLane n { lane s1 n with ctrlSeq := ((lane s n).ctrlSeq + 1) % 4096 } s1

/-- The payload of an engine CONTROL frame: CCODE, LEN, data (R37). -/
def controlBytes (code : Nat) (data : List Byte) : Mem := memPut (memPut [] 0 (leBytes 2 code ++ leBytes 2 data.length)) 8 data

/-- A CONTROL frame waits for the CONTROL position of R13. -/
def queueControl (n code : Nat) (data : List Byte) (s : State) : State :=
  setLane n { lane s n with txq := (lane s n).txq ++ [(code, controlBytes code data)] } s

/-- FORMAT_SET with the active format and divisor (R38, R44, R58). -/
def sendFormatSet (n : Nat) (s : State) : State :=
  queueControl n 1 [BitVec.ofNat 8 (lnAfmt s n), BitVec.ofNat 8 (lnAdiv s n)] s

/-- TXEQ_REQ: the preset and the steps that the engine asks for are not stated, so they are a free value (R38, R44). (DESIGN CHOICE: log entry 81.) -/
def sendTxeqReq (n : Nat) (s : State) : State :=
  let f := takeFree s
  queueControl n 3 [BitVec.ofNat 8 (f.1.toNat % 16), BitVec.ofNat 8 (f.1.toNat / 256), BitVec.ofNat 8 (f.1.toNat / 65536)] f.2

/-- A lane transmits from SIGDET on: in training, RUN and RESUME, and while it is DOWN with a cause or FAILED and so still powered (R44,
R404). (DEDUCED: log entry 80.) -/
def transmits (s : State) (n : Nat) : Bool :=
  let st := laneState s n
  (decide (1 ≤ st) && decide (st ≤ 9)) || st == lnFailed || (st == lnDown && lnCause s n != 0)

/-- An ECHO is due: one of the 64 of the ECHO state, which follow each other, or in RUN the one in every 1,024 codeword slots (R44, R51).
(DESIGN CHOICE: log entry 80.) -/
def echoDue (s : State) (n : Nat) : Bool :=
  (laneState s n == lnEcho && decide ((lane s n).echoSent < 64)) || (laneState s n == lnRun && decide (1023 ≤ (lane s n).txSlots))

/-- T_TX: the tick at which the first bit of the next codeword slot leaves (R37). -/
def slotTick (s : State) (n : Nat) : Nat := s.tb.tick + ((lane s n).txAt - 225 * nowT s) / 225

/-- An ECHO frame takes the next slot (R37, R51). -/
def sendEcho (n : Nat) (s : State) : State :=
  let x := lane s n
  let s1 := count (laneCtr n 10) (sendSlot n (.echo x.ctrlSeq (slotTick s n) x.echoNum) s)
  setLane n { lane s1 n with echoNum := (x.echoNum + 1) % 65536, txSlots := 0,
                             echoSent := if laneState s n = lnEcho then x.echoSent + 1 else x.echoSent } s1

/-- CONTROL frames go out in the states whose table rows exchange them, and in RUN (R44, R58, R61). -/
def controlState (s : State) (n : Nat) : Bool := decide (5 ≤ laneState s n) && decide (laneState s n ≤ 8)

/-- The mailbox holds a frame to send, in RUN or CONFIRM (R61). -/
def mailboxDue (s : State) (n : Nat) : Bool :=
  decide (n < laneCount s) && rf s (laneBase n + 0x24) 31 31 == 1 && (laneState s n == lnRun || laneState s n == lnConfirm)

/-- The mailbox frame takes the next slot (R61). -/
def sendMailbox (n : Nat) (s : State) : State :=
  let b := (lane s n).txBuf
  setRf (laneBase n + 0x24) 31 31 0 (sendControl n (memLE b 0 2) b s)

/-- One codeword slot of a lane: ECHO first, then CONTROL, else IDLE (R13). The engine's own CONTROL frames precede the mailbox frame.
(DESIGN CHOICE: log entry 80.) -/
def transmit (n : Nat) (s : State) : State :=
  if echoDue s n then sendEcho n s
  else match controlState s n, (lane s n).txq with
    | true, (code, b) :: rest => sendControl n code b (setLane n { lane s n with txq := rest } s)
    | _, _ => if mailboxDue s n then sendMailbox n s else sendSlot n (.idle (lane s n).ctrlSeq) s

/-- The slot of a lane that begins in this slice, if no row took it. (DESIGN CHOICE: log entry 80.) -/
def transmitDue (s : State) (n : Nat) : State := if transmits s n && slotOpen s n then transmit n s else s

/-! ### Training (R44) -/

/-- Timeout of a training state in µs. -/
def stateTimeout (st : Nat) : Nat := [0, 5000, 2000, 25000, 1000, 20000, 1000, 1000].getD st 0

/-- Enter a training state; its timeout does not restart on re-entry (R44). (DEDUCED: log entry 26.) -/
def enterState (n st : Nat) (s : State) : State :=
  let s1 := setLaneState n st 0 s
  let x := lane s1 n
  let x1 := if (tblFind x.stateAt st).isNone then { x with stateAt := tblSet x.stateAt st (nowT s) } else x
  if st = lnEcho then
    setReg (laneBase n + 0x1C) 0#32 (setLane n { x1 with echoes := 0, sumD32 := 0, sumU32 := 0, echoSent := 0, latRaw := none } s1)
  else if st = lnConfirm then sendFormatSet n (setLane n { x1 with ackOk := false, markOk := false } s1)
  else if st = lnFeclock then setLane n { x1 with fecRun := 0 } s1
  else if st = lnTxeq then sendTxeqReq n (setLane n x1 s1)
  else setLane n x1 s1

/-- Begin a sequence of training states; `retrain` for the repeats of R58 and R81. Training from SIGDET and a new format lose the place in
the sample stream, which a MARK gives again (R39, R52). -/
def beginTraining (n st : Nat) (retrain : Bool) (s : State) : State :=
  let s1 := if laneState s n = lnRun then openGap n 0 s else s
  let x := lane s1 n
  let x1 := { x with trainStart := nowT s, stateAt := [], retrain := retrain, uncorr := 0,
                     placed := x.placed && st == lnEcho, lastSeq := if st = lnEcho then x.lastSeq else none }
  enterState n st (setLane n (if st = lnSigdet then { x1 with txq := [], txAt := 225 * nowT s, txSlots := 0 } else x1) s1)

/-- Whether the state's timeout or the 60 ms of the sequence have run out (R44). -/
def trainingLate (s : State) (n : Nat) : Bool :=
  let x := lane s n
  let st := laneState s n
  decide (tblGet x.stateAt st 0 + stateTimeout st * usTicks ≤ nowT s) || decide (x.trainStart + 60000 * usTicks ≤ nowT s)

/-- A lane enters FAILED (R44, R58). -/
def trainFail (n cause : Nat) (s : State) : State := raise (srcLane n 1) cause (setLaneState n lnFailed cause s)

/-- A lane reaches RUN (R44). A lane back in RUN after a repeat of CONFIRM and ECHO (R58, R81) does not set TRAINDONE, which tells of
training. (DESIGN CHOICE: log entry 26.) -/
def enterRun (n : Nat) (s : State) : State :=
  let x := lane s n
  let s1 := setLaneState n lnRun 0 (setLane n { x with retrain := false, uncorr := 0 } s)
  if x.retrain then s1 else setSource (srcLane n 2) s1

/-- LATCLASS limit in ticks (R47). -/
def latLimit (c : Nat) : Nat := [12800, 51200, 204800, 0].getD c 0

/-- The ECHO state has 64 replies. A delay beyond LATCLASS fails the lane, which then keeps its deskew; otherwise the deskew is fixed
(R44, R47, R50, R51), and Λ is the latency that the state measured (R49). LANEOWD is rounded down to 1/16 tick, and a negative D shows as
0. (DESIGN CHOICE: log entry 26.) -/
def finishEcho (n : Nat) (s : State) : State :=
  let x := lane s n
  if 2048 * (latLimit (lnLatClass s n) : Int) < x.sumD32 then trainFail n 7 s
  else
    let lat := match x.latRaw with | some v => ((v - x.sumU32 + 2047) / 2048).toNat | none => 0
    let s1 := setReg (laneBase n + 0x20) (BitVec.ofNat 32 (x.sumD32 / 128).toNat) (setLane n { x with u2048 := x.sumU32, passedEcho := true } s)
    let s2 := if n < 128 then setReg (laneBase n + 0x1C) (BitVec.ofNat 32 lat) s1 else s1
    if n < 128 ∧ !x.retrain then enterState n lnConfirm s2 else enterRun n s2

/-! ### Losses of lock (R53, R54, R56) -/

/-- Loss of lock in RUN. -/
def loseLock (n : Nat) (s : State) : State :=
  let s1 := raise (srcLane n 5) 0 (count (laneCtr n 6) s)
  if lnAutores s n then
    let s2 := leaveRun n lnResume 0 s1
    setLane n { lane s2 n with lossAt := nowT s, uncorr := 0, fecRun := 0 } s2
  else
    let s2 := leaveRun n lnDown 0xB s1
    raise (srcLane n 3) 0xB (setLane n { lane s2 n with uncorr := 0 } s2)

/-- Loss of lock in a training state after CDR and before RUN: back to CDR, with the timeouts running on (R44). (DEDUCED: log entry 26.) -/
def loseTraining (n : Nat) (s : State) : State :=
  let s1 := raise (srcLane n 5) 0 (count (laneCtr n 6) s)
  let s2 := enterState n lnCdr s1
  setLane n { lane s2 n with uncorr := 0, retrain := false, fecRun := 0, placed := false, lastSeq := none } s2

/-- A lane in training after CDR. -/
def afterCdr (s : State) (n : Nat) : Bool := decide (3 ≤ laneState s n) && decide (laneState s n ≤ 7)

/-! ### Received frames -/

/-- The fields of a frame header (R35): TYPE, SEQ, the reserved bits, ATTN. -/
def frType (f : RxFrame) : Nat := bits f.hdr.toNat 19 17
def frSeq (f : RxFrame) : Nat := bits f.hdr.toNat 16 5
def frRsvd (f : RxFrame) : Bool := bits f.hdr.toNat 4 1 != 0
def frAttn (f : RxFrame) : Bool := bit f.hdr.toNat 0

/-- TYPE codes (R35). -/
def tyIdle : Nat := 0
def tySample : Nat := 1
def tyMark : Nat := 2
def tyControl : Nat := 3
def tyEcho : Nat := 4

/-- The CCODE of a CONTROL frame, and its data bytes (R37). -/
def frCcode (f : RxFrame) : Nat := memLE f.payload 0 2
def frData (f : RxFrame) (i : Nat) : Nat := (memGet f.payload (8 + i)).toNat

/-- A signed data byte (R38). -/
def frSigned (f : RxFrame) (i : Nat) : Int := ofField 8 (frData f i)

/-- The fields of an ECHO reply (R37). -/
def echoOf (f : RxFrame) (trx16 : Nat) : EchoReply :=
  { ttx := memLE f.payload 0 8, num := memLE f.payload 8 2, sref := memLE f.payload 10 6, fr := memLE f.payload 16 4,
    turn := memLE f.payload 20 4, trx16 := trx16 }

/-- A codeword is decodable up to 15 symbol errors (R34). -/
def decodable (f : RxFrame) : Bool := decide (f.wrong ≤ 15)

/-- A decodable codeword while the engine has FEC lock: the counters of R62; the run of uncorrectable ones ends. -/
def goodCodeword (n : Nat) (f : RxFrame) (s : State) : State :=
  let s1 := count (laneCtr n 0) s
  let s2 := if 0 < f.wrong then countN f.wrong (laneCtr n 2) (count (laneCtr n 1) s1) else s1
  setLane n { lane s2 n with uncorr := 0 } s2

/-- A good frame with a known TYPE: counters of R62, reserved header bits (R36), ATTN (R60). (DEDUCED: log entry 27.) -/
def goodFrame (n : Nat) (f : RxFrame) (s : State) : State :=
  let s1 := goodCodeword n f s
  let s2 := if frRsvd f then count (laneCtr n 9) s1 else s1
  if n < 128 then
    let s3 := setRf (laneBase n + 0x10) 15 15 (b2n (frAttn f)) s2
    if frAttn f && !lnAttn s2 n then setSource (srcLane n 7) s3 else s3
  else s2

/-- An uncorrectable codeword: its frame is lost; the third in a row is a loss of lock (R34, R53). While lock is sought it ends the run of
decodable codewords; in a fast resume that has lock again, the third in a row loses that lock, and the search begins anew.
(DEDUCED: log entry 26.) -/
def badCodeword (n : Nat) (s : State) : State :=
  if seeksLock s n then setLane n { lane s n with fecRun := 0 } s
  else
    let s1 := raise (srcLane n 0) 0 (count (laneCtr n 3) (count (laneCtr n 0) s))
    let s2 := setLane n { lane s1 n with uncorr := (lane s1 n).uncorr + 1 } s1
    if (lane s2 n).uncorr < 3 then s2
    else if laneState s n = lnRun then loseLock n s2
    else if afterCdr s n then loseTraining n s2
    else setLane n { lane s2 n with uncorr := 0, fecRun := 0 } s2

/-- A frame reaches a present link that has FEC lock; any other is not received. -/
def receives (s : State) (n : Nat) : Bool := linkPresent s n && rxLocked s n

/-- A codeword reaches the engine (R34): an uncorrectable one is discarded, one that comes while lock is sought counts toward lock, and the
frame of any other is put to `use`. -/
def withFrame (n : Nat) (f : RxFrame) (use : State → State) (s : State) : State :=
  if !linkPresent s n then s
  else if seeksLock s n then
    if decodable f then setLane n { lane s n with fecRun := (lane s n).fecRun + 1 } s else badCodeword n s
  else if !rxLocked s n then s
  else if decodable f then use s
  else badCodeword n s

/-- SAMPLE frames missing before a frame with this SEQ (R52). (DEDUCED: log entry 27.) -/
def missingBefore (x : LaneSt) (seq : Nat) : Nat := match x.lastSeq with | some s0 => (seq + 4096 - s0 % 4096 + 4095) % 4096 | none => 0

/-- Samples of a frame from position `pos` on, and the count of repeats that differ (R41); `held` is the word of the sample period in
progress, with its position. -/
def frameSamples (stamp : Nat → Nat) (k pos : Nat) (held : Option (Nat × BitVec 16)) (ws : List (BitVec 16)) : List Smp × Nat :=
  match ws with
  | [] => ([], 0)
  | w :: rest =>
    if pos % 2 ^ k = 0 then
      let r := frameSamples stamp k (pos + 1) (some (pos, w)) rest
      ({ stamp := stamp pos, word := w } :: r.1, r.2)
    else
      let r := frameSamples stamp k (pos + 1) held rest
      let differs := match held with | some (p, v) => p == pos / 2 ^ k * 2 ^ k && v != w | none => false
      (r.1, r.2 + b2n differs)

/-- The sample words of a payload: position j holds N bits from bit j × N on (R37). -/
def frameWords (s : State) (n : Nat) (b : Mem) : List (BitVec 16) :=
  let w := fmtN (lnAfmt s n)
  (List.range (framePos s n)).map fun j => BitVec.ofNat 16 (memLE b (j * w / 8) 2 / 2 ^ (j * w % 8) % 2 ^ w)

/-- Samples that the delay line still holds while no capture can use them (R137): at most 6,144 ticks old. -/
def keepSamples (s : State) (n : Nat) (l : List Smp) : List Smp :=
  if armed s then l else l.filter fun x => decide (s.tb.tick ≤ x.stamp + lnP s n + 6144)

/-- The event entries of a cascade frame that hold an event (R123). -/
def frameEntries (b : Mem) : List Nat := ((List.range 80).map fun k => memLE b (8 * k) 8).filter fun e => bit e 63

/-- The word with which repeats at the end of a frame are compared: that of the last multiple of 2^k (R41). -/
def lastHeld (k pos : Nat) (held : Option (Nat × BitVec 16)) (ws : List (BitVec 16)) : Option (Nat × BitVec 16) :=
  match ws with
  | [] => held
  | w :: rest => lastHeld k (pos + 1) (if pos % 2 ^ k = 0 then some (pos, w) else held) rest

/-- 2,048 × (decode tick - u of the frame's first position), with u without its deskew (R49). -/
def rawLatency (s : State) (n pos : Nat) : Int := 2048 * (s.tb.tick : Int) - (2048 * lnP0 s n * pos : Nat)

/-- The place of a SAMPLE frame is followed while the lane repeats CONFIRM or ECHO and delivers nothing; the ECHO state measures the
latency (R49, R52, R58, R81). (DEDUCED: log entries 26 and 27.) -/
def followFrame (n : Nat) (f : RxFrame) (s : State) : State :=
  let x := lane s n
  let m := missingBefore x (frSeq f)
  let p0 := x.nextPos + m * framePos s n
  if !x.placed then s
  else
    let s1 := countN m (laneCtr n 5) s
    let raw := rawLatency s n p0
    setLane n { lane s1 n with lastSeq := some (frSeq f), nextPos := p0 + framePos s n, rep := none,
                               latRaw := if laneState s n = lnEcho then some (max raw (x.latRaw.getD raw)) else x.latRaw } s1

/-- An event frame on a cascade lane: the entries of K2 and K3, which face the upstream neighbour, wait to be applied (R122, R123). -/
def takeEvents (n : Nat) (f : RxFrame) (s : State) : State :=
  let s1 := setLane n { lane s n with lastSeq := some (frSeq f) } s
  if 130 ≤ n then { s1 with au := { s1.au with rxq := s1.au.rxq ++ frameEntries f.payload } } else s1

/-- The engine uses a SAMPLE frame (R41, R49, R52, R55). (DEDUCED: log entries 26 and 27.) -/
def takeFrame (n : Nat) (f : RxFrame) (s : State) : State :=
  let x := lane s n
  let m := missingBefore x (frSeq f)
  let s1 := countN m (laneCtr n 5) (count (laneCtr n 4) s)
  if 128 ≤ n then takeEvents n f s1
  else
    let p0 := x.nextPos + m * framePos s n
    let k := lnAdiv s n
    let upTo := posStamp s n p0 - 1
    let miss := if openMiss x then closeMiss upTo x.miss
      else if m = 0 then x.miss
      else x.miss ++ [{ first := posStamp s n x.nextPos, last := some upTo, cause := 1, detail := lnCause s n }]
    let ws := frameWords s n f.payload
    let r := frameSamples (posStamp s n) k p0 x.rep ws
    let lat := ((rawLatency s n p0 - x.u2048 + 2047) / 2048).toNat
    let s2 := setReg (laneBase n + 0x1C) (BitVec.ofNat 32 (max (laneLat s n) lat)) (countN r.2 (laneCtr n 13) s1)
    setLane n { lane s2 n with lastSeq := some (frSeq f), nextPos := p0 + framePos s n, rep := lastHeld k p0 x.rep ws,
                               samples := keepSamples s n x.samples ++ r.1, miss := if armed s then miss else [] } s2

/-! ### Formats (R58) -/

/-- Whether LANECFG and LANEDESC values agree (R58). -/
def fmtAgrees (cfg desc : W32) : Bool :=
  fmtDefined (fld cfg 2 0) (fld cfg 7 3) && bit (fld desc 31 26) (fld cfg 2 0)

/-- The staged format and divisor become active; a lane in RUN sends FORMAT_SET and repeats CONFIRM and ECHO (R58). (DEDUCED: log entry 25.) -/
def takeFormat (n : Nat) (s : State) : State :=
  let f := lnFmt s n
  let k := lnDiv s n
  if lnAfmt s n = f ∧ lnAdiv s n = k then s
  else if laneState s n = lnRun then
    let s1 := openGap n 0 s
    beginTraining n lnConfirm true (setRf (laneBase n + 0x10) 23 16 (32 * f + k) s1)
  else setRf (laneBase n + 0x10) 23 16 (32 * f + k) s

end Sys2Proof.Machine
end

