-- ==== Sys2Proof/Machine/Guard.lean ====
section
/-! DEFINITION. Guarded writes and custody (R343 to R346). -/

namespace Sys2Proof.Machine

/-- The key of a class (R343). -/
def gwKey (c : GwClass) : Nat := match c with | .clk => 0x3C71 | .mem => 0x4D6E | .pwr => 0x5A0F | .cst => 0x6B2D

/-- The class bit in CLASSES, and the code of GUARDSTAT.ARMED less 1 (R345, R351). -/
def gwBit (c : GwClass) : Nat := match c with | .clk => 0 | .mem => 1 | .pwr => 2 | .cst => 3

/-- The FUSE key, which only CSQ may use (R343). -/
def fuseKey : Nat := 0x7E94

/-- GUARDSTAT.CUSTODY. -/
def custody (s : State) : Bool := rf s 0x14 31 31 == 1

/-- Whether a master is privileged for a class (R343, R344). -/
def privileged (s : State) (m : Master) (c : GwClass) : Bool :=
  match m with | .csq => true | .host => custody s && bit (rf s 0x14 20 16) (gwBit c)

/-- A master's arm state (R344). -/
def armOf (s : State) (m : Master) : Option GwClass := match m with | .host => s.guard.hostArm | .csq => s.guard.csqArm

/-- Set a master's arm state. -/
def setArm (m : Master) (a : Option GwClass) (s : State) : State :=
  match m with
  | .host => { s with guard := { s.guard with hostArm := a } }
  | .csq => { s with guard := { s.guard with csqArm := a } }

/-- A guarded write that is dropped: KIND 0x7, GUARDREJ, and the writer is disarmed (R344). -/
def guardDrop (m : Master) (off : Nat) (s : State) : State := setSource 1 (busError 7 0 off (setArm m none s))

/-- A GW write of class `c`: passed on with the key consumed when the writer has the class armed, dropped otherwise (R344). -/
def guarded (m : Master) (c : GwClass) (off : Nat) (write : State → State) (s : State) : State :=
  if privileged s m c && armOf s m == some c then write (setArm m none s) else guardDrop m off s

/-- The classes. -/
def gwClasses : List GwClass := [.clk, .mem, .pwr, .cst]

/-- A write of GUARDKEY (R344). On stepping B0 CSQ's FUSE key arms a class that no register of the engine has. (DEDUCED: log entry 75.) -/
def writeGuardkey (m : Master) (v : W32) (s : State) : State :=
  match gwClasses.find? fun c => gwKey c == fld v 15 0 && privileged s m c with
  | some c => setArm m (some c) s
  | none => if fld v 15 0 = fuseKey ∧ m = .csq then setArm m none s else guardDrop m 0x10 s

/-- The meaning of GUARDKEY. -/
def execGuardkey (m : Master) (v : W32) (s : State) : Out := engineStep s (masterMem m (writeGuardkey m v) s)

/-- Draw a new nonce (R346; log entry 13). (DEDUCED: log entry 75.) -/
def newNonce (s : State) : State :=
  let n := Config.entropy s.guard.draws
  setReg 0x20 (n.setWidth 32) (setReg 0x24 ((n >>> 32).setWidth 32) { s with guard := { s.guard with draws := s.guard.draws + 1 } })

/-- Custody ends: the host is disarmed and GLBEVT.CUSTODY raised (R346). -/
def endCustody (s : State) : State :=
  let s1 := setArm .host none s
  if custody s then setSource 2 (setReg 0x14 0#32 s1) else s1

/-- The MAGIC of a grant (R345). -/
def grantMagic : Nat := 0x59444F5453554356

/-- The nonce in force. -/
def nonceNow (s : State) : Nat := (reg s 0x20).toNat + (reg s 0x24).toNat * 2 ^ 32

/-- PUBKEY of the loaded boot image (R312). -/
def bootKey (s : State) : Image := match s.stores.base with | some b => imSlice b 32 96 | none => Image.empty

/-- The refusals of CUSTODY_GRANT on the grant that the host read returned (R345). (DEDUCED, PRESUMED: log entries 12 and 20.) -/
def grantCheck (d : HostRead) (s : State) : Option Refuse :=
  match d with
  | .data im =>
    let cls := imLE im 24 1
    if imLE im 0 8 ≠ grantMagic ∨ cls = 0 ∨ 16 ≤ cls ∨ imLE im 25 7 ≠ 0 then some (plainRefuse stBadParam)
    else if imLE im 8 8 ≠ s.pcie.serial.toNat ∨ imLE im 16 8 ≠ nonceNow s ∨
        !signatureOk (bootKey s) (imSlice im 0 32) (imSlice im 32 96) then some (plainRefuse stNotPrivileged)
    else none
  | _ => none

/-- CUSTODY_GRANT: custody held is a state refusal; the grant is judged after it. -/
def grantBusy (d : HostRead) (s : State) : Option Refuse :=
  if custody s then some (plainRefuse stBusy) else grantCheck d s

/-- The effect of CUSTODY_GRANT. (DEDUCED: log entry 75.) -/
def runCustodyGrant (im : Image) (o : Nat) (s : State) : State :=
  finishCmd o stDone 0 0 0 (newNonce (setSource 2 (setReg 0x14 (BitVec.ofNat 32 (2 ^ 31 + imLE im 24 1 * 2 ^ 16)) s)))

/-- The row of CUSTODY_GRANT. -/
def grantRow (e : Entry) (d : HostRead) : CmdRow :=
  { baseRow opCustodyGrant with
    bad := fun _ => pn e.p1 != 0 && pn e.p1 != 128,
    zero := pn e.p1 == 0,
    busy := fun s => if pn e.p1 = 0 then none else grantBusy d s,
    run := withHostData d runCustodyGrant }

/-- CUSTODY_GRANT reads the grant. -/
def doCustodyGrant (r : Nat) (e : Entry) : State → State := submitRead r opCustodyGrant e (pn e.p0) (pn e.p1) (grantRow e)

/-- The meaning of CUSTODY_GRANT. -/
def execCustodyGrant (r : Nat) (e : Entry) (s : State) : Out := engineStep s (doCustodyGrant r e s)

/-- CUSTODY_RELEASE (R346). A new nonce follows an accepted grant or a reset only. (DEDUCED: log entry 75.) -/
def doCustodyRelease (r : Nat) (e : Entry) : State → State :=
  submit r opCustodyRelease e { baseRow opCustodyRelease with
    run := fun o s => finishCmd o stDone 0 0 0 (if custody s then endCustody s else s) }

/-- The meaning of CUSTODY_RELEASE. -/
def execCustodyRelease (r : Nat) (e : Entry) (s : State) : Out := engineStep s (doCustodyRelease r e s)

end Sys2Proof.Machine
end

