-- ==== Sys2Proof/Machine/Timebase.lean ====
section
/-! DEFINITION. The timebase: settings and COMMIT (R66 to R69), fabric PLLs (R70, R71), states (R73 to R78, R405), steps (R79) and
CONJUNCTION (R80 to R83). -/

namespace Sys2Proof.Machine

/-! ### Settings (R68, R69) -/

/-- Settings from the five staged words. -/
def tbDecode (d0 d1 d2 dith ph : W32) : TbSettings :=
  { refsel := fld d0 27 26, mode := bit d0.toNat 25, nint := fld d0 9 0, nfrac := fld d1 23 0, nmod := fld d2 23 0,
    den := bit dith.toNat 16, seed := fld dith 15 0, phoff := fld ph 12 0 }

/-- The staged settings. -/
def tbStaged (s : State) : TbSettings := tbDecode (reg s 0x40000) (reg s 0x40004) (reg s 0x40008) (reg s 0x4000C) (reg s 0x40010)

/-- The reference frequency in 10 kHz (R84). -/
def refFreq (r : Nat) : Nat := [10000, 1000, 2500, 15625].getD r 0

/-- The reference period in whole ticks (R66). -/
def refPeriod (r : Nat) : Nat := [512, 5120, 2048, 327].getD r 0

/-- Whether staged settings agree (R68): 6.4 GHz is 640,000 × 10 kHz, and 100 ppm of it 64. -/
def tbAgrees (v : TbSettings) : Bool :=
  let x := (v.nint * v.nmod + v.nfrac) * refFreq v.refsel
  let y := 640000 * v.nmod
  decide (v.nmod ≠ 0) && decide (v.nfrac < v.nmod) && decide (32 ≤ v.nint) && decide (x ≤ y + 64 * v.nmod) && decide (y ≤ x + 64 * v.nmod) &&
    !(v.den && v.seed == 0) && !(v.mode && (v.nfrac != 0 || v.den || decide (refPeriod v.refsel ≤ v.phoff)))

/-- Whether a COMMIT of these settings falls under R69. -/
def tbReconf (s : State) (v : TbSettings) : Bool :=
  let a := s.tb.act
  a.refsel != v.refsel || a.nint != v.nint || a.nfrac != v.nfrac || a.nmod != v.nmod || a.mode != v.mode || (v.mode && a.phoff != v.phoff)

/-! ### States and records (R73 to R76) -/

def setTbState (st : Nat) (s : State) : State := setRf 0x4001C 31 28 st s
def waitHost (s : State) : Bool := rf s 0x4001C 27 27 == 1
def setWaitHost (b : Bool) (s : State) : State := setRf 0x4001C 27 27 (b2n b) s
def setRefOk (b : Bool) (s : State) : State := setRf 0x4001C 26 26 (b2n b) s

/-- TBOFFSET as a signed number of 1/16 ticks. -/
def tbOffset (s : State) : Int := ofField 32 (reg s 0x40024).toNat

/-- Write TBOFFSET, saturating (R84). -/
def setOffset (d : Int) (s : State) : State :=
  let m : Int := 2 ^ 31 - 1
  setReg 0x40024 (BitVec.ofNat 32 (toField 32 (max (-m) (min m d)))) s

/-- Write TBSLEW, in 0.01 ppm. -/
def setSlew (v : Int) (s : State) : State := setReg 0x40028 (BitVec.ofNat 32 (toField 16 v)) s

/-- The streams that receive records with timestamp t. -/
def activeAt (s : State) (t : Nat) : List Nat := (s.streams.filter fun p => p.2.active && !fullBy p.2 t).map fun p => p.1

/-- Queue a record in every stream active at its timestamp. -/
def intoActive (q : QRec) (s : State) : State := (activeAt s q.ts).foldl (fun t i => enqueue i q t) s

/-- Entry into ECLIPSE (R74): the record, TBSTAT and the event. -/
def enterEclipse (cause : Nat) (s : State) : State :=
  let t := s.tb.tick
  let s1 := intoActive (timebaseRec t 1 cause 0 0 0) s
  let s2 := setSlew 0 (setRf 0x4001C 25 24 cause (setRefOk false (setWaitHost false (setTbState tbEclipse s1))))
  raise (srcTb 0) cause { s2 with tb := { s2.tb with eclipseAt := nowT s, lastEclipse := t } }

/-- ECLIPSE_END: the timebase enters REACQUIRE and slews (R74). -/
def enterReacquire (path : Nat) (delta16 slew : Int) (s : State) : State :=
  setSlew slew (setWaitHost false (setTbState tbReacquire (intoActive (timebaseRec s.tb.tick 2 path delta16 0 0) s)))

/-- The sign of an offset. -/
def signOf (d : Int) : Int := if d < 0 then -1 else if d = 0 then 0 else 1

/-! ### COMMIT (R68, R69, R74) -/

/-- Agreeing settings take effect at once. The dither LFSR starts from SEED at every COMMIT (R67). -/
def settleTb (v : TbSettings) (s : State) : State :=
  let re := tbReconf s v
  let s1 := setRf 0x4001C 23 23 (b2n v.mode) { s with tb := { s.tb with act := v, lfsr := v.seed } }
  if re && tbState s != tbInitial then enterEclipse 3 s1 else s1

/-- Agreeing settings take effect, but behind a step that is ordered and waits for the next slice boundary, which comes first (R74, R79).
(DEDUCED: log entry 30.) -/
def applyTb (v : TbSettings) (s : State) : State :=
  if s.tb.order.isSome then { s with tb := { s.tb with later := some v } } else settleTb v s

/-- Why a COMMIT of settings has no effect, if it has none: refused while armed (3, a bus error) or in disagreement (2) (R68, R69, R347, R351). -/
def tbVerdict (v : TbSettings) (s : State) : Option (Nat × Bool) :=
  if (armed s || admitting s) && tbReconf s v then some (3, true) else if !tbAgrees v then some (2, false) else none

/-- The COMMITs that wait for their edge. -/
def withCommits (l : List TbWait) (s : State) : State := { s with house := { s.house with commits := l } }

/-- A COMMIT write takes the staged values and is judged, unless an earlier COMMIT still takes effect; its settings take effect at the second
housekeeping edge (R21, R347, R348). -/
def orderTb (v : TbSettings) (o : Option Nat) (s : State) : State :=
  withCommits (s.house.commits ++ [{ edge := secondEdge s, set := v, judged := s.house.commits.isEmpty || o.isSome, origin := o }]) s

/-- What an accepted write of 1 to TBCOMMIT does (R68, R69, R347, R348). -/
def commitTb (v : W32) (s : State) : State :=
  if !bit v.toNat 0 then s
  else
    let n := tbStaged s
    match (if s.house.commits.isEmpty then tbVerdict n s else none) with
    | some (reason, busErr) => cfgReject reason 0x40014 busErr s
    | none => orderTb n none s

/-- A COMMIT reaches its domain: one that waited for another is judged now (R348), and a TIMEBASE_SET completes with TBSTAT (R251). -/
def settleCommit (c : TbWait) (s : State) : State :=
  match (if c.judged then none else tbVerdict c.set s) with
  | some (reason, busErr) => cfgReject reason 0x40014 busErr s
  | none =>
    let t := applyTb c.set s
    match c.origin with
    | some o => finishCmd o stDone ((reg t 0x4001C).setWidth 64) 0 0 t
    | none => t

/-- The COMMITs whose edge has come take effect, in order. -/
def settleCommits (l : List TbWait) (s : State) : State :=
  match l with
  | [] => s
  | c :: rest => if c.edge ≤ nowT s then settleCommits rest (settleCommit c (withCommits rest s)) else s

/-- A write of TBCOMMIT, a GW register of class CLK (R69, R343). (DEDUCED: log entry 25.) -/
def writeTbcommit (m : Master) (v : W32) (s : State) : State := guarded m .clk 0x40014 (commitTb v) s

/-- The meaning of TBCOMMIT. -/
def execTbcommit (m : Master) (v : W32) (s : State) : Out := engineStep s (masterMem m (writeTbcommit m v) s)

/-- The five words of TIMEBASE_SET with the bits each register defines (R84, R251). -/
def tbWords (e : Entry) : List (Nat × W32 × W32) :=
  let w (p : W64) (hi : Bool) : W32 := BitVec.ofNat 32 (if hi then pf p 63 32 else pf p 31 0)
  [(0x40000, w e.p0 false, 0x0E0003FF#32), (0x40004, w e.p0 true, 0x00FFFFFF#32), (0x40008, w e.p1 false, 0x00FFFFFF#32),
   (0x4000C, w e.p1 true, 0x0001FFFF#32), (0x40010, w e.p2 false, 0x00001FFF#32)]

/-- The settings that TIMEBASE_SET names. -/
def tbOfEntry (e : Entry) : TbSettings :=
  let w (i : Nat) : W32 := ((tbWords e).getD i (0, 0#32, 0#32)).2.1
  tbDecode (w 0) (w 1) (w 2) (w 3) (w 4)

/-- The effect of TIMEBASE_SET: it writes the five registers and commits them, as any privileged master does, and it ends when the COMMIT has taken effect. -/
def runTimebaseSet (e : Entry) (o : Nat) (s : State) : State :=
  orderTb (tbOfEntry e) (some o) ((tbWords e).foldl (fun t x => setReg x.1 x.2.1 t) s)

/-- TIMEBASE_SET. -/
def doTimebaseSet (r : Nat) (e : Entry) : State → State :=
  submit r opTimebaseSet e { baseRow opTimebaseSet with
    bad := fun _ => ((tbWords e).any fun x => x.2.1 &&& ~~~x.2.2 != 0) || !tbAgrees (tbOfEntry e),
    busy := busyIf fun s => armed s && tbReconf s (tbOfEntry e),
    run := runTimebaseSet e }

/-- The meaning of TIMEBASE_SET. -/
def execTimebaseSet (r : Nat) (e : Entry) (s : State) : Out := engineStep s (doTimebaseSet r e s)

/-! ### Transitions that events cause (R74) -/

/-- FIRST_LOCK: the counter starts at 0; both fabric PLLs have locked to TBREF by then (R66). (DEDUCED: log entry 28.) -/
def doFirstLock (s : State) : State :=
  if tbState s = tbInitial then
    let s1 := { s with tb := { s.tb with tick := 0, lfsr := s.tb.act.seed } }
    updateReady (setSource (srcTb 2) (setRf 0x40044 1 0 3 (setRefOk true (setTbState tbLocked s1))))
  else s

/-- The meaning of FIRST_LOCK. -/
def execFirstLock (s : State) : Out := engineStep s (doFirstLock s)

/-- The causes of an ECLIPSE. -/
def eclipseCode (c : LockFail) : Nat := match c with | .lockLoss => 1 | .refLoss => 2

/-- ECLIPSE: a loss of lock from LOCKED or REACQUIRE; a missing edge from LOCKED, REACQUIRE, or ECLIPSE with WAITHOST = 1. In ECLIPSE
with WAITHOST = 0 a missing edge restarts the 1 ms. A step ordered comes first: its slice boundary is the next. -/
def doEclipse (c : LockFail) (s : State) : State :=
  let st := tbState s
  if s.tb.order.isSome then s
  else match c with
    | .lockLoss => if st = tbLocked ∨ st = tbReacquire then enterEclipse 1 s else s
    | .refLoss =>
      if st = tbLocked ∨ st = tbReacquire ∨ (st = tbEclipse ∧ waitHost s) then enterEclipse 2 s
      else if st = tbEclipse then { s with tb := { s.tb with eclipseAt := nowT s } }
      else s

/-- The meaning of ECLIPSE. -/
def execEclipse (cause : LockFail) (s : State) : Out := engineStep s (doEclipse cause s)

/-- Δ by the cause of the eclipse (R405): after RECONFIG in native mode the first measurement defines the target. -/
def measured (delta16 : Int) (s : State) : Int := if rf s 0x4001C 25 24 = 3 ∧ !s.tb.act.mode then 0 else delta16

/-- Whether an offset lies within TBPHWIN.WINDOW: |Δ| / 16 ticks of 19.53125 ps (R77). (DEDUCED: log entry 29.) -/
def inWindow (d : Int) (s : State) : Bool := decide (d.natAbs * 1250 ≤ domRf s 0x40018 15 0 * 1024)

/-- REFERENCE_VALID: 1 ms of valid reference, and the offset measured (R74, R77). An automatic slew is at most 10 ppm; its rate is not
stated, so it is a free value within that bound (log entry 7). (DEDUCED: log entry 29.) -/
def doReferenceValid (delta16 : Int) (s : State) : State :=
  if tbState s = tbEclipse ∧ !waitHost s ∧ s.tb.eclipseAt + 1000 * usTicks ≤ nowT s then
    let d := measured delta16 s
    let s1 := setOffset d (setRefOk true s)
    if inWindow d s then
      let f := takeFree s1
      enterReacquire 1 d (signOf d * (f.1.toNat % 1001 : Nat)) f.2
    else setSource (srcTb 1) (setWaitHost true { s1 with tb := { s1.tb with offsetAt := nowT s } })
  else s

/-- The meaning of REFERENCE_VALID. -/
def execReferenceValid (delta16 : Int) (s : State) : Out := engineStep s (doReferenceValid delta16 s)

/-- OFFSET: the measurement of every millisecond while WAITHOST is 1 (R74). -/
def doOffset (delta16 : Int) (s : State) : State :=
  if tbState s = tbEclipse ∧ waitHost s ∧ s.tb.offsetAt + 1000 * usTicks ≤ nowT s then
    setOffset (measured delta16 s) { s with tb := { s.tb with offsetAt := s.tb.offsetAt + 1000 * usTicks } }
  else s

/-- The meaning of OFFSET. -/
def execOffset (delta16 : Int) (s : State) : Out := engineStep s (doOffset delta16 s)

/-- LOCKED: the residual is below 1/16 tick, so it measures at most 1 in 1/16 tick (R74, R77). (DEDUCED: log entry 29.) -/
def doLocked (residual16 : Int) (s : State) : State :=
  if tbState s = tbReacquire ∧ residual16.natAbs ≤ 1 then
    let s1 := intoActive (timebaseRec s.tb.tick 3 0 residual16 0 0) s
    let s2 := setSlew 0 (setTbState tbLocked { s1 with tb := { s1.tb with lfsr := s1.tb.act.seed } })
    setSource (srcTb 2) s2
  else s

/-- The meaning of LOCKED. -/
def execLocked (residual16 : Int) (s : State) : Out := engineStep s (doLocked residual16 s)

/-! ### TIMEBASE_REALIGN and STEP (R78, R79) -/

/-- Δs: Δ rounded to whole slices, halves away from zero (R79). (DEDUCED: log entry 29.) -/
def stepSize (d : Int) : Int := signOf d * (32 * ((d.natAbs + 256) / 512) : Nat)

/-- Whether any stream is active. -/
def anyActive (s : State) : Bool := s.streams.any fun p => p.2.active

/-- A signed result. -/
def w64i (x : Int) : W64 := BitVec.ofInt 64 x

/-- The effect of TIMEBASE_REALIGN: a slew at once, a step at the next slice boundary (R78, R79). (DEDUCED: log entry 29.) -/
def runRealign (e : Entry) (o : Nat) (s : State) : State :=
  let d := tbOffset s
  let rate := pn e.p1
  let ds := if pf e.p0 1 0 = 2 then stepSize d else 0
  if ds = 0 then
    finishCmd o stDone (BitVec.ofNat 64 s.tb.tick) 0 (w64i d) (enterReacquire 2 d (signOf d * (100 * rate : Nat)) s)
  else
    { s with tb := { s.tb with order := some { origin := o, accepted := s.tb.tick, ds := ds, r16 := d - 16 * ds, rate := rate, delta16 := d } } }

/-- TIMEBASE_REALIGN. A step's Δs is defined only while WAITHOST is 1. A second order between the acceptance of a step and its slice boundary
is refused with BUSY_STATE. (DESIGN CHOICE: log entry 30.) -/
def doTimebaseRealign (r : Nat) (e : Entry) : State → State :=
  submit r opTimebaseRealign e { baseRow opTimebaseRealign with
    bad := fun s => pn e.p0 == 0 || pn e.p0 == 3 || pn e.p1 == 0 || decide (100 < pn e.p1) ||
      (pn e.p0 == 2 && waitHost s && anyActive s && decide (stepSize (tbOffset s) < 0)),
    busy := busyIf fun s => !waitHost s || s.tb.order.isSome,
    run := runRealign e }

/-- The meaning of TIMEBASE_REALIGN. -/
def execTimebaseRealign (r : Nat) (e : Entry) (s : State) : Out := engineStep s (doTimebaseRealign r e s)

/-- A stamp at or after Tb moves with the counter (R79). (DEDUCED: log entry 30.) -/
def moved (tb : Nat) (ds : Int) (t : Nat) : Nat := if tb ≤ t then ((t : Int) + ds).toNat else t

/-- A lane's deskew and samples across a step; an open run of missing samples gives up the stamps with no instant (R151). -/
def stepLane (tb : Nat) (ds : Int) (active : Bool) (x : LaneSt) : LaneSt :=
  let opened := x.miss.find? fun m => m.last.isNone && decide (m.first < tb)
  let miss := match opened with
    | some m => if active then closeMiss (tb - 1) x.miss ++ [{ m with first := ((tb : Int) + ds).toNat, last := none }]
                else x.miss
    | none => x.miss.map fun m => { m with first := moved tb ds m.first, last := m.last.map (moved tb ds) }
  { x with u2048 := x.u2048 + 2048 * ds, samples := x.samples.map fun y => { y with stamp := moved tb ds y.stamp }, miss := miss }

/-- The first tick of a stream's open overrun or density gap, and its CAUSE (R152, R211). -/
def stallOf (x : Stream) : Option (Nat × Nat) :=
  match x.overAt, x.dens with
  | some a, _ => some (a, 6)
  | none, some a => some (a, 2)
  | none, none => none

/-- Move the first tick of the open overrun or density gap, and its lanes. -/
def setStall (i at_ mask : Nat) (s : State) : State :=
  let x := strm s i
  setStrm i { x with overAt := x.overAt.map fun _ => at_, dens := if x.overAt.isSome then x.dens else x.dens.map fun _ => at_, overMask := mask } s

/-- An overrun or density gap of a stream closes at tick `last` and reopens at `again` on the lanes of `mask` (R151). (DEDUCED: log entry 30.) -/
def cutStall (i last again mask : Nat) (s : State) : State :=
  let x := strm s i
  match stallOf x with
  | some (a, c) =>
    if a ≤ last then setStall i again mask (if x.overMask = 0 then s else gap i a last c x.overMask 0 s) else s
  | none => s

/-- The same on the lanes it had. -/
def cutOver (i last again : Nat) (s : State) : State := cutStall i last again (strm s i).overMask s

/-- The records of a step in one stream: ECLIPSE_END, STEP and the GAP over the stamps with no instant; the open records close at Tb − 1
when the writer reaches them (R79, R138). (DEDUCED: log entry 30.) -/
def stepStream (tb : Nat) (o : StepOrder) (i : Nat) (s : State) : State :=
  let new := ((tb : Int) + o.ds).toNat
  let mask := 2 ^ (pLanes (plan s) i).length - 1
  let s1 := cutOver i (tb - 1) new s
  let s2 := enqueue i (timebaseRec tb 4 0 0 tb new) (enqueue i (timebaseRec tb 2 3 o.delta16 0 0) s1)
  let s3 := gap i tb (new - 1) 4 mask 0 s2
  setStrm i { strm s3 i with nextTick := (strm s3 i).nextTick.map fun p => (p.1, moved tb o.ds p.2) } s3

/-- Capture state across a step: what is due after Tb keeps its distance in elapsed ticks (R65). (DEDUCED: log entry 30.) -/
def stepCap (tb : Nat) (ds : Int) (c : Cap) : Cap :=
  { c with t0 := if tb ≤ c.t0 ∧ (c.t0 : Int) < tb + ds then ((tb : Int) + ds).toNat else c.t0,
           segs := c.segs.map fun g => { g with s := moved tb ds g.s, nuc := g.nuc.map (moved tb ds), e := g.e.map (moved tb ds) },
           endAt := c.endAt.map fun p => (moved tb ds p.1, p.2),
           jumps := if c.state == .running then (tb, ds) :: c.jumps else c.jumps }

/-- TRIG_OUT across a step: an edge due after Tb and a pulse in progress keep their distance in elapsed ticks (R65, R119).
(DEDUCED: log entry 30.) -/
def stepAutos (tb : Nat) (ds : Int) (a : Autos) : Autos :=
  { a with forced := a.forced.map fun f => { f with tick := moved tb ds f.tick },
           edges := a.edges.map (moved tb ds),
           pulses := a.pulses.map fun u => if tb < u + 2560 then ((u : Int) + ds).toNat else u,
           lastSlice := if ds < 0 then a.lastSlice.map fun t => ((t : Int) + ds).toNat else a.lastSlice }

/-- STEP: the counter, which would have read Tb, reads Tb + Δs (R79). (DEDUCED: log entry 30.) -/
def doStep (s : State) : State :=
  match s.tb.order with
  | none => s
  | some o =>
    let tb := s.tb.tick
    if tb ≠ 32 * (o.accepted / 32) + 32 then s
    else
      let s1 := (activeAt s tb).foldl (fun t i => stepStream tb o i t) s
      let s2 := { s1 with lanes := s1.lanes.map fun p => (p.1, stepLane tb o.ds (anyActive s) p.2), cap := stepCap tb o.ds s1.cap,
                          au := stepAutos tb o.ds s1.au,
                          tb := { s1.tb with tick := (((tb : Int) + o.ds) % (2 ^ 64 : Nat)).toNat, order := none, later := none } }
      let s3 := setSlew (signOf o.r16 * (100 * o.rate : Nat)) (setWaitHost false (setTbState tbReacquire s2))
      let s4 := finishCmd o.origin stDone (BitVec.ofNat 64 tb) (w64i o.ds) (w64i o.delta16) (setSource (srcTb 3) s3)
      match s.tb.later with | some v => settleTb v s4 | none => s4

/-- The meaning of STEP. -/
def execStep (s : State) : Out := engineStep s (doStep s)

/-! ### Fabric PLLs (R70, R71) -/

/-- FPLLSTAT.ACT: 0 for PLL A. (DEDUCED: log entry 28.) -/
def pllAct (s : State) : Nat := rf s 0x40044 2 2

/-- Whether a fabric PLL is locked: 0 A, 1 B. (DEDUCED: log entry 28.) -/
def pllLocked (s : State) (p : Nat) : Bool := bit (reg s 0x40044).toNat p

/-- Whether a switchover is possible (R70). -/
def canSwitch (s : State) : Bool := domRf s 0x40040 0 0 == 1 && pllLocked s (1 - pllAct s)

/-- FSWITCH: the active PLL loses lock and the locked standby takes over (R70). -/
def doFswitch (s : State) : State :=
  let a := pllAct s
  if canSwitch s && pllLocked s a && s.tb.fabLost.isNone then
    raise (srcTb 5) 0 (setRf 0x40044 2 2 (1 - a) (setRf 0x40044 a a 0 s))
  else s

/-- The meaning of FSWITCH. -/
def execFswitch (s : State) : Out := engineStep s (doFswitch s)

/-- FLOCKLOSS: the active PLL loses lock and nothing can take over; the slice of the counter is the first that the fabric does not
process (R71). -/
def doFlockloss (s : State) : State :=
  let a := pllAct s
  if !canSwitch s && pllLocked s a && s.tb.fabLost.isNone then
    let s1 := setRf 0x40044 a a 0 s
    raise (srcTb 6) 0 { s1 with tb := { s1.tb with fabLost := some (32 * (s.tb.tick / 32)), fabAt := nowT s } }
  else s

/-- The meaning of FLOCKLOSS. -/
def execFlockloss (s : State) : Out := engineStep s (doFlockloss s)

/-- The ticks [a, b) that the fabric did not process are missing on a lane with cause CLOCK; an open LINK gap gives way to it and reopens
after it (R71, R151). -/
def clockLane (a b : Nat) (x : LaneSt) : LaneSt :=
  let lost : Miss := { first := a, last := some (b - 1), cause := 3, detail := 0 }
  let miss := match x.miss.find? fun m => m.last.isNone && decide (m.first < b) with
    | some m => (if m.first < a then closeMiss (a - 1) x.miss else x.miss.filter fun y => y.last.isSome) ++ [lost, { m with first := b, last := none }]
    | none => x.miss ++ [lost]
  { x with miss := miss, samples := x.samples.filter fun y => !(decide (a ≤ y.stamp) && decide (y.stamp < b)) }

/-- RELOCK: the failed PLL relocks, the CLOCK gap closes, and the deskew stage resumes with the slice that the counter names (R71). -/
def doRelock (s : State) : State :=
  match s.tb.fabLost with
  | none => s
  | some a =>
    let b := 32 * (s.tb.tick / 32)
    let p := pllAct s
    let s1 := setRf 0x40044 p p 1 { s with tb := { s.tb with fabLost := none } }
    if b ≤ a then s1
    else
      { s1 with lanes := if armed s then s1.lanes.map fun x => (x.1, clockLane a b x.2) else s1.lanes,
                au := { s1.au with lastSlice := s1.au.lastSlice.map fun t => if a ≤ t + 32 ∧ t + 32 < b then b - 32 else t } }

/-- The meaning of RELOCK. -/
def execRelock (s : State) : Out := engineStep s (doRelock s)

/-- STANDBY_PLL_RELOCK: the PLL that failed locks again and is the standby (R70); in INITIAL it locks to TBREF for the first time (R66). -/
def doStandbyPllRelock (s : State) : State :=
  let p := 1 - pllAct s
  setRf 0x40044 p p 1 s

/-- In INITIAL both fabric PLLs have locked to TBREF 2 ms after SYS_RESET_N (R66). (DEDUCED: log entry 28.) -/
def fabricPllsLock (s : State) : State :=
  if tbState s = tbInitial ∧ 2000 * usTicks ≤ nowT s then setRf 0x40044 1 0 3 s else s

/-- The meaning of STANDBY_PLL_RELOCK. -/
def execStandbyPllRelock (s : State) : Out := engineStep s (doStandbyPllRelock s)

/-! ### CONJUNCTION (R80 to R83, R402) -/

/-- The state refusals of CONJUNCTION (R81). -/
def conjBusy (e : Entry) (s : State) : Bool :=
  armed s || tbState s != tbLocked ||
    (decide (1 < pf e.p0 12 8) && (List.range 4).any fun j => laneState s (128 + j) != lnRun)

/-- CONJUNCTION. -/
def doConjunction (r : Nat) (e : Entry) : State → State :=
  submit r opConjunction e { baseRow opConjunction with
    bad := fun s =>
      let n := pf e.p0 12 8
      n == 0 || decide (16 < n) || decide (n ≤ pf e.p0 3 0) || pn e.p1 % 32 != 0 ||
        (s.tb.act.mode && pn e.p1 % refPeriod s.tb.act.refsel != 0),
    busy := busyIf (conjBusy e),
    run := fun o s => { s with tb := { s.tb with conj := some { p := pf e.p0 3 0, n := pf e.p0 12 8, conjT := pn e.p1, origin := o,
                                                                start := nowT s, phase := .armed, commits := 0, echoes := false,
                                                                hopAt := none } } } }

/-- The meaning of CONJUNCTION. -/
def execConjunction (r : Nat) (e : Entry) (s : State) : Out := engineStep s (doConjunction r e s)

/-- CONJUNCTION ends (R81, R402): after the SYNC edge an abort turns DONE into ABORTED with the results of DONE. (DEDUCED: log entry 31.) -/
def endConj (c : Conj) (status : Nat) (x0 x1 : W64) (s : State) : State :=
  let aborted : Bool := match cmd? s c.origin with | some k => k.abort | none => false
  let st := if status == stDone && aborted then stAborted else status
  let s1 := setSource (srcTb 4) { s with tb := { s.tb with conj := none } }
  finishLong c.origin st x0 x1 0 (if st = stDone then setRf 0x4001C 22 22 1 s1 else s1)

/-- SYNC_OUT: 100 µs after its acceptance position 0 drives SYNC_OUT high (R81). (DEDUCED: log entry 31.) -/
def doSyncOut (s : State) : State :=
  match s.tb.conj with
  | some c =>
    if c.p = 0 ∧ c.phase = .armed ∧ c.start + 100 * usTicks ≤ nowT s then
      { s with tb := { s.tb with conj := some { c with phase := .pulsed }, syncHigh := some (nowT s) } }
    else s
  | none => s

/-- The meaning of SYNC_OUT. -/
def execSyncOut (s : State) : Out := engineStep s (doSyncOut s)

/-- SYNC_OUT is high for 64 ns (R81), 3,277 ticks to the next whole one. (DESIGN CHOICE: log entry 79.) -/
def syncOutPin (s : State) : Bool := match s.tb.syncHigh with | some t => decide (nowT s < t + 3277) | none => false

/-- The counter after the SYNC edge: CONJ_T, or in LC0512 phase mode the value with which the next REFCLK rising edge, `toRef` ticks
later, carries CONJ_T + PHOFF (R81, R83). The model holds the counter at slice boundaries. (DEDUCED: log entry 31.) -/
def conjTick (c : Conj) (toRef : Nat) (s : State) : Nat :=
  if s.tb.act.mode then 32 * ((c.conjT + s.tb.act.phoff + 2 ^ 64 - toRef % 2 ^ 64) % 2 ^ 64 / 32) else c.conjT

/-- SYNC_IN: the edge carries CONJ_T (R81). Stamps of samples received before the edge have no meaning after it. CONJSTAT takes p and n - 1
here, at every position. (DEDUCED, DESIGN CHOICE: log entry 31.) -/
def doSyncIn (toRef : Nat) (s : State) : State :=
  match s.tb.conj with
  | some c =>
    if (c.p = 0 ∧ c.phase = .pulsed) ∨ (c.p ≠ 0 ∧ c.phase = .armed) then
      let s1 := { s with tb := { s.tb with tick := conjTick c toRef s, conj := some { c with phase := ConjPhase.aligned } },
                         lanes := s.lanes.map fun p => (p.1, { p.2 with samples := [], miss := [] }) }
      setReg 0x40050 (BitVec.ofNat 32 (c.p * 2 ^ 28 + (c.n - 1) * 2 ^ 24)) s1
    else s
  | none => s

/-- Set the CONJUNCTION. -/
def setConj (c : Option Conj) (s : State) : State := { s with tb := { s.tb with conj := c } }

/-- Step 5 begins: each lane in RUN repeats the ECHO state; one that lost lock at the edge follows R54 or R56 (R81, R82). -/
def conjEchoes (c : Conj) (s : State) : State :=
  setConj (some { c with echoes := true })
    (((List.range (laneCount s)).filter fun n => laneState s n == lnRun).foldl (fun t n => beginTraining n lnEcho true t) s)

/-- Step 5 has ended: no lane is in a repeat of ECHO any more. -/
def echoesOver (s : State) : Bool := (List.range (laneCount s)).all fun n => laneState s n != lnEcho || !(lane s n).retrain

/-- The elapsed tick by which a hop must have ended: 2 ms from the end of step 5 for position 0; the turn reaches position p at most p hops
of 2 ms later (R81). (DEDUCED: log entry 31.) -/
def hopLimit (c : Conj) (at_ : Nat) : Nat := at_ + 2000 * usTicks * (c.p + 1)

/-- The 1 ms boundaries of the wait for the SYNC edge are commit points, at which an abort acts; the edge is missed 100 ms after
ACCEPTED (R81, R402). -/
def conjWait (c : Conj) (s : State) : State :=
  if c.start + 100000 * usTicks ≤ nowT s then endConj c stCheckFail 1 0 s
  else if c.start + (c.commits + 1) * 1000 * usTicks ≤ nowT s then
    let aborted := match cmd? s c.origin with | some k => k.abort | none => false
    if aborted then endConj c stAborted 0 0 s
    else setConj (some { c with commits := c.commits + 1 }) (commitWord c.origin 0 0 0 s)
  else s

/-- What a CONJUNCTION does by itself when its time has come (R81, R402). (DESIGN CHOICE: log entries 2 and 31.) -/
def conjTime (s : State) : State :=
  match s.tb.conj with
  | none => s
  | some c =>
    if c.phase ≠ .aligned then conjWait c s
    else if !c.echoes then conjEchoes c s
    else match c.hopAt with
      | none =>
        if !echoesOver s then s
        else if c.n = 1 then endConj c stDone 0 0 (setReg 0x40054 0#32 (setReg 0x40058 0#32 s))
        else setConj (some { c with hopAt := some (nowT s) }) s
      | some t => if hopLimit c t ≤ nowT s then endConj c stCheckFail 3 0 s else s

/-- The meaning of SYNC_IN. -/
def execSyncIn (toRef : Nat) (s : State) : Out := engineStep s (doSyncIn toRef s)

/-- CASCADE_HOP, once step 5 has ended: the neighbour's position is checked, D rounded up is recorded, and the command ends (R81).
(DEDUCED: log entry 31.) -/
def doCascadeHop (d16 pos up : Nat) (s : State) : State :=
  match s.tb.conj with
  | some c =>
    if c.phase = .aligned ∧ 1 < c.n ∧ c.hopAt.isSome then
      if pos = (c.p + 1) % c.n then
        let dn := BitVec.ofNat 32 (ceilDiv d16 16)
        let u := BitVec.ofNat 32 up
        endConj c stDone (dn.setWidth 64) (u.setWidth 64) (setReg 0x40054 dn (setReg 0x40058 u s))
      else endConj c stCheckFail 2 0 s
    else s
  | none => s

/-- The meaning of CASCADE_HOP. -/
def execCascadeHop (d16 pos up : Nat) (s : State) : Out := engineStep s (doCascadeHop d16 pos up s)

/-- CONJUNCTION_TIMEOUT: no SYNC edge within 100 ms of ACCEPTED (cause 1), or once the hop may begin a wrong position (2) or a hop of more
than 2 ms (3) (R81). -/
def doConjunctionTimeout (cause : Nat) (s : State) : State :=
  match s.tb.conj with
  | some c =>
    let late := decide (c.phase ≠ .aligned) && decide (c.start + 100000 * usTicks ≤ nowT s)
    let hop := decide (c.phase = .aligned) && decide (1 < c.n) && c.hopAt.isSome
    let slow := match c.hopAt with | some t => decide (t + 2000 * usTicks ≤ nowT s) | none => false
    if (cause == 1 && late) || (cause == 2 && hop) || (cause == 3 && hop && slow) then endConj c stCheckFail (BitVec.ofNat 64 cause) 0 s else s
  | none => s

/-- The meaning of CONJUNCTION_TIMEOUT. -/
def execConjunctionTimeout (cause : Nat) (s : State) : Out := engineStep s (doConjunctionTimeout cause s)

/-! ### Time -/

/-- The dither LFSR x^16 + x^14 + x^13 + x^11 + 1: one step (R67). (DESIGN CHOICE: log entry 83.) -/
def lfsr16 (v : Nat) : Nat :=
  let b := (v + v / 4 + v / 8 + v / 32) % 2
  v / 2 + b * 2 ^ 15

/-- Steps of the LFSR. -/
def lfsr16s (n v : Nat) : Nat := match n with | 0 => v | k + 1 => lfsr16s k (lfsr16 v)

/-- The modulator runs with dither when NFRAC ≠ 0 and DEN = 1 (R67). -/
def ditherOn (s : State) : Bool := s.tb.act.den && s.tb.act.nfrac != 0

/-- The bit that the dither adds to the modulator's input: the least significant bit of the LFSR (R67). -/
def ditherBit (s : State) : Nat := if ditherOn s then s.tb.lfsr % 2 else 0

/-- The LFSR advances once in every reference period (R67). (DESIGN CHOICE: log entry 83.) -/
def ditherTime (s : State) : State :=
  let f := refFreq s.tb.act.refsel
  let n := (nowT s + 32) * f / 5120000 - nowT s * f / 5120000
  if ditherOn s then { s with tb := { s.tb with lfsr := lfsr16s n s.tb.lfsr } } else s

/-- PCLK rises at multiples of 128 and falls half way; PCLKCTL.EN takes effect at the falling edge (R72). (DEDUCED: log entry 83.) -/
def pclkTime (s : State) : State :=
  if s.tb.tick % 128 = 64 then { s with tb := { s.tb with pclk := if pwrState s = 3 ∨ rf s 0x50000 29 27 = 7 then 0 else domRf s 0x40048 15 0 } } else s

/-- What the timebase does by itself in the slice that passes. (DESIGN CHOICE: log entry 2.) -/
def timebaseTime (s : State) : State := pclkTime (ditherTime (conjTime (doSyncOut (doStep (fabricPllsLock s)))))

end Sys2Proof.Machine
end

