-- ==== Sys2Proof/Machine/Automata.lean ====
section
/-! DEFINITION. Event matchers (R85 to R102), trigger automata evaluated one tick at a time (R106 to R121), TRIG_OUT (R119) and cascade
events (R122 to R127). -/

namespace Sys2Proof.Machine

/-! ### Elapsed ticks of a capture (R65, R79) -/

/-- The elapsed position of a tick: steps of the counter since T0 taken out. (DEDUCED: log entry 30.) -/
def epos (c : Cap) (t : Nat) : Nat :=
  c.jumps.foldl (fun x j => if min (j.1 : Int) (j.1 + j.2) ≤ x then ((x : Int) - j.2).toNat else x) t

/-- The tick at an elapsed position. (DEDUCED: log entry 30.) -/
def ofPos (c : Cap) (p : Nat) : Nat := c.jumps.foldr (fun j x => if j.1 ≤ x then ((x : Int) + j.2).toNat else x) p

/-- The tick `d` elapsed ticks after `t`. -/
def after (c : Cap) (t d : Nat) : Nat := ofPos c (epos c t + d)

/-- The first tick of the slice that the automata evaluate next (R106, R120). -/
def nextSlice (s : State) : Nat := match s.au.lastSlice with | none => s.cap.t0 | some l => after s.cap l 32

/-- Whether the automata still evaluate the capture: it runs, and the slice with its last tick is not behind (R135). FORCE_TRIGGER is
BUSY_STATE from then on, since no slice is left for its T_f (R120). (DEDUCED: log entry 37.) -/
def evaluating (s : State) : Bool :=
  capRunning s && (match s.cap.endAt with | some (l, _) => decide (nextSlice s ≤ l) | none => true)

/-! ### Samples and matchers (R85 to R92) -/

/-- The sample that covers tick `t` (R85), from samples with sample period `p` in order of stamp. -/
def covering (c : Cap) (p t : Nat) (l : List Smp) : Option Smp :=
  match (l.filter fun y => decide (y.stamp ≤ t)).getLast? with
  | some y => if epos c t < epos c y.stamp + p then some y else none
  | none => none

/-- The current sample of a lane at tick `t`; a lane that is absent, disabled or not in the plan has none (R86, R102). -/
def sampleAt (s : State) (n t : Nat) : Option Smp :=
  let im := plan s
  if n < laneCount s ∧ lnEn s n ∧ pUsed im n then covering s.cap (fmtP (pFmt im n) (pDiv im n)) t (lane s n).samples else none

/-- Block offset of cell matcher m of lane n in its cluster (R99). -/
def cellOff (n m : Nat) : Nat := 0x3000 + 0x200 * (n % 8) + 0x20 * m

/-- The output of cell matcher m of lane n at the sample `y` (R88 to R90). `prev` is the sample before, if one exists (R86); `old` and
`new` are the last transitions by channel without and with those at `y`; `first` is the first sample since R86. -/
def cellOut (im : Image) (c : Cap) (n m : Nat) (prev : Option Smp) (y : Smp) (first : Nat) (old new : Tbl Nat) : Bool :=
  let ctl := pCluster im (n / 8) (cellOff n m)
  let sel := pCluster im (n / 8) (cellOff n m + 4)
  let thr := pCluster im (n / 8) (cellOff n m + 8)
  let a : BitVec 16 := BitVec.ofNat 16 (bits sel 31 16)
  let b : BitVec 16 := BitVec.ofNat 16 (bits sel 15 0)
  let ty := bits ctl 2 0
  if ty = 1 then (y.word ^^^ b) &&& a == 0
  else if ty = 2 then
    match prev with
    | none => false
    | some p => (a &&& ~~~p.word &&& y.word) ||| (b &&& p.word &&& ~~~y.word) != 0
  else if ty = 3 then
    match prev with
    | none => false
    | some p => (List.range 16).any fun ch =>
        a.getLsbD ch && p.word.getLsbD ch != y.word.getLsbD ch && bit ctl (if p.word.getLsbD ch then 6 else 7) &&
          (match tblFind old ch with | some t => decide (epos c y.stamp < epos c t + thr) | none => false)
  else if ty = 4 then
    let s0 := ((new.filter fun e => a.getLsbD e.1).map fun e => e.2).foldl max first
    decide (epos c s0 + thr ≤ epos c y.stamp)
  else false

/-- A lane's matchers at one tick, given the sample that covers it: they change only at the stamp of a sample (R87). -/
def histStep (im : Image) (c : Cap) (n : Nat) (cov : Option Smp) (h : LaneHist) : LaneHist :=
  match cov with
  | none => LaneHist.reset
  | some y =>
    let same : Bool := match h.cur with | some p => p.stamp == y.stamp | none => false
    if same then h
    else
      let prev : Option Smp := match h.cur with
        | some p => if epos c p.stamp + fmtP (pFmt im n) (pDiv im n) = epos c y.stamp then some p else none
        | none => none
      let first := if prev.isSome then h.first else y.stamp
      let old := if prev.isSome then h.edges else []
      let new := match prev with
        | none => []
        | some p => (numsWhere 16 fun ch => p.word.getLsbD ch != y.word.getLsbD ch).foldl (fun e ch => tblSet e ch y.stamp) old
      { cur := some y, first := first, edges := new,
        out := BitVec.ofNat 16 (maskOfList (numsWhere 16 fun m => cellOut im c n m prev y first old new)) }

/-- A lane's matchers over the ticks `t`, `t + 1`, ...: the histories after them and the outputs at each. -/
def histRun (s : State) (n t k : Nat) (h : LaneHist) : LaneHist × List (BitVec 16) :=
  match k with
  | 0 => (h, [])
  | k' + 1 =>
    let h1 := histStep (plan s) s.cap n (sampleAt s n t) h
    let r := histRun s n (t + 1) k' h1
    (r.1, h1.out :: r.2)

/-! ### Buses and cluster matchers (R93 to R97) -/

/-- The cluster channel that bus bit j of bus b selects. -/
def busLine (im : Image) (c b j : Nat) : Nat := secLE im 2 (16384 * c + 0x80 * b + 0x40 + j) 1 % 128

/-- The value of bus b of cluster c at tick t: one sample at each stamp of the reference lane (R95), none where any contributing sample
is missing (R96). -/
def busValue (s : State) (c b t : Nat) : Option Nat :=
  let im := plan s
  let w := pCluster im c (0x80 * b) % 128
  if w = 0 then none
  else match sampleAt s (8 * c + busLine im c b 0 / 16) t with
    | none => none
    | some y =>
      let bitAt (j : Nat) : Option Bool :=
        (sampleAt s (8 * c + busLine im c b j / 16) y.stamp).map fun x => x.word.getLsbD (busLine im c b j % 16)
      if (List.range w).all fun j => (bitAt j).isSome then some (maskOfList (numsWhere w fun j => bitAt j == some true)) else none

/-- A 64-bit setting of the matcher tables. -/
def pCluster64 (im : Image) (c off : Nat) : Nat := secLE im 2 (16384 * c + off) 8

/-- The output of cluster matcher m of cluster c at tick t (R97). -/
def clusterOut (s : State) (c m t : Nat) : Bool :=
  let im := plan s
  let base := 0x1000 + 0x100 * m
  let ctl := pCluster im c base
  let ty := bits ctl 1 0
  if ty = 0 then false
  else match busValue s c (bits ctl 6 4) t with
    | none => false
    | some v =>
      let mask := pCluster64 im c (base + 0x08)
      let a := pCluster64 im c (base + 0x10)
      if ty = 1 then (v ^^^ a) &&& mask == 0
      else if ty = 2 then decide (a ≤ v) && decide (v ≤ pCluster64 im c (base + 0x18))
      else (List.range (bits ctl 12 8)).any fun e => v &&& mask == pCluster64 im c (base + 0x80 + 8 * e) &&& mask

/-! ### Lines (R99, R107) -/

/-- What the evaluation of one slice reads: the engine before it, the slice's first tick and the elapsed tick of that, the cell matcher outputs by lane and tick, and
the TRIG_IN levels that LALIGN has delayed (R101), and the lines that arrive inverted (R191). -/
structure SliceIn where
  s : State
  t0 : Nat
  at_ : Nat
  outs : Tbl (List (BitVec 16))
  trig : List W32
  flips : List LineFlip

/-- What the evaluation of a slice carries from tick to tick. -/
structure SliceAcc where
  autos : List Auto
  timers : List Timer
  hist : Tbl W32
  applied : Tbl CasEvent
  segs : List Seg
  begun : Nat
  endAt : Option (Nat × EndReason)
  isOver : Bool
  gates : List (BitVec 16)
  marks : List (Nat × Bool × Nat × Nat × Option Origin)
  hevs : List HostEv
  edges : List Nat
  outs : List CasEvent
  drops : List (Nat × Nat)
  lastOut : Option Nat
  fresh : Nat

def autoAt (l : List Auto) (a : Nat) : Auto := l.getD a Auto.reset
def tallyAt (x : Auto) (u : Nat) : Tally := x.tallies.getD u Tally.reset
def timerAt (l : List Timer) (i : Nat) : Timer := l.getD i Timer.reset

/-- The timer line M at an elapsed position (R112). -/
def timerLine (m : Timer) (p : Nat) : Bool := m.run && (m.line || decide (m.expiry ≤ p))

/-- The value of a timer, tally or flag line one slice before (R107). -/
def lagged (s : State) (line i : Nat) : Bool := (tblGet s.au.hist line 0#32).getLsbD i

/-- The inbound events on line j that act at tick t (R124). -/
def inboundAt (s : State) (j t : Nat) : List CasEvent := s.au.inbound.filter fun e => e.line == j && e.otick + pCaslat (plan s) == t

/-- seen(L, t) of R107 for automaton a, at tick i of the slice, as its source gives it. -/
def lineValue (x : SliceIn) (y : SliceAcc) (a i line : Nat) : Bool :=
  let im := plan x.s
  let t := x.t0 + i
  if line < 2048 then ((tblGet x.outs (line / 16) []).getD i 0).getLsbD (line % 16)
  else if line < 2560 then
    decide ((line - 2048) / 32 < 4 * quads x.s) && clusterOut x.s ((line - 2048) / 32) ((line - 2048) % 32) t
  else if line < 2592 then
    let k := line - 2560
    if pTmOwned im k && pTmOwner im k == a then timerLine (timerAt y.timers k) (epos x.s.cap t) else lagged x.s line i
  else if line < 2624 then
    let k := line - 2592
    if k / 4 = a then (tallyAt (autoAt y.autos a) (k % 4)).done else lagged x.s line i
  else if line < 2640 then !(inboundAt x.s (line - 2624) t).isEmpty
  else if line < 2644 then (x.trig.getD (line - 2640) 0#32).getLsbD i
  else if line < 2708 then lagged x.s line i
  else false

/-- The line as automaton a receives it (R191). (DESIGN CHOICE: log entry 78.) -/
def seen (x : SliceIn) (y : SliceAcc) (a i line : Nat) : Bool :=
  lineValue x y a i line != x.flips.any fun f => f.i == i && f.line == line

/-! ### One tick (R106 to R115) -/

/-- The table entry that automaton a takes at tick i: its next state and its action index (R106). -/
def transition (x : SliceIn) (y : SliceAcc) (a i : Nat) : Nat × Nat :=
  let im := plan x.s
  let addr := maskOfList (numsWhere 12 fun k => seen x y a i (pSel im a k))
  let e := pTrans im a (autoAt y.autos a).st (pClass im a addr % 64)
  (bits e 13 8, bits e 7 0)

/-- The actions at a tick in the order of R121 and R125: by automaton, its own first, then forced ones; (automaton, forced, word). -/
def tickActions (x : SliceIn) (y : SliceAcc) (i : Nat) : List (Nat × Bool × Nat) :=
  let im := plan x.s
  (List.range 8).flatMap fun a =>
    if pAutoEn im a then
      (a, false, pAction im a (transition x y a i).2) ::
        (x.s.au.forced.filter fun f => bit f.mask a && f.tick == x.t0 + i).map fun f => (a, true, pAction im a f.index)
    else []

/-- The tally units of automaton a after tick i (R111). -/
def tallyTick (x : SliceIn) (y : SliceAcc) (a i load u : Nat) : Tally :=
  let im := plan x.s
  let q := autoAt y.autos a
  let k := tallyAt q u
  let ctl := pTlctl im a u
  if !bit ctl 13 then k
  else
    let v := seen x y a i (bits ctl 11 0)
    let hit := !k.done && bit (pTlStates im a u) q.st && v && !(bit ctl 12 && k.prev)
    let n := k.count + b2n hit
    if bit load u then { count := 0, done := false, prev := v }
    else { count := n, done := k.done || (hit && n == pTlThr im a u), prev := v }

/-- Automaton a after tick i, given the actions it applies (R106, R111, R113, R114). -/
def autoTick (x : SliceIn) (y : SliceAcc) (acts : List (Nat × Bool × Nat)) (i a : Nat) : Auto :=
  let im := plan x.s
  let q := autoAt y.autos a
  if !pAutoEn im a then { Auto.reset with st := pInit im a }
  else
    let mine := (acts.filter fun p => p.1 == a).map fun p => p.2.2
    let orOf (f : Nat → Nat) : Nat := mine.foldl (fun m w => m ||| f w) 0
    let on := BitVec.ofNat 16 (orOf fun w => if aQop w = 1 then aQmask w else 0)
    let off := BitVec.ofNat 16 (orOf fun w => if aQop w = 2 then aQmask w else 0)
    { st := (transition x y a i).1,
      tallies := (List.range 4).map (tallyTick x y a i (orOf aTload)),
      flags := (q.flags &&& ~~~(BitVec.ofNat 8 (orOf aFlagclr))) ||| BitVec.ofNat 8 (orOf aFlagset),
      gates := (q.gates ||| on) &&& ~~~off }

/-- The gates at a tick: each group open by any automaton (R114). -/
def gatesTick (y : SliceAcc) (acts : List (Nat × Bool × Nat)) : BitVec 16 :=
  let on := acts.foldl (fun m p => if aQop p.2.2 = 1 then m ||| BitVec.ofNat 16 (aQmask p.2.2) else m) 0#16
  y.autos.foldl (fun m q => m ||| q.gates) on

/-- A timer after a tick: a start prevails over a stop (R112). -/
def timerTick (x : SliceIn) (acts : List (Nat × Bool × Nat)) (p k : Nat) (m : Timer) : Timer :=
  let im := plan x.s
  let ops := (acts.filter fun q => pTmOwned im k && pTmOwner im k == q.1 && aTmsel q.2.2 == k).map fun q => aTmop q.2.2
  if ops.contains 1 then { run := true, line := false, expiry := p + pTmDur im k }
  else if ops.contains 2 then { m with run := false, line := false }
  else { m with line := timerLine m p }

/-- The origin that an ORG action attaches (R127). -/
def orgOf (applied : Tbl CasEvent) (w : Nat) : Option Origin :=
  if aOrg w then some { ev := tblFind applied (aCasline w) } else none

/-- The current segment after the nuclei and segment ends of tick t (R134). -/
def segTick (x : SliceIn) (applied : Tbl CasEvent) (acts : List (Nat × Bool × Nat)) (t : Nat) (g : Seg) : Seg :=
  let im := plan x.s
  let nucs := acts.filter fun p => aNuc p.2.2
  let segend := acts.any fun p => aSegend p.2.2
  let g1 :=
    if nucs.isEmpty then g
    else match g.nuc with
      | some _ => { g with ign := g.ign + 1 }
      | none => { g with nuc := some t, e := some (if pTailDepth im = 0 then t else after x.s.cap t (pTailDepth im - 1)),
                         forcedOnly := nucs.all fun p => p.2.1,
                         org := (nucs.filterMap fun p => orgOf applied p.2.2).head? }
  if segend then { g1 with e := some t } else g1

/-- Cascade events of a tick: at most one in 1,024 ticks is sent (R125). -/
def casTick (x : SliceIn) (t : Nat) (acts : List (Nat × Bool × Nat)) (y : SliceAcc) : SliceAcc :=
  match acts with
  | [] => y
  | (a, _, w) :: rest =>
    if !aCasev w then casTick x t rest y
    else
      let close := match y.lastOut with | some l => decide (l ≤ t) && decide (epos x.s.cap t < epos x.s.cap l + 1024) | none => false
      if close then casTick x t rest { y with drops := y.drops ++ [(a, t)] }
      else casTick x t rest { y with lastOut := some t, outs := y.outs ++ [{ line := aCasline w, origin := ringPos x.s, otick := t }] }

/-- The inbound events applied at tick t, by line (R127). Of several with one origin tick, which counts as the most recent is not
stated: a free choice (log entry 7). (DESIGN CHOICE: log entry 36.) -/
def applyTick (x : SliceIn) (t : Nat) (y : SliceAcc) : SliceAcc :=
  (List.range 16).foldl (fun z j =>
    match inboundAt x.s j t with
    | [] => z
    | [e] => { z with applied := tblSet z.applied j e }
    | e :: more =>
      let k := (Config.freeValue z.fresh).toNat % (more.length + 1)
      { z with applied := tblSet z.applied j ((e :: more).getD k e), fresh := z.fresh + 1 }) y

/-- Record the timer, tally and flag lines of tick i, which others see a slice later (R107). -/
def histTick (x : SliceIn) (i : Nat) (y : SliceAcc) : SliceAcc :=
  let put (h : Tbl W32) (line : Nat) (b : Bool) : Tbl W32 :=
    if b then tblSet h line (tblGet h line 0#32 ||| BitVec.ofNat 32 (2 ^ i)) else h
  let p := epos x.s.cap (x.t0 + i)
  let h1 := (List.range 32).foldl (fun h k => put h (2560 + k) (timerLine (timerAt y.timers k) p)) y.hist
  let h2 := (List.range 32).foldl (fun h k => put h (2592 + k) (tallyAt (autoAt y.autos (k / 4)) (k % 4)).done) h1
  let h3 := (List.range 64).foldl (fun h k => put h (2644 + k) ((autoAt y.autos (k / 8)).flags.getLsbD (k % 8))) h2
  { y with hist := h3 }

/-- The segments after a tick: a segment that ends makes way for the next, the last one ends the capture (R134, R135). -/
def closeTick (x : SliceIn) (t : Nat) (y : SliceAcc) : SliceAcc :=
  match y.endAt, y.segs.getLast? with
  | some (l, r), some g =>
    if l = t then { y with segs := y.segs.dropLast ++ [cutSeg t g], isOver := true }
    else if g.e = some t then
      if g.no + 1 < x.s.cap.count then
        { y with segs := y.segs ++ [{ no := g.no + 1, s := after x.s.cap t 1, nuc := none, e := none, ign := 0, forcedOnly := false,
                                      stopped := false, org := none }], begun := y.begun + 1, endAt := some (l, r) }
      else { y with endAt := some (t, .count), isOver := true }
    else y
  | none, some g =>
    if g.e = some t then
      if g.no + 1 < x.s.cap.count then
        { y with segs := y.segs ++ [{ no := g.no + 1, s := after x.s.cap t 1, nuc := none, e := none, ign := 0, forcedOnly := false,
                                      stopped := false, org := none }], begun := y.begun + 1 }
      else { y with endAt := some (t, .count), isOver := true }
    else y
  | _, none => y

/-- One tick of all automata. -/
def tick (x : SliceIn) (i : Nat) (y : SliceAcc) : SliceAcc :=
  if y.isOver then { y with gates := y.gates ++ [0] }
  else
    let t := x.t0 + i
    let y1 := applyTick x t (histTick x i y)
    let acts := tickActions x y1 i
    let marks := acts.filterMap fun p =>
      if aMark p.2.2 then some (p.1, p.2.1, i, aCode p.2.2, orgOf y1.applied p.2.2) else none
    let hevs := acts.filterMap fun p =>
      if aHostev p.2.2 then
        some { auto := p.1, forced := p.2.1, code := aCode p.2.2, tick := t, due := x.at_ + i + 6144, org := orgOf y1.applied p.2.2 }
      else none
    let segs := match y1.segs.getLast? with
      | some g => y1.segs.dropLast ++ [segTick x y1.applied acts t g]
      | none => []
    let y2 := casTick x t acts y1
    closeTick x t
      { y2 with autos := (List.range 8).map (autoTick x y1 acts i),
                timers := (List.range 32).map fun k => timerTick x acts (epos x.s.cap t) k (timerAt y1.timers k),
                segs := segs, gates := y2.gates ++ [gatesTick y1 acts], marks := y2.marks ++ marks, hevs := y2.hevs ++ hevs,
                edges := if pToen (plan x.s) && acts.any (fun p => aTrigout p.2.2) then y2.edges ++ [t + 8192] else y2.edges }

/-! ### The slice (R116, R129) -/

/-- Registers of an automaton at the first tick of the slice (R129), and its STATE trace entry (R358, R359). (DEDUCED, DESIGN CHOICE: log entries 11 and 37.) -/
def snapAuto (t a : Nat) (s : State) : State :=
  let q := autoAt s.au.autos a
  let im := plan s
  let before := rf s (taBase a + 4) 5 0
  let s1 := setReg (taBase a + 4) (BitVec.ofNat 32 (2 ^ 12 + pLevel im a q.st % 16 * 2 ^ 8 + q.st)) s
  let s2 := setReg (taBase a + 0x0C) (BitVec.ofNat 32 (t / 2 ^ 32)) (setReg (taBase a + 8) (BitVec.ofNat 32 t) s1)
  let s3 := (List.range 4).foldl (fun z u =>
      let k := tallyAt q u
      let o := taBase a + 0x100 + 0x40 * u
      setReg (o + 0x1C) (BitVec.ofNat 32 (b2n k.done * 2 ^ 16 + k.count / 2 ^ 32)) (setReg (o + 0x18) (BitVec.ofNat 32 k.count) z)) s2
  if bit s3.trace.stateMask a && (s3.trace.dramEn || s3.trace.obsEn) && s3.au.lastSlice.isSome && before != q.st then
    traceAdd false (BitVec.ofNat 64 (4 * 2 ^ 60 + a * 2 ^ 57 + q.st * 2 ^ 51 + t % 2 ^ 51)) s3
  else s3

/-- Registers of the timers at the first tick of the slice (R129). (DEDUCED, DESIGN CHOICE: log entries 11 and 37.) -/
def snapTimers (t : Nat) (s : State) : State :=
  (List.range 32).foldl (fun z k =>
    let m := timerAt s.au.timers k
    setReg (0x60810C + 0x10 * k) (BitVec.ofNat 32 (2 * b2n m.run + b2n (timerLine m (epos s.cap t)))) z) s

/-- The MARK record of one automaton, own or forced, in a slice (R147, R148). -/
def markRec (t a : Nat) (forced : Bool) (ms : List (Nat × Bool × Nat × Nat × Option Origin)) : QRec :=
  let org := (ms.filterMap fun m => m.2.2.2.2).getLast?
  let ev := match org with | some o => o.ev | none => none
  let mflags := match org with | some o => if o.ev.isSome then 1 else 2 | none => 0
  let code (i : Nat) : Nat := match ms.find? fun m => m.2.2.1 == i with | some m => m.2.2.2.1 | none => 0
  { rtype := 9, flags := if forced then 2 else 0, ts := t, last := t,
    payload := [BitVec.ofNat 8 a, BitVec.ofNat 8 mflags] ++ leBytes 2 0 ++ leBytes 4 (maskOfList (ms.map fun m => m.2.2.1)) ++
      (List.range 32).map (fun i => BitVec.ofNat 8 (code i)) ++ leBytes 8 (ev.map (fun e => e.otick) |>.getD 0) ++
      leBytes 1 (ev.map (fun e => e.origin) |>.getD 0) }

/-- Queue the MARK records of a slice into the streams that take them (R148). -/
def queueMarks (t : Nat) (marks : List (Nat × Bool × Nat × Nat × Option Origin)) (s : State) : State :=
  (List.range 16).foldl (fun z k =>
    let a := k / 2
    let forced := k % 2 == 1
    match marks.filter fun m => m.1 == a && m.2.1 == forced with
    | [] => z
    | ms => ((activeAt z t).filter fun i => bit (pMarkSel (plan s) i) a).foldl (fun w i => enqueue i (markRec t a forced ms) w) z) s

/-! ### Host events (R115) -/

/-- Raise one host event: the register latches the first, and the bit is set. -/
def raiseHev (h : HostEv) (s : State) : State :=
  let o := taBase h.auto + 0x48
  let s1 := if bit (reg s o).toNat 31 then setReg o (reg s o ||| 0x40000000#32) s
    else setReg (taBase h.auto + 0x54) (BitVec.ofNat 32 (h.tick / 2 ^ 32))
      (setReg (taBase h.auto + 0x50) (BitVec.ofNat 32 h.tick) (setReg o (BitVec.ofNat 32 (2 ^ 31 + b2n h.forced * 256 + h.code)) s))
  setSource (srcTa h.auto 0) s1

/-- A host event's time has come: the counter reads t + 6,144 in the slice that passes, or 6,144 elapsed ticks have passed.
(DEDUCED: log entry 37.) -/
def hevDue (s : State) (h : HostEv) : Bool := decide (h.due < nowT s + 32) || decide (h.tick + 6144 < s.tb.tick + 32)

/-- Raise the host events whose time has come. -/
def raiseHevs (s : State) : State :=
  (s.au.hevs.filter (hevDue s)).foldl (fun z h => raiseHev h z) { s with au := { s.au with hevs := s.au.hevs.filter fun h => !hevDue s h } }

/-- Raise every host event that is left. -/
def raiseAllHevs (s : State) : State := s.au.hevs.foldl (fun z h => raiseHev h z) { s with au := { s.au with hevs := [] } }

/-- The elapsed tick at which the counter read `t`, a tick not later than it reads now (R65). -/
def elapsedAt (s : State) (t : Nat) : Nat := nowT s - (epos s.cap s.tb.tick - epos s.cap t)

/-- Entries wait for a frame on K0 and on K1 (R122). -/
def addOut (es : List CasEvent) (a : Autos) : Autos :=
  if es.isEmpty then a
  else { a with outbound := tblSet (tblSet a.outbound 0 (tblGet a.outbound 0 [] ++ es)) 1 (tblGet a.outbound 1 [] ++ es) }

/-- Whether a stream can end the capture late, by FULLSTOP (R144). -/
def mayStopLate (s : State) : Bool := s.streams.any fun p => p.2.active && pFullStop (plan s) p.1

/-- The engine's own cascade events and drops of a slice. Their actions are available 5,120 ticks after the slice (R118); with FULLSTOP they
wait until it is known whether the capture had ended before them (R135). (DEDUCED: log entry 36.) -/
def ownCas (x : SliceIn) (outs : List CasEvent) (drops : List (Nat × Nat)) : List CasDue :=
  let lag := if mayStopLate x.s then 6144 else 5120
  (outs.map fun e => { due := x.at_ + (e.otick - x.t0) + lag, auto := 0, tick := e.otick, ev := some e }) ++
    drops.map fun p => { due := x.at_ + (p.2 - x.t0) + lag, auto := p.1, tick := p.2, ev := none }

/-- One cascade event or drop takes effect (R125). -/
def actCas (s : State) (c : CasDue) : State :=
  match c.ev with
  | some e => { s with au := addOut [e] s.au }
  | none => raise (srcTa c.auto 3) 0 (count 0x608010 s)

/-- Those whose time has come. -/
def actCasDue (s : State) : State :=
  let due (c : CasDue) : Bool := decide (c.due < nowT s + 32)
  (s.au.casDue.filter due).foldl actCas { s with au := { s.au with casDue := s.au.casDue.filter fun c => !due c } }

/-- The nuclei of the segments at and after a tick. -/
def nucleiFrom (t : Nat) (s : State) : List Nat :=
  s.cap.segs.filterMap fun g => match g.nuc with | some n => if t ≤ n then some n else none | none => none

/-- A nucleus taken while the timebase is in ECLIPSE or REACQUIRE has an OPEN record at the start of its tail (R150); the slice with the
nucleus passes now. (DEDUCED: log entry 37.) -/
def openRecs (s : State) : State :=
  if tbState s = tbEclipse ∨ tbState s = tbReacquire then
    ((nucleiFrom s.tb.tick s).filter fun n => decide (n < s.tb.tick + 32)).foldl
      (fun z n => intoActive (timebaseRec n 5 (tbState z) (tbOffset z) z.tb.lastEclipse 0) z) s
  else s

/-- Evaluate the slice that begins at tick t. -/
def evalSlice (t : Nat) (trig : List W32) (flips : List LineFlip) (s : State) : State :=
  let runs := (pUsedLanes (plan s)).map fun n => (n, histRun s n t 32 (lane s n).hist)
  let x : SliceIn := { s := s, t0 := t, at_ := elapsedAt s t, outs := runs.map fun r => (r.1, r.2.2), trig := trig, flips := flips }
  let y0 : SliceAcc :=
    { autos := s.au.autos, timers := s.au.timers, hist := [], applied := s.au.applied, segs := s.cap.segs, begun := s.cap.begun,
      endAt := s.cap.endAt, isOver := false, gates := [], marks := [], hevs := [], edges := [], outs := [], drops := [],
      lastOut := s.au.lastOut, fresh := s.fresh }
  let y := (List.range 32).foldl (fun z i => tick x i z) y0
  let s1 := snapTimers t ((List.range 8).foldl (fun z a => snapAuto t a z) s)
  let s2 := runs.foldl (fun z r => setLane r.1 { lane z r.1 with hist := r.2.1 } z) s1
  let au := s2.au
  let s3 := { s2 with
    au := { au with autos := y.autos, timers := y.timers, hist := y.hist, applied := y.applied, lastSlice := some t,
                    gateHist := au.gateHist ++ [(t, y.gates)], hevs := au.hevs ++ y.hevs, edges := au.edges ++ y.edges,
                    forced := au.forced.filter fun f => decide (t + 31 < f.tick),
                    inbound := (au.inbound.filter fun e => decide (t + 31 < e.otick + pCaslat (plan s))) ++ y.outs,
                    casDue := au.casDue ++ ownCas x (if 1 < ringCount s then y.outs else []) y.drops, lastOut := y.lastOut,
                    shown := ((t, s.au.autos, s.au.timers) :: au.shown).take 256 },
    cap := { s2.cap with segs := y.segs, begun := y.begun, endAt := y.endAt }, fresh := y.fresh }
  let s3 := if (nucleiFrom t s3).isEmpty then s3 else setSource (srcCap 4) s3
  let s3 := if au.forced.any fun f => f.tick == t then setSource (srcCap 0) s3 else s3
  let s4 := queueMarks t y.marks s3
  if y.isOver then (List.range 8).foldl (fun z a => setRf (taBase a + 4) 12 12 0 z) s4 else s4

/-- The TRIG_IN levels that the lines show in the slice from tick t on: those of LALIGN elapsed ticks before; slices not supplied read low
(R101, log entry 1). -/
def trigLines (s : State) (t : Nat) : List W32 :=
  match s.au.trig.find? fun p => p.1 + lalign s == elapsedAt s t with | some p => p.2 | none => []

/-- The TRIG_IN balls of the slice that passes are sampled once (R101). -/
def sampleTrig (trig : List W32) (s : State) : State :=
  if s.au.trig.any fun p => p.1 == nowT s then s
  else { s with au := { s.au with trig := ((nowT s, trig) :: s.au.trig).take 8193 } }

/-- SLICE_EVALUATION: the TRIG_IN balls of the slice are sampled, and while a capture runs the automata evaluate their next slice once the
counter has reached it. -/
def doSlice (trig : List W32) (flips : List LineFlip) (s : State) : State :=
  let push := sampleTrig trig s
  if s.tb.fabLost.isSome || !evaluating s || decide (s.tb.tick < nextSlice s) then push
  else
      let fs := flips.filter fun f => decide (f.quad < quads s)
      let t := fs.foldl (fun z f => raise (srcQd f.quad 0) f.line z) (evalSlice (nextSlice s) (trigLines push (nextSlice s)) fs push)
      if mayStopLate t then t else raiseAllHevs t

/-- The meaning of SLICE_EVALUATION. -/
def execSliceEvaluation (trig : List W32) (flips : List LineFlip) (s : State) : Out := engineStep s (doSlice trig flips s)

/-- TALLY_COMPLETION: a unit whose count has reached THR is complete (R111). The evaluation of the slice with the completion tick does
this at that tick, so a unit that still counts is left alone. -/
def doTally (a u : Nat) (s : State) : State :=
  let q := autoAt s.au.autos a
  let k := tallyAt q u
  if a < 8 ∧ u < 4 ∧ evaluating s ∧ bit (pTlctl (plan s) a u) 13 ∧ pTlThr (plan s) a u ≤ k.count then
    { s with au := { s.au with autos := putNth s.au.autos a { q with tallies := putNth q.tallies u { k with done := true } } } }
  else s

/-- The meaning of TALLY_COMPLETION. -/
def execTallyCompletion (a u : Nat) (s : State) : Out := engineStep s (doTally a u s)

/-- TIMER_EXPIRY: a started timer whose duration has passed when the next slice begins shows its line (R112). -/
def doTimer (i : Nat) (s : State) : State :=
  let m := timerAt s.au.timers i
  if i < 32 ∧ evaluating s ∧ timerLine m (epos s.cap (nextSlice s)) then
    { s with au := { s.au with timers := putNth s.au.timers i { m with line := true } } }
  else s

/-- The meaning of TIMER_EXPIRY. -/
def execTimerExpiry (i : Nat) (s : State) : Out := engineStep s (doTimer i s)

/-! ### TRIG_OUT (R119) -/

/-- TRIG_OUT is high at counter value u if an edge lies in (u - 2,560, u] (R119). -/
def trigOutAt (s : State) (u : Nat) : Bool := (s.au.edges ++ s.au.pulses).any fun v => decide (v ≤ u) && decide (u < v + 2560)

/-- TRIG_OUT: every edge in the slice that passes begins a pulse at its own tick. -/
def doTrigOut (s : State) : State :=
  let due := s.au.edges.filter fun u => decide (u < s.tb.tick + 32)
  if due.isEmpty then s
  else { s with au := { s.au with edges := s.au.edges.filter fun u => decide (s.tb.tick + 32 ≤ u), pulses := s.au.pulses ++ due, trigOut := true } }

/-- The meaning of TRIG_OUT. -/
def execTrigOut (s : State) : Out := engineStep s (doTrigOut s)

/-- TRIG_OUT_FALL: in the slice that passes, 2,560 ticks after the last overlapping pulse began. -/
def doTrigOutFall (s : State) : State :=
  if s.au.pulses.all fun u => decide (u + 2560 < s.tb.tick + 32) then { s with au := { s.au with pulses := [], trigOut := false } } else s

/-- The meaning of TRIG_OUT_FALL. -/
def execTrigOutFall (s : State) : Out := engineStep s (doTrigOutFall s)

/-- TRIG_OUT is driven low, and no edge due later is placed (R119). -/
def trigLow (s : State) : State := { s with au := { s.au with edges := [], pulses := [], trigOut := false } }

/-! ### FORCE_TRIGGER (R120) -/

/-- FORCE_TRIGGER. (DEDUCED: log entry 59.) -/
def doForceTrigger (r : Nat) (e : Entry) : State → State :=
  submit r opForceTrigger e { baseRow opForceTrigger with
    bad := fun s => pn e.p0 == 0 || pn e.p1 == 0 || (List.range 8).any fun a => bit (pn e.p0) a && !pAutoEn (plan s) a,
    busy := busyIf fun s => !evaluating s,
    run := fun o s =>
      let f : Forced := { mask := pn e.p0, index := pn e.p1, tick := nextSlice s }
      finishCmd o stDone (BitVec.ofNat 64 f.tick) 0 0 { s with au := { s.au with forced := s.au.forced ++ [f] } } }

/-- The meaning of FORCE_TRIGGER. -/
def execForceTrigger (r : Nat) (e : Entry) (s : State) : Out := engineStep s (doForceTrigger r e s)

/-! ### Cascade lanes (R122 to R126) -/

/-- An event entry (R123). -/
def casEntry (e : CasEvent) : Nat := 2 ^ 63 + e.line % 16 * 2 ^ 59 + e.origin % 16 * 2 ^ 55 + e.otick % 2 ^ 55

/-- A cascade frame: entry k in payload bytes 8k to 8k + 7. -/
def casPayload (es : List CasEvent) : Mem := memPut [] 0 (es.flatMap fun e => leBytes 8 (casEntry e))

/-- A frame of K0 or K1 takes the next codeword slot: behind an ECHO that is due, a SAMPLE frame carries every event pending at its
start, at most 80 (R13, R122, R125). Entries for a lane that is not in RUN are not sent on it. (DESIGN CHOICE: log entry 36.) -/
def sendEvents (j : Nat) (s : State) : State :=
  let es := tblGet s.au.outbound j []
  let n := 128 + j
  if es.isEmpty then s
  else if laneState s n ≠ lnRun then { s with au := { s.au with outbound := tblSet s.au.outbound j [] } }
  else if slotOpen s n && !echoDue s n then
    let q := tblGet s.au.casSeq j 0
    sendSlot n (.sample q (casPayload (es.take 80)))
      { s with au := { s.au with outbound := tblSet s.au.outbound j (es.drop 80), casSeq := tblSet s.au.casSeq j ((q + 1) % 4096) } }
  else s

/-- CASCADE_FRAME_SEND on K0 and K1. -/
def doCasSend (s : State) : State := sendEvents 1 (sendEvents 0 s)

/-- The meaning of CASCADE_FRAME_SEND. -/
def execCascadeFrameSend (s : State) : Out := engineStep s (doCasSend s)

/-- The tick with bits [54:0] as received that lies nearest the counter (R123). -/
def rebuildTick (now low : Nat) : Nat :=
  let m := 2 ^ 55
  let base := now / m * m + low % m
  if base + m / 2 < now then base + m else if now + m / 2 < base ∧ m ≤ base then base - m else base

/-- The event of a received entry (R123). -/
def entryEvent (now v : Nat) : CasEvent := { line := bits v 62 59, origin := bits v 58 55, otick := rebuildTick now (v % 2 ^ 55) }

/-- An event is late when the evaluation of the slice that contains o + CASLAT has begun. One whose o + CASLAT lies before T0 of the running
capture counts as late; while no capture is evaluated none is. (DESIGN CHOICE: log entry 36.) -/
def casTooLate (s : State) (e : CasEvent) : Bool := evaluating s && decide (e.otick + pCaslat (plan s) < nextSlice s)

/-- An event received for the first time: applied at o + CASLAT, by a capture that begins later too, or counted as late; forwarded unless
its origin is the next engine of the ring (R122, R124, R126). -/
def useEvent (e : CasEvent) (s : State) : State :=
  let s1 :=
    if casTooLate s e then
      ((List.range 8).filter fun a => (List.range 12).any fun k => pSel (plan s) a k == 2624 + e.line).foldl
        (fun z a => raise (srcTa a 4) 0 z) (count 0x608018 s)
    else { s with au := { s.au with inbound := s.au.inbound ++ [e] } }
  let last := e.origin == (ringPos s + 1) % ringCount s
  if 1 < ringCount s ∧ !last then { s1 with au := addOut [e] s1.au } else s1

/-- CASCADE_EVENT: the oldest entry received on K2 and K3 is used, unless the engine has used a copy of it before (R122). Events used are
remembered for 2^20 ticks. (DESIGN CHOICE: log entry 36.) -/
def doCascadeEvent (s : State) : State :=
  match s.au.rxq with
  | [] => s
  | v :: rest =>
    let e := entryEvent s.tb.tick v
    let s1 : State := { s with au := { s.au with rxq := rest } }
    if s.au.seen.contains e then s1
    else useEvent e { s1 with au := { s1.au with seen := e :: s1.au.seen.filter fun x => decide (s.tb.tick < x.otick + 2 ^ 20) } }

/-- The meaning of CASCADE_EVENT. -/
def execCascadeEvent (s : State) : Out := engineStep s (doCascadeEvent s)

/-- Every entry received is used. -/
def useEntries (n : Nat) (s : State) : State := match n with | 0 => s | k + 1 => useEntries k (doCascadeEvent s)

/-! ### Time -/

/-- Events that no capture can apply any more: CASLAT has 24 bits (R129). -/
def dropInbound (s : State) : State :=
  { s with au := { s.au with inbound := s.au.inbound.filter fun e => decide (s.tb.tick ≤ e.otick + 2 ^ 24) } }

/-- The automata registers show the slice with the last tick of a capture whose end is decided (R129, R135). -/
def showLast (s : State) : State :=
  match s.cap.endAt, s.au.shown with
  | some _, (t, q, m) :: _ =>
    let z := { s with au := { s.au with autos := q, timers := m } }
    let r := snapTimers t ((List.range 8).foldl (fun z a => snapAuto t a z) { z with trace := { z.trace with stateMask := 0 } })
    let run := evaluating s
    (List.range 8).foldl (fun z a => setRf (taBase a + 4) 12 12 (b2n run) z) { r with au := s.au, trace := s.trace }
  | _, _ => s

/-- What the automata side does in the slice that passes: entries received are used, the slice is evaluated if no row has done it, with low
TRIG_IN balls, and TRIG_OUT and the OPEN records follow. (DESIGN CHOICE: log entry 2.) -/
def automataTime (s : State) : State :=
  let s1 := doSlice [] [] (useEntries s.au.rxq.length s)
  doTrigOutFall (doTrigOut (openRecs (dropInbound s1)))

/-- What follows once the writers of the slice are done: host events, cascade events and frames, and the registers of an ended capture
(R115, R125, R135). (DESIGN CHOICE: log entry 2.) -/
def automataLate (s : State) : State := showLast (doCasSend (actCasDue (raiseHevs s)))

end Sys2Proof.Machine
end

