-- ==== Sys2Proof/Machine/March.lean ====
section
/-! DEFINITION. The march engine (R332 to R337): MARCH_RUN in its two modes, slice borrowing, and the preserving test of DRAM_TRAIN. -/

namespace Sys2Proof.Machine

/-! ### MARCH_RUN (R333) -/

/-- The banks of a mask. -/
def marchBanks (mask : Nat) : List Nat := numsWhere 12 (bit mask)

/-- The parameter checks of MARCH_RUN: any P2 or P3 that breaks its rule. -/
def marchBad (e : Entry) : Bool :=
  pn e.p2 % 256 != 0 || pn e.p3 % 256 != 0 || decide (262144 < pn e.p2 + pn e.p3)

/-- MARCH_RUN has nothing to do. -/
def marchZero (e : Entry) : Bool := pn e.p0 == 0 || pn e.p3 == 0

/-- The state refusals of MARCH_RUN: a DRAM_TRAIN is open (R334), or the owners do not fit the mode. -/
def marchBusy (e : Entry) (s : State) : Bool :=
  (openOp s opDramTrain).isSome ||
    (!marchZero e &&
      if pn e.p1 = 1 then (marchBanks (pn e.p0)).any fun k => ownerOf s k != 0xC || pendOf s k
      else (marchBanks (pn e.p0)).any fun k => ownerOf s k == 0xC)

/-- The test starts. In preserving mode the slices are tested one at a time, by bank and address. (DEDUCED: log entry 49.) -/
def runMarch (e : Entry) (o : Nat) (s : State) : State :=
  let destructive := pn e.p1 == 1
  let slices := if destructive then []
    else (marchBanks (pn e.p0)).flatMap fun k => (List.range (pn e.p3 / 256)).map fun i => (k, pn e.p2 / 256 + i)
  let m : March := { origin := o, destructive := destructive, mask := pn e.p0, first := pn e.p2, count := pn e.p3, todo := slices,
                     tries := [], failBanks := 0, firstFail := none, aborts := 0 }
  setRf 0x60100 31 30 (2 + b2n destructive) { s with banks := { s.banks with march := some m } }

/-- MARCH_RUN. -/
def doMarchRun (r : Nat) (e : Entry) : State → State :=
  submit r opMarchRun e { baseRow opMarchRun with
    bad := fun _ => marchBad e,
    busy := busyIf (marchBusy e),
    zero := marchZero e,
    run := runMarch e }

/-- The meaning of MARCH_RUN. -/
def execMarchRun (r : Nat) (e : Entry) (s : State) : Out := engineStep s (doMarchRun r e s)

/-! ### Results -/

/-- The march results with the words that failed a march read. -/
def noteFails (bad : List MarchFail) (m : March) : March :=
  { m with failBanks := bad.foldl (fun f x => f ||| 2 ^ x.bank) m.failBanks,
           firstFail := match m.firstFail, bad with | none, x :: _ => some (x.bank, 8 * x.word) | f, _ => f }

/-- Failed words are counted and reported (R339, R338). -/
def countFails (bad : List MarchFail) (s : State) : State :=
  if bad.isEmpty then s else raise (srcMarch 1) (bad.headD ⟨0, 0⟩).bank (countN bad.length (marchCtr 2) s)

/-- MARCH_RUN ends: its only commit point (R333, R402). (DEDUCED: log entry 49.) -/
def endMarch (m : March) (s : State) : State :=
  let s1 := setRf 0x60100 31 30 0 { s with banks := { s.banks with march := none } }
  let s2 := setSource (srcMarch 0) (count (marchCtr 3) s1)
  let aborted := match cmd? s2 m.origin with | some c => c.abort | none => false
  let x1 := match m.firstFail with | some (k, off) => k * 2 ^ 32 + off | none => 0
  finishLong m.origin (if aborted then stAborted else stDone) (BitVec.ofNat 64 m.failBanks) (BitVec.ofNat 64 x1)
    (BitVec.ofNat 64 m.aborts) s2

/-- Keep the march, or end it when no slice is left. (DEDUCED: log entry 49.) -/
def nextSlices (m : March) (s : State) : State :=
  if m.todo.isEmpty then endMarch m s else { s with banks := { s.banks with march := some m } }

/-! ### Slices (R335 to R337) -/

/-- A word of the slice buffer that fails its check on restore is written back as read, poisoned (R337). -/
def bufferFault (k sl : Nat) (f : Option (Nat × Nat)) (s : State) : State :=
  match f with
  | none => s
  | some (i, flips) =>
    let w := 256 * sl + i % 256
    raise (srcMarch 4) (8 * w) (spoilWord k w (bankWord s k w ^^^ BitVec.ofNat 64 flips) s)

/-- MARCH_SLICE: the first slice still to test is saved, tested to the end and restored. -/
def doMarchSlice (bad : List MarchFail) (f : Option (Nat × Nat)) (s : State) : State :=
  match s.banks.march with
  | none => s
  | some m =>
    match m.todo with
    | [] => s
    | (k, sl) :: rest =>
      let mine := bad.filter fun x => x.bank == k && x.word / 256 == sl
      nextSlices (noteFails mine { m with todo := rest }) (countFails mine (bufferFault k sl f (count (marchCtr 0) s)))

/-- The meaning of MARCH_SLICE. -/
def execMarchSlice (bad : List MarchFail) (bufBad : Option (Nat × Nat)) (s : State) : Out := engineStep s (doMarchSlice bad bufBad s)

/-- The sequencer whose frame save is the access to word w of bank k (R305). -/
def frameSaver (s : State) (k w : Nat) : Option Nat :=
  (List.range (seqCount s)).find? fun q => seqBank q == k && decide (frameWord q ≤ w) && decide (w < frameWord q + 64) &&
    !(sq s q).pendTrap.isEmpty && (sq s q).inTrap.isNone

/-- SLICE_ABORT: an access to word w of bank k reaches the borrowed slice, which is restored and tried again after the others; after 16
attempts it is left untested. (DEDUCED: log entry 49.) -/
def doSliceAbort (k w : Nat) (s : State) : State :=
  match s.banks.march with
  | none => s
  | some m =>
    match m.todo with
    | [] => s
    | (k', sl) :: rest =>
      if k' = k ∧ w / 256 = sl ∧ w < bankWords then
        let key := 1024 * k + sl
        let n := tblGet m.tries key 0 + 1
        let s1 := setSource (srcBnk k 5) (count (bankCtr k 8) s)
        let s2 := match frameSaver s1 k w with | some q => count (sqCtr q 6) s1 | none => s1
        let m1 := { m with aborts := m.aborts + 1, tries := tblSet m.tries key n }
        if 16 ≤ n then nextSlices { m1 with todo := rest } (setSource (srcMarch 3) (count (marchCtr 1) s2))
        else nextSlices { m1 with todo := rest ++ [(k, sl)] } s2
      else s

/-- The meaning of SLICE_ABORT. -/
def execSliceAbort (k w : Nat) (s : State) : Out := engineStep s (doSliceAbort k w s)

/-! ### Destructive mode (R333) -/

/-- Every word of the range holds 0 with valid check bits. -/
def zeroRange (m : March) (k : Nat) (s : State) : State :=
  let a := wordKey k m.first
  let inside (key : Nat) : Bool := decide (a ≤ key) && decide (key < a + m.count)
  { s with banks := { s.banks with mem := s.banks.mem.filter fun c => !inside (c.1 / 8),
                                   poison := s.banks.poison.filter fun x => !inside x,
                                   fix := s.banks.fix.filter fun x => !inside x } }

/-- A bank goes back to its PREV owner under R326. -/
def giveBack (k : Nat) (s : State) : State := handOver k (setRf (ownOff k) 3 0 (rf s (ownOff k) 19 16) s)

/-- MARCH_TEST_END. -/
def doMarchTestEnd (bad : List MarchFail) (s : State) : State :=
  match s.banks.march with
  | none => s
  | some m =>
    if m.destructive then
      let mine := bad.filter fun x => bit m.mask x.bank && decide (m.first ≤ x.word) && decide (x.word < m.first + m.count)
      let s1 := (marchBanks m.mask).foldl (fun z k => giveBack k (zeroRange m k z)) (countFails mine s)
      endMarch (noteFails mine m) s1
    else s

/-- The meaning of MARCH_TEST_END. -/
def execMarchTestEnd (bad : List MarchFail) (s : State) : Out := engineStep s (doMarchTestEnd bad s)

/-- The preserving test of all twelve banks during DRAM_TRAIN (R334). (DEDUCED: log entry 46.) -/
def trainMarch (bad : List MarchFail) (s : State) : State :=
  let mine := bad.filter fun x => decide (x.bank < 12) && decide (x.word < bankWords)
  setSource (srcMarch 0) (countFails mine (countN (12 * 1024) (marchCtr 0) (setRf 0x60100 31 30 0 s)))

end Sys2Proof.Machine
end

