-- ==== Sys2Proof/Machine/Rings.lean ====
section
/-! DEFINITION. Ring commands, inventory, upload streams, doorbells and the administration registers (R239 to R261). -/

namespace Sys2Proof.Machine

/-! ### NOP, IDENTIFY -/

/-- NOP (R251): completes DONE. -/
def doNop (r : Nat) (e : Entry) : State → State := submit r opNop e (baseRow opNop)

/-- The meaning of NOP. -/
def execNop (r : Nat) (e : Entry) (s : State) : Out := engineStep s (doNop r e s)

/-- IDENTIFY (R251): CAPS and STEPID, MCVER, and the next JSEQ of the journal. -/
def doIdentify (r : Nat) (e : Entry) : State → State :=
  submit r opIdentify e { baseRow opIdentify with
    run := fun o s => finishCmd o stDone (BitVec.ofNat 64 ((reg s 0x8).toNat + (reg s 0x4).toNat * 2 ^ 32)) (mcver s)
      (BitVec.ofNat 64 s.jr.next) s }

/-- The meaning of IDENTIFY. -/
def execIdentify (r : Nat) (e : Entry) (s : State) : Out := engineStep s (doIdentify r e s)

/-! ### INVENTORY (R254, R255) -/

/-- The retained journal entries as the engine formed them, oldest first. -/
def jEntries (s : State) : List JEntry := s.jr.entries.reverse.map fun p => p.2

/-- The oldest retained JSEQ. -/
def jOldest (s : State) : Nat := match jEntries s with | [] => s.jr.next | e :: _ => e.jseq

/-- The addresses, in copy A and in copy B, of the journal entries from JSEQ `first` on (R153, R162). -/
def jSpan (s : State) (first : Nat) : List Nat :=
  (List.range (s.jr.next - first)).flatMap fun k =>
    let a := journalBase s + 64 * ((s.jr.pos + journalSize - (s.jr.next - first - k)) % journalSize)
    [a, a + 2 ^ 28]

/-- Whether 64 bytes read from a copy are valid as entry `j`: the CRC holds and the JSEQ is the one that follows (R157). -/
def entryValid (j : Nat) (bs : List Byte) : Bool :=
  crc32c (bs.take 60) == leVal ((bs.drop 60).take 4) && leVal ((bs.drop 2).take 6) == j % 2 ^ 48

/-- The end reason of a code (R154). -/
def reasonOf (n : Nat) : Option EndReason :=
  if n = 1 then some .count else if n = 2 then some .stop else if n = 3 then some .fullstop else if n = 4 then some .reset
  else if n = 5 then some .trip else if n = 6 then some .machineCheck else none

/-- A 64-bit field in which all ones stand for none. -/
def orNone (v : Nat) : Option Nat := if v = ones64 then none else some v

/-- A journal entry from its bytes (R153, R154). The bytes of a COMPLETE entry do not hold the opcode: `ops` gives it by JSEQ (R255). -/
def parseEntry (ops : Nat → Nat) (bs : List Byte) : JEntry :=
  let f (off n : Nat) : Nat := leVal ((bs.drop off).take n)
  let w (off : Nat) : W64 := BitVec.ofNat 64 (f off 8)
  let j := f 2 6
  let body : JBody :=
    if f 0 1 = 1 then .accept (f 16 2) (f 18 2) (BitVec.ofNat 32 (f 20 4)) (f 24 8) (f 32 8)
    else if f 0 1 = 2 then .complete (f 16 2) (f 18 2) (BitVec.ofNat 32 (f 20 4)) (w 24) (w 32) (w 40) (orNone (f 48 8)) (ops j)
    else if f 0 1 = 3 then .progress (f 16 2) (BitVec.ofNat 32 (f 20 4)) (w 24) (f 32 8)
    else if f 0 1 = 4 then .commit (f 16 1) { segno := f 20 4, seq := orNone (f 24 8), next := f 32 8, through := f 40 8 }
    else if f 0 1 = 5 then .capture (f 16 1 == 2) (reasonOf (f 17 1)) (BitVec.ofNat 32 (f 20 4)) (f 24 8)
    else .reset (f 16 1)
  { jseq := j, carry := bit (f 1 1) 0, tick := f 8 8, body := body }

/-- The journal as it is read back from both copies: of each entry the copy that is valid, up to the first JSEQ that is valid in neither (R157). -/
def readBack (ops : Nat → Nat) (j : Nat) (copies : List (List Byte)) : List JEntry :=
  match copies with
  | a :: b :: rest =>
    if entryValid j a then parseEntry ops a :: readBack ops (j + 1) rest
    else if entryValid j b then parseEntry ops b :: readBack ops (j + 1) rest
    else []
  | _ => []

/-- The opcode that the engine keeps of the COMPLETE entry with a JSEQ (R255). (DESIGN CHOICE: log entry 23.) -/
def keptOp (s : State) (j : Nat) : Nat :=
  match s.jr.entries.find? fun p => p.2.jseq == j with
  | some (_, { body := .complete _ _ _ _ _ _ _ op, .. }) => op
  | _ => 0

/-- State code of the CAPTURE entry (R255). -/
def capCode (s : State) : Nat := match s.cap.state with | .none => 0 | .waiting => 1 | .running => 2 | .ended => 3

/-- The CAPTURE entry (R255). -/
def invCapture (s : State) : List Byte :=
  let c := s.cap
  let ended := c.state == .ended
  let pid (p : Option Image) : Nat := (p.map planId).getD 0
  padTo 64 (leBytes 1 1 ++ leBytes 1 (capCode s) ++ leBytes 1 (if ended then (c.reason.map reasonCode).getD 0 else 0) ++ leBytes 1 0 ++
    leBytes 4 c.tag.toNat ++ leBytes 8 c.t0 ++ leBytes 8 (if ended then c.lastTick else 0) ++
    leBytes 4 (pid s.plans.active) ++ leBytes 4 (pid s.plans.staged))

/-- Whether a stream is bound to a STR ring. -/
def streamBound (s : State) (i : Nat) : Bool :=
  s.rings.any fun p => match p.2.bound with | some b => b.stream == i | none => false

/-- A STREAM entry (R255). (DEDUCED: log entry 23.) -/
def invStream (s : State) (i : Nat) : List Byte :=
  let d := (if s.cap.anyBegun then (strm s i).commit else none).getD { segno := 0, seq := none, next := pBase (plan s) i, through := 0 }
  padTo 64 (leBytes 1 2 ++ leBytes 1 i ++ leBytes 1 (b2n (streamBound s i)) ++ leBytes 1 0 ++ leBytes 4 d.segno ++
    leBytes 8 (d.seq.getD ones64) ++ leBytes 8 d.next ++ leBytes 8 d.through)

/-- The amount of the last PROGRESS entry of a command; one open before the span has committed it as its first result (R301). -/
def invAmount (es : List JEntry) (s : State) (o : Nat) : Nat :=
  match es.reverse.find? fun e => match e.body with | .progress _ _ _ x => x == o | _ => false with
  | some { body := .progress _ _ a _, .. } => a.toNat
  | _ => match cmd? s o with | some c => c.c0.toNat | none => 0

/-- The COMPLETE entry of a command: its JSEQ, status and results. -/
def invEnd (es : List JEntry) (o : Nat) : Option (Nat × Nat × W64 × W64 × W64) :=
  match es.find? fun e => match e.body with | .complete _ _ _ _ _ _ x _ => x == some o | _ => false with
  | some { jseq := j, body := .complete _ st _ x0 x1 x2 _ _, .. } => some (j, st, x0, x1, x2)
  | _ => none

/-- A COMMAND entry (R255). (DEDUCED: log entry 23.) -/
def invCommand (ring op : Nat) (tag : W32) (acc : Option Nat) (fin : Option (Nat × Nat × W64 × W64 × W64)) (amount : Nat) : List Byte :=
  let f := fin.getD (ones64, stAccepted, 0, 0, 0)
  padTo 64 (leBytes 1 3 ++ leBytes 1 0 ++ leBytes 2 ring ++ leBytes 2 op ++ leBytes 2 f.2.1 ++ leBytes 4 tag.toNat ++ leBytes 4 0 ++
    leBytes 8 (acc.getD ones64) ++ leBytes 8 f.1 ++ leBytes 8 f.2.2.1.toNat ++ leBytes 8 f.2.2.2.1.toNat ++ leBytes 8 f.2.2.2.2.toNat ++
    leBytes 8 amount)

/-- The COMMAND entries of a span with entries `es`: the commands open that were accepted before it, then those whose ACCEPT or refusal lies in it, each with
the JSEQ to continue from (R254). -/
def invCommands (es : List JEntry) (s : State) (first : Nat) : List (Nat × List Byte) :=
  let opened := (s.cmds.filter fun c => decide (c.origin < first)).map fun c =>
    (first, invCommand c.ring c.opcode c.tag (some c.origin) none (invAmount es s c.origin))
  let span := es.filterMap fun e =>
    if e.jseq < first then none
    else match e.body with
      | .accept ring op tag _ o => if o = e.jseq then some (e.jseq, invCommand ring op tag (some o) (invEnd es o) (invAmount es s o)) else none
      | .complete ring st tag x0 x1 x2 none op => some (e.jseq, invCommand ring op tag none (some (e.jseq, st, x0, x1, x2)) 0)
      | _ => none
  opened ++ span

/-- The JSEQ from which an INVENTORY asks, and from which its span starts (R254). -/
def invAsked (e : Entry) (s : State) : Nat := if eOpt e then jOldest s else pf e.p2 47 0
def invFirst (e : Entry) (s : State) : Nat := max (invAsked e s) (jOldest s)

/-- INVENTORY writes its entries and ends, with the entries `es` of the journal from `first` on (R254). Without access to host memory it ends with BUS_MASTER_OFF (R229). -/
def invFinish (e : Entry) (o first : Nat) (es : List JEntry) (s : State) : State :=
  let lost := decide (invAsked e s < first)
  let fixed := invCapture s :: (pStreams (plan s)).map (invStream s)
  let cmds := invCommands es s first
  let room := pn e.p1 / 64 - fixed.length
  let more := decide (room < cmds.length)
  let out := (fixed ++ (cmds.take room).map fun c => c.2).flatten
  let upTo := match es.getLast? with | some x => x.jseq + 1 | none => first
  let next := match cmds.drop room with | c :: _ => c.1 | [] => upTo
  if canMaster s then
    finishCmd o stDone (BitVec.ofNat 64 (out.length / 64)) (BitVec.ofNat 64 next) (BitVec.ofNat 64 (b2n more + 2 * b2n lost))
      (post (.write (pn e.p0) out false) s)
  else finishCmd o stBusMasterOff 0 0 0 s

/-- The effect of INVENTORY: while a journal is in force its copies are read in SC1 from the span's first JSEQ on, else the hold is (R157, R177, R401). -/
def runInventory (e : Entry) (o : Nat) (s : State) : State :=
  let first := invFirst e s
  if s.jr.inForce && decide (first < s.jr.next) then readGrans (jSpan s first) 1 (.inventory o first e) s
  else invFinish e o first ((jEntries s).filter fun x => decide (first ≤ x.jseq)) s

/-- INVENTORY. -/
def doInventory (r : Nat) (e : Entry) : State → State :=
  submit r opInventory e { baseRow opInventory with
    bad := fun s => pn e.p0 % 64 != 0 || pn e.p1 % 64 != 0 ||
      (pn e.p1 != 0 && decide (pn e.p1 < 64 * (1 + (pStreams (plan s)).length))),
    zero := pn e.p1 == 0,
    run := runInventory e }

/-- The meaning of INVENTORY. -/
def execInventory (r : Nat) (e : Entry) (s : State) : Out := engineStep s (doInventory r e s)

/-! ### Ring contexts (R240, R252) -/

/-- Whether Z is a power of two from 16 to 65,536 (R239). -/
def zOk (z : Nat) : Bool := (List.range 13).any fun k => z == 16 * 2 ^ k

/-- A new ring context. -/
def newRing (t : RingType) (base z pair vector : Nat) (ien : Bool) : Ring :=
  { type := t, base := base, z := z, pair := pair, vector := vector, ien := ien, eng := 0, host := 0, phase := true, halted := none,
    held := [], bound := none, got := 0 }

/-- Entry size by ring type code (R239). -/
def entrySize (t : Nat) : Nat := if t = 1 then 64 else 32

/-- The parameter refusals of RING_CREATE (R252). -/
def ringCreateBad (e : Entry) (s : State) : Bool :=
  let id := pf e.p0 15 0
  let t := pf e.p0 17 16
  let z := pn e.p2
  decide (id < 2) || (ring? s id).isSome || t == 0 || !zOk z || pn e.p1 % min 4096 (z * entrySize t) != 0 ||
    (if t = 1 then (match ring? s (pf e.p3 15 0) with | some c => c.type != .cmp | none => true)
     else bits (pn e.p3) 14 11 != 0)

/-- The effect of RING_CREATE. -/
def runRingCreate (e : Entry) (o : Nat) (s : State) : State :=
  let t := pf e.p0 17 16
  let ty := if t = 1 then RingType.sub else if t = 2 then RingType.cmp else RingType.str
  let x := if t = 1 then newRing ty (pn e.p1) (pn e.p2) (pf e.p3 15 0) 0 false
    else newRing ty (pn e.p1) (pn e.p2) 0 (pf e.p3 10 0) (bit (pn e.p3) 15)
  finishCmd o stDone 0 0 0 (setRing (pf e.p0 15 0) x s)

/-- RING_CREATE. -/
def doRingCreate (r : Nat) (e : Entry) : State → State :=
  submit r opRingCreate e { baseRow opRingCreate with bad := ringCreateBad e, run := runRingCreate e }

/-- The meaning of RING_CREATE. -/
def execRingCreate (r : Nat) (e : Entry) (s : State) : Out := engineStep s (doRingCreate r e s)

/-- The state refusals of RING_DESTROY (R252). -/
def ringDestroyBusy (e : Entry) (s : State) : Bool :=
  let id := pf e.p0 15 0
  match ring? s id with
  | none => false
  | some x => (x.type == .cmp && s.rings.any fun p => p.2.type == .sub && p.2.pair == id) || x.bound.isSome

/-- RING_DESTROY. -/
def doRingDestroy (r : Nat) (e : Entry) : State → State :=
  submit r opRingDestroy e { baseRow opRingDestroy with
    bad := fun s => decide (pf e.p0 15 0 < 2) || (ring? s (pf e.p0 15 0)).isNone,
    busy := busyIf (ringDestroyBusy e),
    run := fun o s => finishCmd o stDone 0 0 0 { s with rings := tblDrop s.rings fun k => k == pf e.p0 15 0 } }

/-- The meaning of RING_DESTROY. -/
def execRingDestroy (r : Nat) (e : Entry) (s : State) : Out := engineStep s (doRingDestroy r e s)

/-! ### Fetching (R225, R242) -/

/-- The bytes of pending entries from index k on that one read of a ring fetches: at most Max_Read_Request_Size, and not across 4 KiB (R225,
R242). -/
def fetchLen (s : State) (x : Ring) (k : Nat) : Nat :=
  let a := x.base + 64 * k
  let n := if k ≤ x.host then x.host - k else x.z - k
  min (64 * n) (min s.pcie.mrrs (4096 - a % 4096))

/-- Fetch pending entries of a SUB ring (R242); a halted ring fetches nothing (R249), nor does the engine without Bus Master Enable
or in D3hot (R229, R214). (DEDUCED: log entry 65.) -/
def fetch (r : Nat) (s : State) : State :=
  match ring? s r with
  | none => s
  | some x =>
    if x.type == .sub && x.halted.isNone && x.got != x.host && s.pcie.bme && !s.pcie.d3 && !fetching s r then
      issueRead (x.base + 64 * x.got) (fetchLen s x x.got) (.fetch r) s
    else s

/-- Resume a halted ring: held entries are posted in order, then the engine fetches again from the engine index (R249). -/
def resumeRing (r : Nat) (s : State) : State :=
  match ring? s r with
  | none => s
  | some x => if x.halted.isSome then fetch r (drainRing r (setRing r { x with halted := none, got := x.eng } s)) else s

/-- PESTAT.HALTED is 1 from the clearing of Bus Master Enable on, until no ring that it halted is left halted with Bus Master Enable set again
(R229, R237). (DEDUCED: log entry 53.) -/
def haltedByBme (s : State) : Bool := s.pcie.halted && (!s.pcie.bme || s.rings.any fun p => p.2.halted == some .busMasterOff)

/-- The effect of RING_RESUME: one ring, or every halted ring from 2 upward (R251). -/
def runRingResume (e : Entry) (o : Nat) (s : State) : State :=
  let ids := if eOpt e then (s.rings.filter fun p => decide (2 ≤ p.1)).map fun p => p.1 else [pf e.p0 15 0]
  finishCmd o stDone 0 0 0 (ids.foldl (fun t id => resumeRing id t) s)

/-- RING_RESUME. -/
def doRingResume (r : Nat) (e : Entry) : State → State :=
  submit r opRingResume e { baseRow opRingResume with
    bad := fun s => !eOpt e && (decide (pf e.p0 15 0 < 2) || (ring? s (pf e.p0 15 0)).isNone),
    busy := busyIf fun s => !s.pcie.bme,
    run := runRingResume e }

/-- The meaning of RING_RESUME. -/
def execRingResume (r : Nat) (e : Entry) (s : State) : Out := engineStep s (doRingResume r e s)

/-! ### Doorbells (R241) -/

/-- Whether ring index k lies in the run from `from_` up to but not including `to_`, modulo z. -/
def inRun (z from_ to_ k : Nat) : Bool := decide ((k + z - from_) % z < (to_ + z - from_) % z)

/-- The head moves: the space of every record whose entry it passed is free (R257). -/
def releaseHeld (x : Ring) (head : Nat) : Ring :=
  match x.bound with
  | none => { x with host := head }
  | some b => { x with host := head, bound := some { b with held := b.held.filter fun h => !inRun x.z x.host head h.1 } }

/-- A doorbell write (R241, R242). -/
def doDoorbell (r : Nat) (v : W64) (lower : Bool) (s : State) : State :=
  if !lower then s
  else match ring? s r with
    | none => busError 6 0 (0x100000 + 8 * r) s
    | some x =>
      let k := bits v.toNat 15 0
      if x.z ≤ k then busError 6 0 (0x100000 + 8 * r) s
      else if x.type == .sub then fetch r (setRing r { x with host := k } s)
      else drainRing r (setRing r (releaseHeld x k) s)

/-- The meaning of DOORBELL. -/
def execDoorbell (r : Nat) (v : W64) (lower : Bool) (s : State) : Out := engineStep s (hostMem (doDoorbell r v lower) s)

/-- What a doorbell read returns (R241). -/
def doorbellView (s : State) (r : Nat) : Nat :=
  match ring? s r with
  | none => 0
  | some x => x.eng + b2n (x.phase && x.type != .sub) * 2 ^ 16 + (if x.halted.isSome then 2 else 1) * 2 ^ 17

/-! ### Administration registers (R260) -/

/-- ADMSTAT.STATE (R260). -/
def admState (s : State) : Nat :=
  match ring? s 0, ring? s 1 with
  | some a, some b => if a.halted.isSome || b.halted.isSome then 2 else 1
  | _, _ => 0

/-- A write of ADMSQ, ADMCQ or ADMCFG (R260). -/
def writeAdm (off : Nat) (mask v : W32) (s : State) : State :=
  if bit (reg s 0x180014).toNat 0 then busError 6 0 off s else setReg off (v &&& mask) s

/-- A write of ADMCTL (R249, R260): EN may only rise, with both ring sizes in range; RESUME resumes rings 0 and 1. -/
def writeAdmctl (v : W32) (s : State) : State :=
  let on := bit (reg s 0x180014).toNat 0
  let sq := rf s 0x180010 4 0
  let cq := rf s 0x180010 12 8
  let en := bit v.toNat 0
  let res := bit v.toNat 1
  if (on && !en) || (en && !on && (decide (sq < 4) || decide (16 < sq) || decide (cq < 4) || decide (16 < cq))) ||
      (res && !s.pcie.bme) then busError 6 0 0x180014 s
  else
    let s1 := if en && !on then
        let a := (reg s 0x180004).toNat * 2 ^ 32 + (reg s 0x180000).toNat
        let b := (reg s 0x18000C).toNat * 2 ^ 32 + (reg s 0x180008).toNat
        setRing 1 (newRing .cmp b (2 ^ cq) 0 (rf s 0x180010 26 16) (bit (reg s 0x180010).toNat 31))
          (setRing 0 (newRing .sub a (2 ^ sq) 1 0 false) (setReg 0x180014 1 s))
      else s
    if res then resumeRing 1 (resumeRing 0 s1) else s1

/-- The meaning of EN: a write of ADMCTL. -/
def execEn (v : W32) (s : State) : Out := engineStep s (hostMem (writeAdmctl v) s)

/-- The meaning of RESUME: a write of ADMCTL. -/
def execResume (v : W32) (s : State) : Out := engineStep s (hostMem (writeAdmctl v) s)

/-! ### Upload streams (R256 to R258) -/

/-- A stream's next SEQ; it has no record before the plan's first capture (R256). (DEDUCED: log entry 34.) -/
def nextSeqOf (s : State) (i : Nat) : Nat := if s.cap.anyBegun then (strm s i).seq else 0

/-- The parameter refusals of STREAM_OPEN (R256). -/
def streamOpenBad (e : Entry) (s : State) : Bool :=
  let id := pf e.p0 15 0
  let st := pf e.p0 23 16
  let size := pn e.p3
  (match ring? s id with | some x => x.type != .str || x.bound.isSome | none => true) ||
    pSfmt (plan s) st == 0 || !((List.range 14).any fun k => size == 2 ^ (19 + k)) || pn e.p2 % 4096 != 0 ||
    decide (nextSeqOf s st < pn e.p1)

/-- The effect of STREAM_OPEN. -/
def runStreamOpen (e : Entry) (o : Nat) (s : State) : State :=
  let id := pf e.p0 15 0
  let b : Binding := { stream := pf e.p0 23 16, buf := pn e.p2, size := pn e.p3, nextSeq := pn e.p1, off := 0, held := [], live := true, reading := false, ready := none }
  match ring? s id with
  | none => s
  | some x => finishCmd o stDone 0 0 0 (setRing id { x with bound := some b } s)

/-- STREAM_OPEN. -/
def doStreamOpen (r : Nat) (e : Entry) : State → State :=
  submit r opStreamOpen e { baseRow opStreamOpen with
    bad := streamOpenBad e,
    busy := busyIf fun s => streamBound s (pf e.p0 23 16),
    run := runStreamOpen e }

/-- The meaning of STREAM_OPEN. -/
def execStreamOpen (r : Nat) (e : Entry) (s : State) : Out := engineStep s (doStreamOpen r e s)

/-- The effect of STREAM_CLOSE: unbind, and report the next SEQ not delivered; an unbound ring gives X0 = 0 (R252, R257). -/
def runStreamClose (e : Entry) (o : Nat) (s : State) : State :=
  let id := pf e.p0 15 0
  match ring? s id with
  | none => s
  | some x =>
    let next := match x.bound with | some b => b.nextSeq | none => 0
    finishCmd o stDone (BitVec.ofNat 64 next) 0 0 (setRing id { x with bound := none } s)

/-- STREAM_CLOSE. -/
def doStreamClose (r : Nat) (e : Entry) : State → State :=
  submit r opStreamClose e { baseRow opStreamClose with
    bad := fun s => (match ring? s (pf e.p0 15 0) with | some x => x.type != .str | none => true),
    run := runStreamClose e }

/-- The meaning of STREAM_CLOSE. -/
def execStreamClose (r : Nat) (e : Entry) (s : State) : Out := engineStep s (doStreamClose r e s)

/-- The last committed SEQ of a stream, as a bound: every record below it is committed (R155). -/
def committedTo (s : State) (i : Nat) : Nat :=
  match (strm s i).commit with
  | some d => (match d.seq with | some q => q + 1 | none => 0)
  | none => 0

/-- The record of a SEQ. -/
def recOf (x : Stream) (seq : Nat) : Option RecMeta := x.recs.find? fun m => m.seq == seq

/-- Length of the run of overwritten records from `seq` on (R257). -/
def goneRun (x : Stream) (fuel seq limit : Nat) : Nat :=
  match fuel with
  | 0 => 0
  | f + 1 =>
    if limit ≤ seq then 0
    else match recOf x seq with
      | some m => if m.gone then goneRun x f (seq + 1) limit + 1 else 0
      | none => 0

/-- Whether `n` bytes at offset `off` of a data buffer overlap the space of an entry the head has not passed (R257). -/
def spaceTaken (b : Binding) (off n : Nat) : Bool :=
  b.held.any fun h => decide (h.2.1 < off + n) && decide (off < h.2.1 + h.2.2)

/-- Put one entry of a STR ring (R243) and set a CAPEVT0 bit. -/
def strEntry (ring : Nat) (x : Ring) (e : RingEntry) (b : Option Binding) (ev : Option Nat) (s : State) : State :=
  let s1 := writeEntry ring { x with bound := b } e s
  match ev with | some n => setSource (srcCap n) s1 | none => s1

/-- Where a record of `len` bytes goes in the data buffer (R257). -/
def freeOffset (b : Binding) (len : Nat) : Nat := if b.size < b.off + len then 0 else b.off

/-- A record that has been read from DRAM is written to the data buffer and announced, where its bytes and its entry have room (R257). -/
def deliverRecord (ring : Nat) (x : Ring) (b : Binding) (m : RecMeta) (bs : List Byte) (s : State) : State :=
  let len := 64 * m.len
  let off := freeOffset b len
  if !canWrite s x || spaceTaken b off len then setRing ring { x with bound := some { b with reading := false, ready := some bs } } s
  else
    strEntry ring x (.record m.seq off m.len m.ts)
      (some { b with nextSeq := b.nextSeq + 1, off := off + len, held := b.held ++ [(x.eng, off, len)], reading := false, ready := none }) none
      (post (.write (b.buf + off) bs s.pcie.ro) s)

/-- The read of the next record of an upload stream is complete. A binding that has ended meanwhile delivers nothing. -/
def uploadRead (ring st seq : Nat) (bs : List Byte) (s : State) : State :=
  match ring? s ring with
  | none => s
  | some x => match x.bound with
    | none => s
    | some b =>
      if b.reading && b.stream == st && b.nextSeq == seq then
        (match recOf (strm s st) seq with | some m => deliverRecord ring x b m bs s | none => s)
      else s

/-- RECORD (R257): the next committed record of a bound stream is read from DRAM in SC2 and then written to the data buffer and announced; a run of overwritten
records gives one SKIP entry; after the end of the capture, END. With no room the records stay in DRAM. -/
def doRecord (ring : Nat) (s : State) : State :=
  match ring? s ring with
  | none => s
  | some x =>
    match x.bound with
    | none => s
    | some b =>
      if x.type != .str || !canWrite s x || b.reading then s
      else
        let st := strm s b.stream
        let limit := if b.live && !s.cap.anyBegun then 0 else committedTo s b.stream
        if limit ≤ b.nextSeq then
          if (s.cap.state == .ended && !s.cap.closing) || !b.live then strEntry ring x (.fin b.nextSeq) none (some 18) s else s
        else
          let n := goneRun st (limit - b.nextSeq) b.nextSeq limit
          if 0 < n then
            strEntry ring x (.skip b.nextSeq (b.nextSeq + n - 1)) (some { b with nextSeq := b.nextSeq + n, ready := none }) (some 17) s
          else match recOf st b.nextSeq with
            | none => s
            | some m =>
              if spaceTaken b (freeOffset b (64 * m.len)) (64 * m.len) then s
              else match b.ready with
                | some bs => deliverRecord ring x b m bs s
                | none => readGrans (gransOf m.addr (64 * m.len)) 2 (.upload ring b.stream b.nextSeq m.addr (64 * m.len)) (setRing ring { x with bound := some { b with reading := true } } s)

/-- The meaning of RECORD. -/
def execRecord (ring : Nat) (s : State) : Out := engineStep s (doRecord ring s)

end Sys2Proof.Machine
end

