-- ==== Sys2Proof/Machine/Dram.lean ====
section
/-! DEFINITION. DRAM: population, training, orbits and slots, refresh and neighbour-refresh mitigation, service classes, ECC, patrol scrub
and self-refresh (R158 to R191). -/

namespace Sys2Proof.Machine

/-! ### Subchannels -/

/-- A DRAM bank's state. -/
def dbank (x : SubCh) (b : Nat) : DBank := tblGet x.banks b DBank.reset

/-- Set a DRAM bank's state. -/
def setDbank (sc b : Nat) (v : DBank) (s : State) : State := setSub sc { sub s sc with banks := tblSet (sub s sc).banks b v } s

/-- Every open row of a subchannel is closed. -/
def closeRows (sc : Nat) (s : State) : State :=
  setSub sc { sub s sc with banks := (sub s sc).banks.map fun p => (p.1, { p.2 with row := none }) } s

/-- Whether a subchannel exists and its channel is READY. -/
def subReady (s : State) (sc : Nat) : Bool := decide (sc < subCount s) && chState s (sc / 2) == 3

/-- DCHSTAT.ORB of a subchannel: 0 idle schedule, 1 normal table, 2 hot table. -/
def orbOf (s : State) (sc : Nat) : Nat := rf s (chBase (sc / 2) + 4) (25 + 2 * (sc % 2)) (24 + 2 * (sc % 2))

/-- DCHSTAT.SR of a subchannel. -/
def inSr (s : State) (sc : Nat) : Bool := rf s (chBase (sc / 2) + 4) (22 + sc % 2) (22 + sc % 2) == 1
def setSr (sc v : Nat) (s : State) : State := setRf (chBase (sc / 2) + 4) (22 + sc % 2) (22 + sc % 2) v s

/-- DREFCFG as it is in force in a channel (R347). -/
def refInForce (s : State) (ch : Nat) : W32 := tblGet s.dram.refIn ch (regReset (chBase 0 + 0x20))

/-- Whether a channel's subchannels are to use the hot table (R171). -/
def wantsHot (s : State) (ch : Nat) : Bool := rf s (chBase ch + 4) 21 21 == 1 || bit (refInForce s ch).toNat 16

/-! ### Memory time (R164)

Memory time counts units of 1 / (625 × RATE) tick, in which the slot of every rate and a picosecond are whole numbers: a tick is
625 / 32 ps, and a slot is 16 / RATE µs. -/

/-- RATE of the declared population, in MT/s. -/
def memRate (s : State) : Nat := rf s (chBase 0) 29 16

/-- Elapsed ticks, picoseconds and a slot in memory time. -/
def memTick (s : State) (n : Nat) : Nat := 625 * memRate s * n
def memPs (s : State) (n : Nat) : Nat := 32 * memRate s * n
def memSlot : Nat := 512000000

/-- A time in ps in ticks, rounded up. -/
def psTicks (n : Nat) : Nat := ceilDiv (32 * n) 625

/-- Whether the next slot of a subchannel begins in the slice now. -/
def slotDue (s : State) (sc : Nat) : Bool := decide ((sub s sc).slotAt < memTick s (nowT s + 32))

/-! ### Self-refresh as the requests see it (R185) -/

/-- Whether a subchannel may serve a write, and a read: awake, or from tXS and from tXS_DLL after SRX (R185). -/
def srWrites (s : State) (sc : Nat) : Bool :=
  match (sub s sc).sr with | .awake => true | .waking t => decide (t + psTicks s.dram.times.tXS ≤ nowT s) | _ => false
def srReads (s : State) (sc : Nat) : Bool :=
  match (sub s sc).sr with | .awake => true | .waking t => decide (t + psTicks s.dram.times.tXSDLL ≤ nowT s) | _ => false

/-- Whether the direction of a request is open. -/
def srOpen (s : State) (sc : Nat) (r : DReq) : Bool := if r.data.isSome then srWrites s sc else srReads s sc

/-! ### ACT commands and sampling (R168, R174) -/

/-- One step of the Galois LFSR x^32 + x^22 + x^2 + x + 1. (DESIGN CHOICE: log entry 42.) -/
def lfsr32 (v : W32) : W32 := if v.msb then (v <<< 1) ^^^ 0x00400007#32 else v <<< 1

/-- A sampled row enters its bank's queue, or the overflow register when the queue is full (R174, R176). (DESIGN CHOICE: log entry 42.) -/
def sampleRow (row : Nat) (b : DBank) : DBank :=
  if b.queue.length < 4 then { b with queue := b.queue ++ [row] } else if b.ovf.isNone then { b with ovf := some row } else b

/-- The place of a device address in its subchannel. -/
def burstAt (s : State) (a : Nat) : Burst := burstOf s (placeOf s a).2

/-- Whether the burst of the next slot can reach the bank of a device address: no refresh blocks it, and where its row is not open the activate-path
timings of R160 allow the ACT tRCD before the burst, and before it the precharge of the row that is open (R168). (DESIGN CHOICE: log entry 42.) -/
def canReach (s : State) (a : Nat) : Bool :=
  let sc := subOf s a
  let x := sub s sc
  let b := burstAt s a
  let k := dbank x (bankNo b)
  let d := s.dram.times
  let by_ (t ps : Nat) : Bool := decide (t + memPs s ps ≤ x.slotAt)
  let acts := x.acts.filter fun c => c.1 == b.rank
  if x.slotAt < k.blocked then false
  else k.row == some b.row ||
    (by_ k.blocked d.tRCD && (k.row.isNone || (by_ k.actAt (d.tRAS + d.tRP) && by_ k.wrEnd (d.tWR + d.tRP + d.tRCD))) &&
      (acts.all fun c => by_ c.2.2 (if c.2.1 = b.bg then d.tRRDL else d.tRRDS)) &&
      (match acts.drop 3 with | c :: _ => by_ c.2.2 d.tFAW | [] => true))

/-- The ACT for a burst of the next slot: it advances the LFSR, whatever it serves, and may be sampled (R174). (DESIGN CHOICE: log entry 42.) -/
def activateRow (sc : Nat) (b : Burst) (s : State) : State :=
  let x := sub s sc
  let k := dbank x (bankNo b)
  if k.row = some b.row then s
  else
    let v := lfsr32 x.lfsr
    let hit := v.toNat % 2 ^ rf s (chBase (sc / 2) + 0x10) 3 0 == 0
    let k1 := { k with row := some b.row, actAt := x.slotAt }
    let acts := (b.rank, b.bg, x.slotAt) :: ((x.acts.filter fun c => c.1 == b.rank).take 3 ++ x.acts.filter fun c => c.1 != b.rank)
    let s1 := setSub sc { x with lfsr := v, acts := acts, banks := tblSet x.banks (bankNo b) (if hit then sampleRow b.row k1 else k1) } s
    let s2 := count (subCtr sc 7) s1
    if hit then count (subCtr sc 8) s2 else s2

/-- The burst of the next slot goes to or comes from a device address: its row is opened where it is not open, and a write ends with the slot. -/
def touch (a : Nat) (write : Bool) (s : State) : State :=
  let sc := subOf s a
  let b := burstAt s a
  let s1 := activateRow sc b s
  if write then setDbank sc (bankNo b) { dbank (sub s1 sc) (bankNo b) with wrEnd := (sub s1 sc).slotAt + memSlot } s1 else s1

/-! ### Requests (R177 to R180) -/

/-- Two requests concern one granule. -/
def sameGran (a b : Nat) : Bool := a / 64 == b / 64

/-- Whether a request must wait for an earlier one to its granule: every write, of the real-time writer too, and for a write every earlier
access (R180). -/
def mustWait (s : State) (sc : Nat) (r : DReq) : Bool :=
  (s.dram.rt.any fun g => sameGran g.addr r.addr && decide (g.arr < r.arr)) ||
    (sub s sc).reqs.any fun q => decide (q.arr < r.arr) && sameGran q.addr r.addr && (q.data.isSome || r.data.isSome)

/-- The first request for which `p` holds, in the order received, that this slot can serve. -/
def firstReq (s : State) (sc : Nat) (p : DReq → Bool) : Option DReq :=
  (sub s sc).reqs.find? fun r => p r && srOpen s sc r && canReach s r.addr && !mustWait s sc r

/-- The request that a FREE slot of a direction carries: promoted, SC1, SC2, SC3, each oldest first (R177). (DESIGN CHOICE: log entry 42.) -/
def freeChoice (s : State) (sc : Nat) (write : Bool) : Option DReq :=
  let dir (r : DReq) : Bool := r.data.isSome == write
  (firstReq s sc fun r => dir r && r.promoted).or
    ((firstReq s sc fun r => dir r && r.cls == 1).or
      ((firstReq s sc fun r => dir r && r.cls == 2).or (firstReq s sc fun r => dir r && r.cls == 3)))

/-- The write that an unused WR slot carries: promoted, SC1, SC3 (R178). -/
def lentChoice (s : State) (sc : Nat) : Option DReq :=
  (firstReq s sc fun r => r.data.isSome && r.promoted).or
    ((firstReq s sc fun r => r.data.isSome && r.cls == 1).or (firstReq s sc fun r => r.data.isSome && r.cls == 3))

/-- Remove a request. -/
def dropReq (sc : Nat) (r : DReq) (s : State) : State :=
  setSub sc { sub s sc with reqs := (sub s sc).reqs.filter fun q => q.arr != r.arr } s

/-! ### Data (R182, R183, R191) -/

/-- A byte string with the bits of a little-endian number flipped. -/
def flipBytes (bs : List Byte) (flips : Nat) : List Byte := leBytes bs.length (leVal bs ^^^ flips)

/-- The stored granule of an address reads as uncorrectable from now on. (DEDUCED: log entry 45.) -/
def spoilGran (a : Nat) (s : State) : State :=
  { s with dram := { s.dram with poison := a / 64 * 64 :: s.dram.poison.filter fun g => g != a / 64 * 64 } }

/-- Write a granule with the errors that the writer's buffer or the crossbar port of quadrant q adds (R191). -/
def writeGran (q a : Nat) (bs : List Byte) (qe : Option QuadErr) (s : State) : State :=
  match qe with
  | some (.xbarParity f) => raise (srcQd q 5) a (spoilGran a (writeDram a (flipBytes bs f) s))
  | some (.wbUncor f) => raise (srcQd q 2) a (writeDram a (flipBytes bs f) s)
  | some .wbCor => raise (srcQd q 1) a (writeDram a bs s)
  | _ => writeDram a bs s

/-- What the check of a granule read finds (R183): a granule that has failed stays failed. (DEDUCED, DESIGN CHOICE: log entries 45 and 78.) -/
def granEcc (a : Nat) (ecc : Ecc) (s : State) : State :=
  let g := a / 64 * 64
  match ecc with
  | .good => s
  | .corrected dev => if s.dram.poison.contains g then s else dramCe g dev s
  | .uncorrectable f => spoilGran g (dramPut g (flipBytes (dramTake s g 64) f) s)

/-- An operation in flight of a sequencer completes; `bad` is a unit error or a poisoned read. During a handler it completes into a hold
register, and TRAPRET delivers it (R304, R307). A DRAM write leaves CSEL 0x10 as it was (R291). -/
def flightDone (q : Nat) (k : Flight) (bad : Bool) (unit err : Nat) (s : State) : State :=
  let x := sq s q
  if x.inTrap.isSome then setSq q { x with hold := x.hold ++ [(k, BitVec.ofNat 64 (b2n bad * (unit * 65536 + err)))] } s
  else
    let s1 := setSq q (match k with
      | .host => { x with hostBusy := false }
      | .mem => { x with memBusy := false, poison := bad }
      | .write => { x with memBusy := false }) s
    if bad then unitTrap q unit err s1 else s1

/-- A sequencer's DRAM read completes into its line buffer, which no handler uses (R294, R307). -/
def deliverSeq (q : Nat) (bs : List Byte) (bad : Bool) (s : State) : State :=
  let words := (List.range 8).map fun i => BitVec.ofNat 64 (leVal ((bs.drop (8 * i)).take 8))
  flightDone q .mem bad (chBase 0 / 0x400) 1 (setSq q { sq s q with lb := words } s)

/-- The granules of a read in order, and `n` bytes at address `a` of them. -/
def readData (d : DRead) : List (List Byte) := d.grans.map fun g => tblGet d.got g []
def readBytes (d : DRead) (a n : Nat) : List Byte := (((readData d).flatten).drop (a % 64)).take n

/-- The input of a job has come. -/
def jobInput (o : Nat) (bs : List Byte) (bad : List Nat) (s : State) : State :=
  { s with jobs := s.jobs.map fun j => if j.origin = o then { j with inbuf := some bs, inbad := bad, waiting := false } else j }

/-- A read of several granules is complete: its data goes to the requester, marked poisoned where a granule or the port failed (R183, R191). An upload delivers a
record as it is read. (DEDUCED: log entry 45.) -/
def readDone (d : DRead) (s : State) : State :=
  match d.by_ with
  | .aperture a n =>
    let s1 := post (.readData (readBytes d a n) (!d.bad.isEmpty)) s
    if d.bad.isEmpty then s1 else setSource (srcPe 13) s1
  | .upload ring st seq a n => uploadRead ring st seq (readBytes d a n) s
  | .job o a n => jobInput o (readBytes d a n) d.bad s
  | .inventory o first e => if (cmd? s o).isSome then invFinish e o first (readBack (keptOp s) first (readData d)) s else s

/-- One granule of a read has come. -/
def partDone (id a : Nat) (bs : List Byte) (bad : Bool) (s : State) : State :=
  match s.dram.reads.find? fun d => d.id == id with
  | none => s
  | some d =>
    let e := { d with left := d.left - 1, got := tblSet d.got (a / 64 * 64) bs, bad := if bad then d.bad ++ [a / 64 * 64] else d.bad }
    if e.left = 0 then readDone e { s with dram := { s.dram with reads := s.dram.reads.filter fun x => x.id != id } }
    else { s with dram := { s.dram with reads := s.dram.reads.map fun x => if x.id = id then e else x } }

/-- A scrub read that found a correctable error queues an SC3 write of the corrected granule, unless another write of the granule has reached the controller since
(R184). -/
def scrubFix (a : Nat) (bs : List Byte) (s : State) : State :=
  let sc := subOf s a
  if (s.dram.rt.any fun g => sameGran g.addr a) || (sub s sc).reqs.any fun q => sameGran q.addr a && q.data.isSome then s
  else addReq a 3 (some bs) .scrubWrite s

/-- The data of a read goes to its requester. -/
def deliverRead (r : DReq) (bs : List Byte) (bad fixed : Bool) (s : State) : State :=
  match r.by_ with
  | .part id => partDone id r.addr bs bad s
  | .seq q => deliverSeq q bs bad s
  | .scrubRead => if fixed && !bad then scrubFix r.addr bs s else s
  | _ => s

/-- Whether an outcome is a corrected error. -/
def isCorrected (ecc : Ecc) : Bool := match ecc with | .corrected _ => true | _ => false

/-- Serve one read. -/
def serveRead (sc : Nat) (r : DReq) (ecc : Ecc) (qe : Option QuadErr) (s : State) : State :=
  let s1 := granEcc r.addr ecc (touch r.addr false (dropReq sc r s))
  let d := readDram r.addr 64 s1
  match qe with
  | some (.xbarParity f) => deliverRead r (flipBytes d.1 f) true (isCorrected ecc) (raise (srcQd (sc / 4) 5) r.addr d.2.2)
  | _ => deliverRead r d.1 d.2.1 (isCorrected ecc) d.2.2

/-- Whether a write has failed: its granule reads as uncorrectable (R191). (DEDUCED: log entry 84.) -/
def writeFailed (qe : Option QuadErr) : Bool := match qe with | some (.xbarParity _) => true | _ => false

/-- A write is done: a sequencer's operation completes, and one copy of a journal entry is written, or has failed (R153, R261). (DEDUCED: log entry 84.) -/
def writeDone (r : DReq) (qe : Option QuadErr) (s : State) : State :=
  match r.by_ with
  | .seq q => flightDone q .write false 0 0 s
  | .journal j => jwritten j (if writeFailed qe then setSource (srcCap 13) s else s)
  | _ => s

/-- The granule that a write leaves: one of fewer than 64 bytes keeps the others. -/
def mergeGran (s : State) (a : Nat) (bs : List Byte) : List Byte :=
  let old := dramTake s (a / 64 * 64) 64
  old.take (a % 64) ++ bs ++ old.drop (a % 64 + bs.length)

/-- Serve one write. -/
def serveWrite (sc : Nat) (r : DReq) (qe : Option QuadErr) (s : State) : State :=
  let s1 := touch r.addr true (dropReq sc r s)
  writeDone r qe (writeGran (sc / 4) (r.addr / 64 * 64) (mergeGran s1 r.addr (r.data.getD [])) qe s1)

/-! ### Trace granules (R360) -/

/-- A TICK entry formed now (R358). -/
def tickEntry (s : State) : W64 := BitVec.ofNat 64 (2 ^ 60 + s.tb.tick % 2 ^ 60)

/-- TRACEWP as an address, and set. -/
def traceWp (s : State) : Nat := (reg s 0x48).toNat + (reg s 0x4C).toNat * 2 ^ 32
def setTraceWp (a : Nat) (s : State) : State := setReg 0x4C (BitVec.ofNat 32 (a / 2 ^ 32)) (setReg 0x48 (BitVec.ofNat 32 a) s)

/-- Whether a granule of 7 trace entries is ready for subchannel sc. -/
def traceReady (s : State) (sc : Nat) : Bool :=
  s.trace.dramEn && decide (7 ≤ s.trace.bufDram.length) && subOf s (traceWp s) == sc && srWrites s sc && canReach s (traceWp s)

/-- Write one trace granule at TRACEWP; at the region's end the pointer wraps, or DRAM trace stops. (DEDUCED: log entry 71.) -/
def traceWrite (s : State) : State :=
  let a := traceWp s
  let es := tickEntry s :: s.trace.bufDram.take 7
  let s1 := writeDram a (es.flatMap fun e => leBytes 8 e.toNat) { s with trace := { s.trace with bufDram := s.trace.bufDram.drop 7 } }
  let top := 4096 * s.trace.base + traceBytes s.trace.sizeLog
  if a + 64 < top then setTraceWp (a + 64) s1
  else if s.trace.wrap then setTraceWp (4096 * s.trace.base) s1
  else setSource 7 (setRf 0x40 30 30 1 (setTraceWp (a + 64) { s1 with trace := { s1.trace with dramEn := false } }))

/-! ### Orbits (R164 to R172) -/

/-- The orbit table in use, and the entry of the slot that comes next. -/
def orbTable (s : State) (sc : Nat) : Nat := if orbOf s sc = 2 then 1 else 0
def slotEntry (s : State) (sc : Nat) : Nat := pOrbit (plan s) sc (orbTable s sc) ((sub s sc).slots % 4096)

/-- Whether the slot that comes next stands in a read window (R166). -/
def readWindow (s : State) (sc : Nat) : Bool :=
  let k := (sub s sc).slots % 4096
  (turnRuns none ((orbitTable (plan s) sc (orbTable s sc)).take k)).length % 2 == 1

/-- At slot 0 of an orbit the subchannel takes the table that HOT and FORCEHOT require; a change raises DCHEVT.HOTCHG (R171). -/
def atBoundary (sc : Nat) (s : State) : State :=
  if orbOf s sc != 0 && (sub s sc).slots % 4096 == 0 then
    let t := if wantsHot s (sc / 2) then 2 else 1
    if t = orbOf s sc then s else setSource (srcDch (sc / 2) 2) (setOrb sc t s)
  else s

/-- The slot is over, and the next one follows without a break (R164). (DEDUCED: log entry 45.) -/
def slotDone (sc : Nat) (s : State) : State := setSub sc { sub s sc with slots := (sub s sc).slots + 1, slotAt := (sub s sc).slotAt + memSlot } s

/-- Run the orbit slot that begins in the slice now, of kind `c`: nothing happens where the table has another action there. -/
def orbitSlot (sc c : Nat) (f : Nat → State → State) (s : State) : State :=
  let s1 := atBoundary sc s
  if subReady s1 sc && orbOf s1 sc != 0 && slotDue s1 sc && oCode (slotEntry s1 sc) == c then slotDone sc (f (oArg (slotEntry s1 sc)) s1) else s

/-- The banks of a bank set of a rank (R163), and all banks of a rank. -/
def setBanks (rank b : Nat) : List Nat := (List.range 8).map fun g => 32 * rank + 4 * g + b
def rankBanks (rank : Nat) : List Nat := (List.range 32).map fun i => 32 * rank + i

/-- Banks are blocked for a time in ps from memory time `t` on, and their rows closed (R168). -/
def blockFrom (sc t ps : Nat) (bs : List Nat) (s : State) : State :=
  bs.foldl (fun z b =>
    let k := dbank (sub z sc) b
    setDbank sc b { k with row := none, blocked := t + memPs z ps } z) s

/-- Banks are blocked from the slot that comes next on. -/
def blockBanks (sc ps : Nat) (bs : List Nat) (s : State) : State := blockFrom sc (sub s sc).slotAt ps bs s

/-- One directed refresh serves the oldest queued row of a bank, and a held row moves into the queue (R175, R176). (DEDUCED: log entry 43.) -/
def serveQueue (sc : Nat) (s : State) (b : Nat) : State :=
  let k := dbank (sub s sc) b
  match k.queue with
  | [] => s
  | _ :: rest =>
    let q := match k.ovf with | some r => rest ++ [r] | none => rest
    count (subCtr sc 9) (setDbank sc b { k with queue := q, ovf := none } s)

/-- A directed refresh of a bank set. (DEDUCED: log entry 43.) -/
def directed (sc rank b : Nat) (s : State) : State :=
  blockBanks sc s.dram.times.tDRFMsb (setBanks rank b) ((setBanks rank b).foldl (serveQueue sc) s)

/-- The first bank whose overflow register holds a row. (DEDUCED: log entry 43.) -/
def overflowed (s : State) (sc : Nat) : Option Nat := ((sub s sc).banks.find? fun p => p.2.ovf.isSome).map fun p => p.1

/-! ### WR (R168, R178) -/

/-- The oldest granule of stream i on the subchannel that this slot can take. -/
def granFor (s : State) (sc i : Nat) : Option Gran :=
  s.dram.rt.find? fun g => g.stream == i && subOf s g.addr == sc && srWrites s sc && canReach s g.addr &&
    !((sub s sc).reqs.any fun r => decide (r.arr < g.arr) && sameGran r.addr g.addr) &&
    !(s.dram.rt.any fun h => decide (h.arr < g.arr) && sameGran h.addr g.addr)

/-- A WR slot of stream i. -/
def wrSlot (sc : Nat) (qe : Option QuadErr) (i : Nat) (s : State) : State :=
  match granFor s sc i with
  | some g =>
    let s1 := { s with dram := { s.dram with rt := s.dram.rt.filter fun h => h.arr != g.arr } }
    count (subCtr sc 0) (writeGran (pStCluster (plan s) i / 4) g.addr g.bytes qe (touch g.addr true s1))
  | none => match lentChoice s sc with
    | some r => count (subCtr sc 2) (serveWrite sc r qe s)
    | none => count (subCtr sc 1) s

/-- WR: an orbit slot of a stream. A COMMIT entry whose records are now in DRAM is committed (R155). (DESIGN CHOICE: log entry 8.) -/
def doWr (sc : Nat) (qe : Option QuadErr) (s : State) : State := tryCommitAll (orbitSlot sc 1 (fun a z => wrSlot sc qe (a % 256) z) s)

/-- The meaning of WR. -/
def execWr (sc : Nat) (qe : Option QuadErr) (s : State) : Out := engineStep s (doWr sc qe s)

/-! ### FREE (R176, R177) -/

/-- A FREE slot of a direction. -/
def freeSlot (sc : Nat) (write : Bool) (ecc : Ecc) (qe : Option QuadErr) (s : State) : State :=
  match overflowed s sc with
  | some b => setSource (srcDch (sc / 2) 3) (count (subCtr sc 10) (directed sc (b / 32) (b % 4) s))
  | none => match freeChoice s sc write with
    | some r =>
      if write then count (subCtr sc 4) (serveWrite sc r qe s) else count (subCtr sc 3) (serveRead sc r ecc qe s)
    | none =>
      if write && traceReady s sc then count (subCtr sc 4) (traceWrite (touch (traceWp s) true s)) else count (subCtr sc 5) s

/-- The direction of a FREE slot under the idle schedule: that of the oldest request, of those whose direction is open (R167, R185). -/
def idleWrite (s : State) (sc : Nat) : Bool := match (sub s sc).reqs.find? (srOpen s sc) with | some r => r.data.isSome | none => true

/-- Slots of the idle schedule begin no earlier than now. -/
def slotNow (sc : Nat) (s : State) : State := setSub sc { sub s sc with slotAt := max (sub s sc).slotAt (memTick s (nowT s)) } s

/-- FREE: in an orbit where its table says so, and every slot of the idle schedule out of self-refresh (R167, R185). A COMMIT entry in the journal may now be committed. -/
def doFree (sc : Nat) (ecc : Ecc) (qe : Option QuadErr) (s : State) : State :=
  if subReady s sc && orbOf s sc == 0 then
    if srWrites s sc && slotDue s sc then
      let s1 := slotNow sc s
      tryCommitAll (slotDone sc (freeSlot sc (idleWrite s1 sc) ecc qe s1))
    else s
  else tryCommitAll (orbitSlot sc 0 (fun _ z => freeSlot sc (!readWindow z sc) ecc qe z) s)

/-- The meaning of FREE. -/
def execFree (sc : Nat) (ecc : Ecc) (qe : Option QuadErr) (s : State) : Out := engineStep s (doFree sc ecc qe s)

/-! ### REF, REFSB, DRFM, TURN -/

/-- REF: an all-bank refresh of the rank. -/
def doRef (sc : Nat) (s : State) : State :=
  orbitSlot sc 2 (fun a z => count (subCtr sc 6) (blockBanks sc z.dram.times.tRFC1 (rankBanks (a % 4)) z)) s

/-- The meaning of REF. -/
def execRef (sc : Nat) (s : State) : Out := engineStep s (doRef sc s)

/-- REFSB: a same-bank refresh. -/
def doRefsb (sc : Nat) (s : State) : State :=
  orbitSlot sc 3 (fun a z => count (subCtr sc 6) (blockBanks sc z.dram.times.tRFCsb (setBanks (a / 4 % 4) (a % 4)) z)) s

/-- The meaning of REFSB. -/
def execRefsb (sc : Nat) (s : State) : Out := engineStep s (doRefsb sc s)

/-- DRFM: one directed refresh for the bank set. (DEDUCED: log entry 43.) -/
def doDrfm (sc : Nat) (s : State) : State := orbitSlot sc 4 (fun a z => directed sc (a / 4 % 4) (a % 4) z) s

/-- The meaning of DRFM. -/
def execDrfm (sc : Nat) (s : State) : Out := engineStep s (doDrfm sc s)

/-- TURN: the slot carries nothing; the direction follows from the slot's place in the table (R166). -/
def doTurn (sc : Nat) (s : State) : State := orbitSlot sc 5 (fun _ z => z) s

/-- The meaning of TURN. -/
def execTurn (sc : Nat) (s : State) : Out := engineStep s (doTurn sc s)

/-- ORBIT_BOUNDARY. -/
def doOrbitBoundary (sc : Nat) (s : State) : State := if subReady s sc then atBoundary sc s else s

/-- The meaning of ORBIT_BOUNDARY. -/
def execOrbitBoundary (sc : Nat) (s : State) : Out := engineStep s (doOrbitBoundary sc s)

/-- The slot that begins in the slice now, with no error, where no command has run it. (DESIGN CHOICE: log entry 8.) -/
def runSlot (sc : Nat) (s : State) : State :=
  if !subReady s sc || !slotDue s sc then s
  else if orbOf s sc = 0 then doFree sc .good none s
  else
    let s1 := atBoundary sc s
    match oCode (slotEntry s1 sc) with
    | 0 => doFree sc .good none s1
    | 1 => doWr sc none s1
    | 2 => doRef sc s1
    | 3 => doRefsb sc s1
    | 4 => doDrfm sc s1
    | _ => slotDone sc s1

/-! ### Refresh rounds (R167) -/

/-- The refresh commands of one round: the time of each after the first in ps, how long it blocks its banks, and the banks: every rank in REF mode, every bank set
of every rank in REFSB mode, those of a rank tREFSBRD apart (R160, R167). (DESIGN CHOICE: log entry 42.) -/
def roundOf (s : State) : List (Nat × Nat × List Nat) :=
  let d := s.dram.times
  let ranks := List.range (rf s (chBase 0) 2 0)
  if rf s (chBase 0) 11 11 = 0 then ranks.map fun r => (0, d.tRFC1, rankBanks r)
  else (List.range 4).flatMap fun b => ranks.map fun r => (b * d.tREFSBRD, d.tRFCsb, setBanks r b)

/-- Order a refresh round from memory time `t` on. -/
def orderRound (sc t : Nat) (s : State) : State :=
  setSub sc { sub s sc with refq := (roundOf s).map fun c => (t + memPs s c.1, c.2.1, c.2.2) } s

/-- Issue the refresh commands whose time has come. -/
def issueRefs (sc : Nat) (s : State) : State :=
  let x := sub s sc
  let due (c : Nat × Nat × List Nat) : Bool := decide (c.1 < memTick s (nowT s + 32))
  (x.refq.filter due).foldl (fun z c => count (subCtr sc 6) (blockFrom sc c.1 c.2.1 c.2.2 z))
    (setSub sc { x with refq := x.refq.filter fun c => !due c } s)

/-! ### The orbits of a capture (R167) -/

/-- When a subchannel can take commands again: now, or tXS after SRX, which follows the minimum residence in self-refresh (R185). -/
def readyTick (s : State) (x : SubCh) : Nat :=
  let d := psTicks s.dram.times.tXS
  match x.sr with
  | .awake => nowT s
  | .entering _ => nowT s
  | .asleep t => max (nowT s) (t + 7680) + d
  | .waking t => max (nowT s) (t + d)

/-- Self-refresh as the engine's arm leaves it: an entry not yet made is given up, and sleep ends. -/
def wakeSr (s : State) (x : SubCh) : SrState :=
  match x.sr with
  | .awake => .awake
  | .entering _ => .awake
  | .asleep t => .waking (max (nowT s) (t + 7680))
  | .waking t => .waking t

/-- The engine's arm: one refresh round, then slot 0 of the first orbit, with the LFSR at its seed (R167, R174). (DESIGN CHOICE: log entry 42.) -/
def startOrbit (s : State) (sc : Nat) : State :=
  let x := sub s sc
  let t := max x.slotAt (memTick s (readyTick s x))
  let span := ((roundOf s).getLast?.map fun c => c.1).getD 0
  let s1 := orderRound sc t (setSub sc { x with slots := 0, slotAt := t + memPs s span, ppd := false, sr := wakeSr s x,
                                                lfsr := reg s (chBase (sc / 2) + 0x14) } s)
  issueRefs sc (setOrb sc (if wantsHot s (sc / 2) then 2 else 1) s1)

def startOrbits (s : State) : State := (List.range (subCount s)).foldl startOrbit s

/-! ### Thermal reads, idle refresh, promotion -/

/-- DIMM_THERMAL_READ: HOT above 85 °C, clear at or below 83 °C (R171). -/
def doDimmThermal (ch : Nat) (temp16 : Int) (s : State) : State :=
  if ch < chCount s ∧ chState s ch ≠ 0 then
    let o := chBase ch
    let s1 := setReg (o + 0xC) (BitVec.ofNat 32 (toField 16 temp16)) s
    if 1360 < temp16 then setRf (o + 4) 21 21 1 s1 else if temp16 ≤ 1328 then setRf (o + 4) 21 21 0 s1 else s1
  else s

/-- The meaning of DIMM_THERMAL_READ. -/
def execDimmThermalRead (ch : Nat) (temp16 : Int) (s : State) : Out := engineStep s (doDimmThermal ch temp16 s)

/-- The agreement rule of DREFCFG (R189). -/
def refAgrees (v : W32) : Bool :=
  decide (1000 ≤ fld v 15 0) && decide (fld v 15 0 ≤ 3900) && (fld v 16 16 == 0 || decide (fld v 15 0 ≤ 1950))

/-- A COMMIT that finds disagreement (R189, R349). -/
def refDisagrees (ch : Nat) (s : State) : State := cfgLog 2 (chBase ch + 0x24) (setSource (srcDch ch 5) s)

/-- Judge waiting COMMITs in order until one agrees: it stands first in the list (R348). -/
def judgeCommits (ch : Nat) (vs : List W32) (s : State) : State :=
  match vs with
  | [] => { s with dram := { s.dram with refPend := tblSet s.dram.refPend ch [] } }
  | v :: rest =>
    if refAgrees v then { s with dram := { s.dram with refPend := tblSet s.dram.refPend ch (v :: rest) } }
    else judgeCommits ch rest (refDisagrees ch s)

/-- A COMMIT takes effect at an idle-schedule refresh; one that waited for it is judged then (R347, R348). (DEDUCED: log entry 25.) -/
def applyCommit (ch : Nat) (s : State) : State :=
  match tblGet s.dram.refPend ch [] with
  | [] => s
  | v :: rest => judgeCommits ch rest { s with dram := { s.dram with refIn := tblSet s.dram.refIn ch v } }

/-- The interval of idle refresh in ticks: DREFCFG.TREFI ns, and half of it while HOT or FORCEHOT is 1 (R167) or under R374. -/
def refInterval (s : State) (sc : Nat) : Nat :=
  let t := fld (refInForce s (sc / 2)) 15 0 * 256 / 5
  if wantsHot s (sc / 2) || (sub s sc).dbl then t / 2 else t

/-- IDLE_SCHEDULE_REFRESH: once its interval has passed, a round of refresh commands begins (R167). -/
def doIdleRefresh (sc : Nat) (s : State) : State :=
  let x := sub s sc
  if subReady s sc && orbOf s sc == 0 && srWrites s sc && decide (x.refAt < nowT s + 32) then
    issueRefs sc (orderRound sc (max x.slotAt (memTick s (nowT s)))
      (applyCommit (sc / 2) (setSub sc { x with refAt := max x.refAt (nowT s) + refInterval s sc } s)))
  else s

/-- The meaning of IDLE_SCHEDULE_REFRESH. -/
def execIdleScheduleRefresh (sc : Nat) (s : State) : Out := engineStep s (doIdleRefresh sc s)

/-- AGE_PROMO: requests that have waited longer than AGE µs are promoted (R179). -/
def doAgePromo (sc : Nat) (s : State) : State :=
  if sc < subCount s then
    let limit := rf s (chBase (sc / 2) + 0x18) 6 0 * usTicks
    let old (r : DReq) : Bool := !r.promoted && decide (r.at_ + limit < nowT s)
    let x := sub s sc
    let n := (x.reqs.filter old).length
    countN n (subCtr sc 11) (setSub sc { x with reqs := x.reqs.map fun r => if old r then { r with promoted := true } else r } s)
  else s

/-- The meaning of AGE_PROMO. -/
def execAgePromo (sc : Nat) (s : State) : Out := engineStep s (doAgePromo sc s)

/-! ### Self-refresh and power-down (R185, R186, R365) -/

/-- Set the self-refresh state of a subchannel. -/
def setSrState (sc : Nat) (v : SrState) (s : State) : State := setSub sc { sub s sc with sr := v } s

/-- The entry condition of self-refresh is met (R185). -/
def enterSr (sc : Nat) (s : State) : State :=
  match (sub s sc).sr with
  | .awake => setSrState sc (.entering (nowT s)) s
  | _ => s

/-- The idle time after which a subchannel enters self-refresh: 1 µs in PS2 and PS3, DSRCTL.IDLE where it is enabled. (DESIGN CHOICE: log entry 57.) -/
def srIdleTicks (s : State) (sc : Nat) : Option Nat :=
  if 2 ≤ pwrState s then some usTicks
  else if rf s (chBase (sc / 2) + 0x1C) 31 31 = 1 then some (rf s (chBase (sc / 2) + 0x1C) 15 0 * usTicks)
  else none

/-- SR_IDLE: no request waits, and none has come for the idle time, with no capture running (R185). -/
def doSrIdle (sc : Nat) (s : State) : State :=
  if subReady s sc && orbOf s sc == 0 && !capRunning s && (sub s sc).sr == .awake && (sub s sc).reqs.isEmpty then
    match srIdleTicks s sc with
    | none => s
    | some t => if (sub s sc).lastReq + t ≤ nowT s then enterSr sc s else s
  else s

/-- The meaning of SR_IDLE. -/
def execSrIdle (sc : Nat) (s : State) : Out := engineStep s (doSrIdle sc s)

/-- The ticks from the entry condition to SRE on the command bus, and to the end of entry and minimum residence: 50 and 150 ns (R185). (DESIGN CHOICE: log entry 57.) -/
def sreTicks : Nat := 2560
def residenceTicks : Nat := 7680

/-- SRE: rows are closed, DCHSTAT.SR is set (R185). -/
def issueSre (sc t : Nat) (s : State) : State :=
  let s1 := closeRows sc s
  count (subCtr sc 14) (setSr sc 1 (setSub sc { sub s1 sc with ppd := false, sr := .asleep t } s1))

/-- SRX: the sampling LFSR starts again from its seed (R174, R185). -/
def issueSrx (sc : Nat) (s : State) : State :=
  setSub sc { sub s sc with lfsr := reg s (chBase (sc / 2) + 0x14), sr := .waking (nowT s) } s

/-- SELF_REFRESH_EXIT: for a request that waits, once entry and minimum residence are complete (R185, R186). -/
def doSrExit (sc : Nat) (s : State) : State :=
  match (sub s sc).sr with
  | .asleep t => if decide (sc < subCount s) && !(sub s sc).reqs.isEmpty && decide (t + residenceTicks ≤ nowT s) then issueSrx sc s else s
  | _ => s

/-- The meaning of SELF_REFRESH_EXIT. -/
def execSelfRefreshExit (sc : Nat) (s : State) : Out := engineStep s (doSrExit sc s)

/-- A subchannel is ordered out of self-refresh: an entry not yet made is given up; SRX follows the minimum residence (R185). -/
def orderSrx (sc : Nat) (s : State) : State :=
  let x := sub s sc
  match x.sr with
  | .asleep _ => setSub sc { x with lfsr := reg s (chBase (sc / 2) + 0x14), sr := wakeSr s x } s
  | _ => setSub sc { x with sr := wakeSr s x } s

/-- tXS_DLL after SRX the subchannel is out of self-refresh (R185). -/
def leaveSr (sc : Nat) (s : State) : State :=
  setSub sc { sub s sc with sr := .awake, lastReq := nowT s, refAt := nowT s } (setSr sc 0 s)

/-- What the time brings to the self-refresh of a subchannel (R185). -/
def srTime (sc : Nat) (s : State) : State :=
  match (sub s sc).sr with
  | .awake => doSrIdle sc s
  | .entering t => if t + sreTicks ≤ nowT s then issueSre sc t s else s
  | .asleep _ => doSrExit sc s
  | .waking t => if t + psTicks s.dram.times.tXSDLL ≤ nowT s then leaveSr sc s else s

/-- PRECHARGE_POWER_DOWN: in PS1, at an idle interval (R365). -/
def doPpd (sc : Nat) (s : State) : State :=
  if subReady s sc && orbOf s sc == 0 && (sub s sc).sr == .awake && pwrState s == 1 && (sub s sc).reqs.isEmpty then
    setSub sc { sub (closeRows sc s) sc with ppd := true } (closeRows sc s)
  else s

/-- The meaning of PRECHARGE_POWER_DOWN. -/
def execPrechargePowerDown (sc : Nat) (s : State) : Out := engineStep s (doPpd sc s)

/-! ### Population (R159 to R161) -/

/-- Bytes of the population descriptor that are reserved (R160). (DEDUCED: log entry 59.) -/
def popReserved : List Nat := [17, 18, 19] ++ (List.range 12).map fun i => 84 + i

/-- Whether a descriptor is refused (R161). (DEDUCED: log entry 59.) -/
def popBad (d : Image) : Bool :=
  let rate := imLE d 0 2
  let dtype := imLE d 2 1
  let ranks := imLE d 3 1
  let dens := imLE d 4 1
  !([4800, 5600, 6400, 7200, 8000, 8800].contains rate) || !([1, 2].contains dtype) || !([1, 2, 4].contains ranks) ||
    !([1, 2].contains dens) || decide (1 < imLE d 5 1) || decide (2 < imLE d 6 1) ||
    decide (imLE d 7 1 < 8) || decide (12 < imLE d 7 1) || imLE d 8 4 == 0 ||
    imLE d 12 2 == 0 || decide (64 < imLE d 12 2) || imLE d 14 2 == 0 || decide (1 < imLE d 16 1) ||
    popReserved.any (fun o => imLE d o 1 != 0) ||
    decide (4 < ranks * dens) || (dtype == 1 && rate == 8800) || (dtype == 2 && !(decide (8000 ≤ rate) && decide (2 ≤ ranks))) ||
    decide (imLE d 60 4 < imLE d 56 4) || decide (1000000 < imLE d 60 4)

/-- The timings of a descriptor. -/
def popTimes (d : Image) : PopTimes :=
  { cl := imLE d 20 2, cwl := imLE d 22 2, tRCD := imLE d 24 4, tRP := imLE d 28 4, tRFC1 := imLE d 32 4, tRFCsb := imLE d 36 4,
    tDRFMsb := imLE d 40 4, tREFSBRD := imLE d 44 4, tWR2RD := imLE d 48 4, tRD2WR := imLE d 52 4, tXS := imLE d 56 4,
    tXSDLL := imLE d 60 4, tRAS := imLE d 64 4, tWR := imLE d 68 4, tRRDL := imLE d 72 4, tRRDS := imLE d 76 4, tFAW := imLE d 80 4,
    rcdcw := (imSlice d 96 32).bytes }

/-- DCHSTAT.STATE of a channel. -/
def setChState (v ch : Nat) (s : State) : State := setRf (chBase ch + 4) 31 28 v s

/-- Every channel is in one of these states. -/
def allIn (s : State) (vs : List Nat) : Bool := (List.range (chCount s)).all fun ch => vs.contains (chState s ch)

/-- The registers that a descriptor sets in a channel (R161). -/
def popChannel (d : Image) (s : State) (ch : Nat) : State :=
  let o := chBase ch
  let cfg := imLE d 0 2 * 2 ^ 16 + imLE d 6 1 * 2 ^ 12 + imLE d 5 1 * 2 ^ 11 + imLE d 4 1 * 2 ^ 9 + (imLE d 2 1 - 1) * 2 ^ 8 + imLE d 3 1
  setChState 1 ch
    (setReg o (BitVec.ofNat 32 cfg)
      (setReg (o + 0x10) (BitVec.ofNat 32 (imLE d 7 1))
        (setReg (o + 0x14) (BitVec.ofNat 32 (imLE d 8 4))
          (setReg (o + 0x18) (BitVec.ofNat 32 (imLE d 12 2))
            (setReg (o + 0x1C) (BitVec.ofNat 32 (imLE d 16 1 * 2 ^ 31 + imLE d 14 2)) s)))))

/-- POPULATION_SET takes effect. -/
def runPopulation (d : Image) (o : Nat) (s : State) : State :=
  let s1 := (List.range (chCount s)).foldl (popChannel d) s
  finishCmd o stDone 0 0 0 { s1 with dram := { s1.dram with times := popTimes d } }

/-- The refusals of POPULATION_SET: the channel states, then the descriptor that the host read returned. -/
def popBusy (e : Entry) (d : HostRead) (s : State) : Option Refuse :=
  if pn e.p1 = 0 then none
  else if !allIn s [0, 1, 4] then some (plainRefuse stBusy)
  else match d with
    | .data im => if popBad im then some (plainRefuse stBadParam) else none
    | _ => none

/-- The row of POPULATION_SET. -/
def populationRow (e : Entry) (d : HostRead) : CmdRow :=
  { baseRow opPopulationSet with
    bad := fun _ => pn e.p1 != 0 && pn e.p1 != 128,
    zero := pn e.p1 == 0,
    busy := popBusy e d,
    run := withHostData d runPopulation }

/-- POPULATION_SET reads the descriptor. -/
def doPopulationSet (r : Nat) (e : Entry) : State → State :=
  submitRead r opPopulationSet e (pn e.p0) (pn e.p1) (populationRow e)

/-- The meaning of POPULATION_SET. -/
def execPopulationSet (r : Nat) (e : Entry) (s : State) : Out := engineStep s (doPopulationSet r e s)

/-! ### Training (R187, R401) -/

/-- DRAM_TRAIN starts. (DEDUCED: log entry 46.) -/
def runDramTrain (o : Nat) (s : State) : State :=
  let s1 := (List.range (chCount s)).foldl (fun z ch => setChState 2 ch z) s
  setRf 0x60100 31 30 2 { s1 with dram := { s1.dram with trainOrigin := some o } }

/-- DRAM_TRAIN: the lead MSQ and its helpers (R286, R287). -/
def doDramTrain (r : Nat) (e : Entry) : State → State :=
  submit r opDramTrain e { baseRow opDramTrain with
    homes := [8],
    busy := busyIf fun s => !allIn s [1, 4] || (openOp s opMarchRun).isSome || (List.range (quads s)).any fun d => sqStopped s (8 + 6 * d),
    run := runDramTrain }

/-- The meaning of DRAM_TRAIN. -/
def execDramTrain (r : Nat) (e : Entry) (s : State) : Out := engineStep s (doDramTrain r e s)

/-- The hold's entries, oldest first. -/
def holdOrder (j : Journal) : List JEntry :=
  ((j.entries.map fun p => p.2).reverse)

/-- Both copies are written with zeros, then with the hold's entries, and the journal is in force (R401). -/
def journalInForce (s : State) : State :=
  let a := journalBase s
  let es := holdOrder s.jr
  let clear := { s with dram := { s.dram with mem := s.dram.mem.filter fun c => !(decide (a ≤ c.1) && decide (c.1 < a + 2 ^ 29)),
                                              poison := s.dram.poison.filter fun g => !(decide (a ≤ g) && decide (g < a + 2 ^ 29)) } }
  let num := es.zip (List.range es.length)
  let mem := num.foldl (fun m p => memPut (memPut m (a + 64 * p.2) (jentryBytes p.1)) (a + 2 ^ 28 + 64 * p.2) (jentryBytes p.1)) clear.dram.mem
  { clear with dram := { clear.dram with mem := mem },
               jr := { s.jr with inForce := true, pos := es.length, entries := (num.map fun p => (p.2, p.1)).reverse } }

/-- DRAM_TRAIN_END. (DEDUCED, DESIGN CHOICE: log entries 10 and 46.) -/
def doDramTrainEnd (ready : BitVec 8) (bad : List MarchFail) (s : State) : State :=
  match s.dram.trainOrigin with
  | none => s
  | some o =>
    let chs := List.range (chCount s)
    let failed := chs.filter fun ch => !ready.getLsbD ch
    let s1 := chs.foldl (fun z ch => setChState (if ready.getLsbD ch then 3 else 4) ch z)
      (trainMarch bad { s with dram := { s.dram with trainOrigin := none } })
    let s2 := failed.foldl (fun z ch => raise (srcDch ch 4) 0 z) s1
    let s3 := if failed.isEmpty then journalInForce s2 else s2
    let aborted := match cmd? s3 o with | some c => c.abort | none => false
    finishLong o (if aborted then stAborted else if failed.isEmpty then stDone else stCheckFail) (BitVec.ofNat 64 (maskOfList failed)) 0 0 s3

/-- The meaning of DRAM_TRAIN_END. -/
def execDramTrainEnd (ready : BitVec 8) (bad : List MarchFail) (s : State) : Out := engineStep s (doDramTrainEnd ready bad s)

/-! ### DCOMMIT (R189, R347 to R349) -/

/-- A COMMIT of the DREFCFG fields, after the key was consumed. -/
def commitRef (ch : Nat) (v : W32) (s : State) : State :=
  if !bit v.toNat 0 then s
  else if armed s || admitting s then cfgLog 3 (chBase ch + 0x24) (setSource (srcDch ch 5) (busError 6 0 (chBase ch + 0x24) s))
  else
    let staged := reg s (chBase ch + 0x20)
    match tblGet s.dram.refPend ch [] with
    | [] => judgeCommits ch [staged] s
    | vs => { s with dram := { s.dram with refPend := tblSet s.dram.refPend ch (vs ++ [staged]) } }

/-- DCOMMIT. (DEDUCED: log entry 25.) -/
def writeDcommit (m : Master) (ch : Nat) (v : W32) (s : State) : State :=
  if ch < chCount s then guarded m .mem (chBase ch + 0x24) (commitRef ch v) s
  else busError 1 0 (chBase ch + 0x24) s

/-- The meaning of DCOMMIT. -/
def execDcommit (m : Master) (ch : Nat) (v : W32) (s : State) : Out := engineStep s (masterMem m (writeDcommit m ch v) s)

/-! ### Patrol scrub (R184) -/

/-- SCRUB_SET sets the range and the period of the channels it names. (DEDUCED: log entry 59.) -/
def scrubChannel (e : Entry) (s : State) (ch : Nat) : State :=
  let o := chBase ch
  let s1 := setReg (o + 0x28) (BitVec.ofNat 32 (pf e.p3 8 8 * 2 ^ 31 + pf e.p3 7 0))
    (setReg (o + 0x2C) (BitVec.ofNat 32 (pn e.p1)) (setReg (o + 0x30) (BitVec.ofNat 32 (pn e.p2)) s))
  [2 * ch, 2 * ch + 1].foldl (fun z sc => setSub sc { sub z sc with scrubAt := 4096 * pn e.p1, scrubDue := nowT z } z) s1

/-- SCRUB_SET. (DEDUCED: log entry 59.) -/
def doScrubSet (r : Nat) (e : Entry) : State → State :=
  submit r opScrubSet e { baseRow opScrubSet with
    bad := fun s => (pf e.p3 8 8 == 1 && (decide (pn e.p2 ≤ pn e.p1) || pf e.p3 7 0 == 0)) || decide (2 ^ chCount s ≤ pn e.p0),
    run := fun o s => finishCmd o stDone 0 0 0 ((numsWhere (chCount s) (bit (pn e.p0))).foldl (scrubChannel e) s) }

/-- The meaning of SCRUB_SET. -/
def execScrubSet (r : Nat) (e : Entry) (s : State) : Out := engineStep s (doScrubSet r e s)

/-- The first granule of subchannel sc at or after device address a (R162). -/
def nextGran (s : State) (sc a : Nat) : Option Nat :=
  let n := subCount s
  let base := journalBase s
  let from_ (lo : Nat) : Option Nat := ((List.range n).map fun i => 64 * (ceilDiv lo 64 + i)).find? fun g => decide (g < topAddr s) && subOf s g == sc
  (from_ a).or ((from_ (max a base)).or (from_ (max a (base + 2 ^ 28))))

/-- The granule that patrol scrub of subchannel sc reads next: it goes round its range. -/
def scrubNext (s : State) (sc : Nat) : Option Nat :=
  let o := chBase (sc / 2)
  let lo := 4096 * rf s (o + 0x2C) 27 0
  let hi := 4096 * rf s (o + 0x30) 27 0
  let inRange (g : Option Nat) : Option Nat := match g with | some a => if a < hi then some a else none | none => none
  (inRange (nextGran s sc (max lo (sub s sc).scrubAt))).or (inRange (nextGran s sc lo))

/-- The granules of subchannel sc in units [lo, hi) of 4 KiB: a share of the interleaved area, and of its own journal copy (R162). -/
def gransIn (s : State) (sc lo hi : Nat) : Nat :=
  let n := subCount s
  let j := journalBase s / 4096
  let c := j + (if sc < n / 2 then 0 else 65536)
  let meet (a b : Nat) : Nat := min hi b - max lo a
  64 / n * meet 0 j + 128 / n * meet c (c + 65536)

/-- The ticks between two scrub reads of a subchannel, with a full pass in PERIOD hours (R184). (DESIGN CHOICE: log entry 44.) -/
def scrubGap (s : State) (sc : Nat) : Nat :=
  let o := chBase (sc / 2)
  rf s (o + 0x28) 7 0 * 3600000000 * usTicks / max 1 (gransIn s sc (rf s (o + 0x2C) 27 0) (rf s (o + 0x30) 27 0))

/-- PATROL_SCRUB: the scrub read that is due is an SC3 request; scrub pauses in self-refresh (R184). (DESIGN CHOICE: log entry 44.) -/
def doPatrolScrub (sc : Nat) (s : State) : State :=
  let x := sub s sc
  if subReady s sc && rf s (chBase (sc / 2) + 0x28) 31 31 == 1 && x.sr == .awake && decide (pwrState s < 2) && decide (x.scrubDue < nowT s + 32) then
    match scrubNext s sc with
    | none => s
    | some a => addReq a 3 none .scrubRead (setSub sc { x with scrubAt := a + 64, scrubDue := max x.scrubDue (nowT s) + scrubGap s sc } s)
  else s

/-- The meaning of PATROL_SCRUB. -/
def execPatrolScrub (sc : Nat) (s : State) : Out := engineStep s (doPatrolScrub sc s)

/-! ### What the time brings to the memory -/

/-- One subchannel in the slice that passes: promotion, self-refresh, idle refresh, refresh commands ordered, patrol scrub, and the slot that begins in it. -/
def subTime (sc : Nat) (s : State) : State :=
  if subReady s sc then
    runSlot sc (doPatrolScrub sc (issueRefs sc (doIdleRefresh sc (srTime sc (doAgePromo sc s)))))
  else s

/-- The memory in the slice that passes (R13, R164 to R186). -/
def dramTime (s : State) : State := (List.range (subCount s)).foldl (fun z sc => subTime sc z) (cellsIn s)

end Sys2Proof.Machine
end

