-- ==== Sys2Proof/Machine/Links.lean ====
section
/-! DEFINITION. Probe links: LANE_SET, LINK_TRAIN, training, frames, faults and the control mailbox (R34 to R63, R404). -/

namespace Sys2Proof.Machine

/-! ### LANE_SET (R251, R252, R58, R404) -/

/-- The lanes of two mask parameters. -/
def maskLanes (e : Entry) : List Nat := numsWhere 128 fun n => bit (pn e.p0 + pn e.p1 * 2 ^ 64) n

/-- The sequencers of the clusters of lanes (R286). -/
def clqsOf (ls : List Nat) : List Nat := (numsWhere 16 fun c => ls.any fun n => n / 8 == c).map fun c => 4 + 6 * (c / 4) + c % 4

/-- The parameter refusals of LANE_SET. -/
def laneSetBad (e : Entry) (s : State) : Bool :=
  let ls := maskLanes e
  let cfg := BitVec.ofNat 32 (pf e.p2 31 0)
  let desc := BitVec.ofNat 32 (pf e.p2 63 32)
  (ls.any fun n => decide (laneCount s ≤ n)) || cfg &&& 0xFFFFEF00#32 != 0 || desc &&& 0x00070000#32 != 0 ||
    (!ls.isEmpty && !fmtAgrees cfg desc)

/-- LANE_SET on one lane. (DEDUCED: log entry 25.) -/
def laneSetOne (e : Entry) (n : Nat) (s : State) : State :=
  let s1 := setReg (laneBase n) (BitVec.ofNat 32 (pf e.p2 31 0)) (setReg (laneBase n + 4) (BitVec.ofNat 32 (pf e.p2 63 32)) s)
  takeFormat n (setLaneEn n (bit (pn e.p3) 0) s1)

/-- The effect of LANE_SET. -/
def runLaneSet (e : Entry) (o : Nat) (s : State) : State := finishCmd o stDone 0 0 0 ((maskLanes e).foldl (fun t n => laneSetOne e n t) s)

/-- LANE_SET. -/
def doLaneSet (r : Nat) (e : Entry) : State → State :=
  submit r opLaneSet e { baseRow opLaneSet with
    homes := 4 :: clqsOf (maskLanes e),
    bad := laneSetBad e,
    busy := busyIf fun s => armed s || (maskLanes e).any (inTraining s),
    zero := (maskLanes e).isEmpty,
    run := runLaneSet e }

/-- The meaning of LANE_SET. -/
def execLaneSet (r : Nat) (e : Entry) (s : State) : Out := engineStep s (doLaneSet r e s)

/-! ### LINK_TRAIN (R43, R45, R46, R379) -/

/-- The cascade lanes of a mask parameter, as lanes 128 to 131. -/
def maskCascade (e : Entry) : List Nat := (numsWhere 4 fun j => bit (pn e.p2) j).map fun j => 128 + j

/-- The parameter refusals of LINK_TRAIN (R43, R63). -/
def linkTrainBad (e : Entry) (s : State) : Bool :=
  ((maskLanes e).any fun n =>
    decide (laneCount s ≤ n) || !lnEn s n || lnNch s n == 0 || !bit (lnFmtMask s n) (lnFmt s n) ||
      decide (lnNch s n < fmtN (lnFmt s n)) || lnLatClass s n == 3) ||
    ((maskCascade e).any fun n => !lnEn s n || lnLatClass s n == 3)

/-- The state refusal of LINK_TRAIN (R46). -/
def linkTrainBusy (e : Entry) (s : State) : Bool :=
  armed s && (maskLanes e).any fun n => pUsed (plan s) n && (laneState s n == lnRun || laneState s n == lnResume)

/-- The waves in order; the cascade lanes train with quadrant 0 (R45, R379). (DEDUCED: log entry 26.) -/
def wavesOf (e : Entry) : List (List Nat) :=
  let q (k : Nat) : List Nat := (maskLanes e).filter fun n => n / 32 == k
  [q 0 ++ maskCascade e, q 1, q 2, q 3].filter fun w => !w.isEmpty

/-- Start the next wave (R45). -/
def startWave (o : Nat) (waves : List (List Nat)) (failed : List Nat) (s : State) : State :=
  match waves with
  | [] => { s with train := none }
  | w :: rest =>
    let s1 := { s with train := some { origin := o, waves := rest, cur := w, failed := failed } }
    w.foldl (fun t n => beginTraining n lnSigdet false t) s1

/-- LINK_TRAIN. -/
def doLinkTrain (r : Nat) (e : Entry) : State → State :=
  submit r opLinkTrain e { baseRow opLinkTrain with
    homes := 4 :: clqsOf (maskLanes e),
    bad := linkTrainBad e,
    busy := busyIf (linkTrainBusy e),
    zero := (maskLanes e).isEmpty && (maskCascade e).isEmpty,
    run := fun o => startWave o (wavesOf e) [] }

/-- The meaning of LINK_TRAIN. -/
def execLinkTrain (r : Nat) (e : Entry) (s : State) : Out := engineStep s (doLinkTrain r e s)

/-- A bitmap of lanes from `lo` upward. -/
def laneBitmap (ls : List Nat) (lo n : Nat) : W64 :=
  BitVec.ofNat 64 (maskOfList ((ls.filter fun x => decide (lo ≤ x) && decide (x < lo + n)).map fun x => x - lo))

/-- Every lane of the wave has left training: commit its FAILED lanes, then train the next wave or end (R45, R402). (DEDUCED: log entry 26.) -/
def doWaveEnd (s : State) : State :=
  match s.train with
  | none => s
  | some t =>
    if t.cur.any (inTraining s) then s
    else
      let failed := t.failed ++ t.cur.filter fun n => laneState s n == lnFailed
      let x0 := laneBitmap failed 0 64
      let x1 := laneBitmap failed 64 64
      let x2 := laneBitmap failed 128 4
      let abort := match cmd? s t.origin with | some c => c.abort | none => false
      if abort then finishLong t.origin stAborted x0 x1 x2 { s with train := none }
      else if t.waves.isEmpty then finishLong t.origin stDone x0 x1 x2 { s with train := none }
      else startWave t.origin t.waves failed (commitWord t.origin x0 x1 x2 s)

/-- The meaning of WAVE_END. -/
def execWaveEnd (s : State) : Out := engineStep s (doWaveEnd s)

/-! ### Training (R44, R53) -/

/-- TRAINING_STATE_EXIT: the lane meets the exit condition of its state before its timeout. FECLOCK needs FEC lock, the ECHO state its 64
replies, and CONFIRM the accepted ACK and the matching MARK. (DESIGN CHOICE: log entry 1.) -/
def doTrainingStateExit (n : Nat) (s : State) : State :=
  let st := laneState s n
  let x := lane s n
  if !linkPresent s n || trainingLate s n then s
  else if st = lnFeclock then (if seeksLock s n then s else enterState n lnTxeq s)
  else if 1 ≤ st ∧ st ≤ 5 then enterState n (st + 1) s
  else if st = lnEcho then (if x.echoes = 64 then finishEcho n s else s)
  else if st = lnConfirm then
    if x.ackOk && x.markOk then (if x.retrain then enterState n lnEcho s else enterRun n s) else s
  else s

/-- The meaning of TRAINING_STATE_EXIT. -/
def execTrainingStateExit (lane : Nat) (s : State) : Out := engineStep s (doTrainingStateExit lane s)

/-- TRAINING_TIMEOUT: the timeout of the state, or the 60 ms of the sequence, has run out (R44). -/
def doTrainingTimeout (n : Nat) (s : State) : State :=
  if linkPresent s n && inTraining s n && trainingLate s n then
    trainFail n (if laneState s n = lnConfirm then 8 else laneState s n) s
  else s

/-- The meaning of TRAINING_TIMEOUT. -/
def execTrainingTimeout (lane : Nat) (s : State) : Out := engineStep s (doTrainingTimeout lane s)

/-- TRAINING_LOSS_OF_LOCK (R44). -/
def doTrainingLossOfLock (n : Nat) (s : State) : State :=
  if linkPresent s n && afterCdr s n then loseTraining n s else s

/-- The meaning of TRAINING_LOSS_OF_LOCK. -/
def execTrainingLossOfLock (lane : Nat) (s : State) : Out := engineStep s (doTrainingLossOfLock lane s)

/-! ### Received frames -/

/-- SAMPLE (R52): used in RUN, followed in a repeat of ECHO or CONFIRM. In a fast resume the first good SAMPLE frame is the row RESUMED. -/
def doSample (n : Nat) (f : RxFrame) (s : State) : State :=
  if frType f != tySample then s
  else withFrame n f (fun s =>
    if laneState s n = lnResume then s
    else
      let s1 := goodFrame n f s
      if laneState s n = lnRun then takeFrame n f s1
      else if laneState s n = lnEcho ∨ laneState s n = lnConfirm then followFrame n f s1
      else s1) s

/-- The meaning of SAMPLE. -/
def execSample (lane : Nat) (f : RxFrame) (s : State) : Out := engineStep s (doSample lane f s)

/-- The index a MARK must carry: the SEQ of its header tells how many SAMPLE frames are missing before the next one (R35, R52). -/
def expectedPos (s : State) (n seq : Nat) : Nat := (lane s n).nextPos + missingBefore (lane s n) seq * framePos s n

/-- A MARK places the frames that follow it: `pos` is the position of the first word of the next SAMPLE frame. -/
def placeAt (n pos seq : Nat) (s : State) : State :=
  setLane n { lane s n with nextPos := pos, lastSeq := some ((seq + 4095) % 4096), placed := true } s

/-- A MARK whose index differs from the one expected takes the lane to DOWN (R52). -/
def indexError (n : Nat) (s : State) : State := raise (srcLane n 3) 9 (leaveRun n lnDown 9 (count (laneCtr n 14) s))

/-- A MARK carries the 48-bit index of the next SAMPLE frame, the active format and k (R37). It is compared with the index expected where
the lane has its place, gives the place in CONFIRM and in a fast resume, and in CONFIRM tells whether the formats match (R44, R52, R54). -/
def useMark (n : Nat) (f : RxFrame) (s : State) : State :=
  let s1 := goodFrame n f s
  let st := laneState s n
  let index := memLE f.payload 0 6
  let x := lane s1 n
  if st = lnRun ∨ (st = lnEcho ∧ x.placed) then
    if expectedPos s1 n (frSeq f) % 2 ^ 48 = index then s1 else indexError n s1
  else if st = lnResume then
    placeAt n (x.nextPos + (index + 2 ^ 48 - x.nextPos % 2 ^ 48) % 2 ^ 48) (frSeq f) (countN (missingBefore x (frSeq f)) (laneCtr n 5) s1)
  else if st = lnEcho then placeAt n index (frSeq f) s1
  else if st = lnConfirm then
    let s2 := placeAt n index (frSeq f) s1
    if (memGet f.payload 6).toNat = lnAfmt s n ∧ (memGet f.payload 7).toNat = lnAdiv s n then setLane n { lane s2 n with markOk := true } s2 else s2
  else s1

/-- MARK_FRAME (R44, R52, R54). (DEDUCED: log entry 27.) -/
def doMarkFrame (n : Nat) (f : RxFrame) (s : State) : State :=
  if frType f != tyMark || decide (128 ≤ n) then s else withFrame n f (useMark n f) s

/-- The meaning of MARK_FRAME. -/
def execMarkFrame (lane : Nat) (f : RxFrame) (s : State) : Out := engineStep s (doMarkFrame lane f s)

/-- IDLE_FRAME: only its header is used (R36). -/
def doIdleFrame (n : Nat) (f : RxFrame) (s : State) : State :=
  if frType f != tyIdle then s else withFrame n f (goodFrame n f) s

/-- The meaning of IDLE_FRAME. -/
def execIdleFrame (lane : Nat) (f : RxFrame) (s : State) : Out := engineStep s (doIdleFrame lane f s)

/-- RESERVED_TYPE_FRAME: discarded and counted (R36). (DEDUCED: log entry 27.) -/
def doReservedTypeFrame (n : Nat) (f : RxFrame) (s : State) : State :=
  if frType f < 5 then s else withFrame n f (fun s => count (laneCtr n 9) (goodCodeword n f s)) s

/-- The meaning of RESERVED_TYPE_FRAME. -/
def execReservedTypeFrame (lane : Nat) (f : RxFrame) (s : State) : Out := engineStep s (doReservedTypeFrame lane f s)

/-! ### Echo (R47, R51) -/

/-- ECHO_SEND: the ECHO that is due takes the next codeword slot (R13, R51). -/
def doEchoSend (n : Nat) (s : State) : State :=
  if linkPresent s n && slotOpen s n && echoDue s n then sendEcho n s else s

/-- The meaning of ECHO_SEND. -/
def execEchoSend (lane : Nat) (s : State) : Out := engineStep s (doEchoSend lane s)

/-- D of a reply in 1/32 tick (R47). -/
def echoD32 (x : EchoReply) : Int := (x.trx16 : Int) - 16 * (x.ttx + x.turn : Nat)

/-- u of base-rate position 0 that a reply gives, in 1/32 tick (R47). -/
def echoU32 (s : State) (n : Nat) (x : EchoReply) : Int :=
  32 * ((x.ttx : Int) - x.fr - lnInlat s n - (x.sref * lnP0 s n : Nat)) + echoD32 x

/-- How far a measured u lies from the trained one, in 1/2048 tick; S_REF has 48 bits, so the comparison is modulo 2^48 positions. -/
def echoDrift (s : State) (n : Nat) (x : EchoReply) : Nat :=
  let m : Nat := 2 ^ 48 * 2048 * lnP0 s n
  let d := ((64 * echoU32 s n x - (lane s n).u2048) % (m : Int)).toNat
  min d (m - d)

/-- Whether the result of a reply lies more than 1 tick from the trained value (R51): u of a lane, and on a cascade lane, whose positions
have no samples, the hop delay D. (DEDUCED: log entry 26.) -/
def echoFar (s : State) (n : Nat) (x : EchoReply) : Bool :=
  if n < 128 then decide (2048 < echoDrift s n x) else decide (32 < (echoD32 x - 2 * ((reg s (laneBase n + 0x20)).toNat : Int)).natAbs)

/-- A reply is averaged in the ECHO state and compared with the trained value in RUN (R51). -/
def useEcho (n : Nat) (f : RxFrame) (x : EchoReply) (s : State) : State :=
  let s1 := count (laneCtr n 11) (goodFrame n f s)
  let l := lane s1 n
  if laneState s n = lnEcho then
    if l.echoes < 64 then
      setLane n { l with echoes := l.echoes + 1, sumD32 := l.sumD32 + echoD32 x, sumU32 := l.sumU32 + echoU32 s n x } s1
    else s1
  else if laneState s n = lnRun ∧ echoFar s n x then raise (srcLane n 6) 0 (count (laneCtr n 12) s1)
  else s1

/-- ECHO_REPLY (R47, R51). -/
def doEchoReply (n : Nat) (f : RxFrame) (trx16 : Nat) (s : State) : State :=
  if frType f != tyEcho then s else withFrame n f (useEcho n f (echoOf f trx16)) s

/-- The meaning of ECHO_REPLY. -/
def execEchoReply (lane : Nat) (f : RxFrame) (trx16 : Nat) (s : State) : Out := engineStep s (doEchoReply lane f trx16 s)

/-! ### CONTROL frames (R38, R44, R58, R61) -/

/-- A CONTROL frame with this CCODE. -/
def isControl (code : Nat) (f : RxFrame) : Bool := frType f == tyControl && frCcode f == code

/-- An accepted ACK for the active pair counts for CONFIRM; any other status fails a lane that repeats CONFIRM under R58.
(DEDUCED: log entry 26.) -/
def useFormatAck (n : Nat) (f : RxFrame) (s : State) : State :=
  let s1 := goodFrame n f s
  if laneState s n = lnConfirm then
    if frData f 2 = 0 then
      if frData f 0 = lnAfmt s n ∧ frData f 1 = lnAdiv s n then setLane n { lane s1 n with ackOk := true } s1 else s1
    else if (lane s1 n).retrain then trainFail n 8 s1
    else s1
  else s1

/-- FORMAT_ACK (R38, R44, R58). -/
def doFormatAck (n : Nat) (f : RxFrame) (s : State) : State := if isControl 2 f then withFrame n f (useFormatAck n f) s else s

/-- The meaning of FORMAT_ACK. -/
def execFormatAck (lane : Nat) (f : RxFrame) (s : State) : Out := engineStep s (doFormatAck lane f s)

/-- The engine's transmitter takes the preset and the steps asked for, and answers. Whether it is at a limit is not stated (log entry 7);
at a limit it takes the preset and keeps its cursors. (DEDUCED: log entries 26 and 81.) -/
def useTxeqReq (n : Nat) (f : RxFrame) (s : State) : State :=
  let s1 := goodFrame n f s
  if laneState s n = lnTxeq then
    let free := takeFree s1
    let limit := free.1.getLsbD 0
    let x := lane free.2 n
    let t : TxEq := { preset := frData f 0 % 16, pre := if limit then x.txeq.pre else x.txeq.pre + frSigned f 1,
                      post := if limit then x.txeq.post else x.txeq.post + frSigned f 2 }
    queueControl n 4 [BitVec.ofNat 8 t.preset, BitVec.ofNat 8 (b2n limit)] (setLane n { x with txeq := t } free.2)
  else s1

/-- TXEQ_REQ in TXEQ (R38, R44). -/
def doTxeqReq (n : Nat) (f : RxFrame) (s : State) : State := if isControl 3 f then withFrame n f (useTxeqReq n f) s else s

/-- The meaning of TXEQ_REQ. -/
def execTxeqReq (lane : Nat) (f : RxFrame) (s : State) : Out := engineStep s (doTxeqReq lane f s)

/-- TXEQ_ACK: the answer to the engine's own request. While the lane is in TXEQ the exchange goes on with a further request; it ends
with the exit from TXEQ, which the row TRAINING_STATE_EXIT tells (R44; log entries 1 and 81). -/
def useTxeqAck (n : Nat) (f : RxFrame) (s : State) : State :=
  let s1 := goodFrame n f s
  if laneState s n = lnTxeq then sendTxeqReq n s1 else s1

/-- TXEQ_ACK (R38, R44). -/
def doTxeqAck (n : Nat) (f : RxFrame) (s : State) : State := if isControl 4 f then withFrame n f (useTxeqAck n f) s else s

/-- The meaning of TXEQ_ACK. -/
def execTxeqAck (lane : Nat) (f : RxFrame) (s : State) : Out := engineStep s (doTxeqAck lane f s)

/-- The payload bytes of a frame in canonical form. -/
def payload640 (m : Mem) : Mem := memPut [] 0 (memTake m 0 640)

/-- A pass-through frame fills the receive buffer, or is counted in MBX_DROP while RXFULL is 1 (R61). -/
def usePassThrough (n : Nat) (f : RxFrame) (s : State) : State :=
  let s1 := goodFrame n f s
  if 128 ≤ n then s1
  else if rf s1 (laneBase n + 0x24) 30 30 = 1 then count (laneCtr n 15) s1
  else setRf (laneBase n + 0x24) 30 30 1 (setLane n { lane s1 n with rxBuf := payload640 f.payload } s1)

/-- PASS_THROUGH_FRAME: a CONTROL frame with a CCODE from 0x8000 on (R38, R61). A CCODE that no row of R38 sends to the engine is a good frame
with no effect of its own. (DEDUCED: log entry 27.) -/
def doPassThroughFrame (n : Nat) (f : RxFrame) (s : State) : State :=
  if frType f != tyControl || [2, 3, 4].contains (frCcode f) then s
  else withFrame n f (if 0x8000 ≤ frCcode f then usePassThrough n f else goodFrame n f) s

/-- The meaning of PASS_THROUGH_FRAME. -/
def execPassThroughFrame (lane : Nat) (f : RxFrame) (s : State) : Out := engineStep s (doPassThroughFrame lane f s)

/-- A write of LANEMBX (R61). The register is reserved in a cascade lane block (R63) and absent with its lane (R3). -/
def writeLanembx (n : Nat) (v : W32) (s : State) : State :=
  let off := laneBase n + 0x24
  if laneCount s ≤ n then busError 1 0 off s
  else
    let s1 := if bit v.toNat 29 then setRf off 30 30 0 s else s
    if !bit v.toNat 31 then s1
    else if rf s1 off 31 31 = 1 ∨ memLE (lane s1 n).txBuf 0 2 < 0x8000 then busError 6 0 off s1
    else setRf off 31 31 1 s1

/-- The meaning of TXGO: a write of LANEMBX. -/
def execTxgo (lane : Nat) (v : W32) (s : State) : Out := engineStep s (hostMem (writeLanembx lane v) s)

/-- The meaning of RXACK: a write of LANEMBX. -/
def execRxack (lane : Nat) (v : W32) (s : State) : Out := engineStep s (hostMem (writeLanembx lane v) s)

/-- MAILBOX_SEND: the mailbox frame takes the CONTROL position of R13: behind an ECHO that is due and the engine's own CONTROL frames (R61). -/
def doMailboxSend (n : Nat) (s : State) : State :=
  if slotOpen s n && !echoDue s n && (lane s n).txq.isEmpty && mailboxDue s n then sendMailbox n s else s

/-- The meaning of MAILBOX_SEND. -/
def execMailboxSend (lane : Nat) (s : State) : Out := engineStep s (doMailboxSend lane s)

/-! ### Errors and fast resume (R53, R54) -/

/-- UNCORRECTABLE_CODEWORD (R34, R53). In RESUME the third in a row loses the lock that the lane has regained, and the search begins anew; no
further loss is counted. (DESIGN CHOICE: log entry 26.) -/
def doUncorrectableCodeword (n : Nat) (s : State) : State :=
  if linkPresent s n && (seeksLock s n || rxLocked s n) then badCodeword n s else s

/-- The meaning of UNCORRECTABLE_CODEWORD. -/
def execUncorrectableCodeword (lane : Nat) (s : State) : Out := engineStep s (doUncorrectableCodeword lane s)

/-- LOSS_OF_LOCK: the CDR reports unlock in RUN (R53, R54, R56). -/
def doLossOfLock (n : Nat) (s : State) : State := if linkPresent s n && laneState s n == lnRun then loseLock n s else s

/-- The meaning of LOSS_OF_LOCK. -/
def execLossOfLock (lane : Nat) (s : State) : Out := engineStep s (doLossOfLock lane s)

/-- The DOWN timeout of a fast resume in µs, by class (R54). -/
def downTimeout (c : Nat) : Nat := if c = 2 then 19 else 15

/-- Whether the DOWN timeout of a fast resume has run out (R54). -/
def resumeLate (s : State) (n : Nat) : Bool := decide ((lane s n).lossAt + downTimeout (lnLatClass s n) * usTicks ≤ nowT s)

/-- RESUMED: the first good SAMPLE frame after a fast resume, before the DOWN timeout (R54). (DESIGN CHOICE: log entry 8.) -/
def doResumed (n : Nat) (f : RxFrame) (s : State) : State :=
  if frType f != tySample || laneState s n != lnResume || resumeLate s n then s
  else withFrame n f (fun s =>
    setSource (srcLane n 4) (count (laneCtr n 7) (setLaneState n lnRun 0 (takeFrame n f (goodFrame n f s))))) s

/-- The meaning of RESUMED. -/
def execResumed (lane : Nat) (f : RxFrame) (s : State) : Out := engineStep s (doResumed lane f s)

/-- RESUMETIMEOUT (R54). -/
def doResumetimeout (n : Nat) (s : State) : State :=
  if linkPresent s n && laneState s n == lnResume && resumeLate s n then
    raise (srcLane n 3) 0xA (setLaneState n lnDown 0xA (count (laneCtr n 8) s))
  else s

/-- The meaning of RESUMETIMEOUT. -/
def execResumetimeout (lane : Nat) (s : State) : Out := engineStep s (doResumetimeout lane s)

/-! ### LANECOMMIT and LANECTL (R58, R347, R349, R404) -/

/-- A write of LANECOMMIT. (DEDUCED: log entry 25.) -/
def writeLanecommit (n : Nat) (v : W32) (s : State) : State :=
  let off := laneBase n + 0xC
  if laneCount s ≤ n then busError 1 0 off s
  else if !bit v.toNat 0 then s
  else if armed s || admitting s then cfgReject 3 off true s
  else if fmtAgrees (reg s (laneBase n)) (reg s (laneBase n + 4)) then takeFormat n s
  else cfgReject 2 off false s

/-- The meaning of LANECOMMIT. -/
def execLanecommit (lane : Nat) (v : W32) (s : State) : Out := engineStep s (hostMem (writeLanecommit lane v) s)

/-- A write of LANECTL. -/
def writeLanectl (n : Nat) (v : W32) (s : State) : State :=
  let off := laneBase n + 8
  if !linkPresent s n then busError 1 0 off s
  else if armed s then cfgReject 1 off true s
  else setLaneEn n (bit v.toNat 0) s

/-- The meaning of LANECTL_WRITE. -/
def execLanectlWrite (lane : Nat) (v : W32) (s : State) : Out := engineStep s (hostMem (writeLanectl lane v) s)

/-! ### Time -/

/-- What a link does by itself when its time has come: timeouts of training and of a fast resume, and the codeword slot that begins now
(R13, R44, R54). (DESIGN CHOICE: log entry 2.) -/
def linkTime (n : Nat) (s : State) : State := transmitDue (doResumetimeout n (doTrainingTimeout n s)) n

/-- The links present. -/
def links (s : State) : List Nat := List.range (laneCount s) ++ [128, 129, 130, 131]

end Sys2Proof.Machine
end

