-- ==== Sys2Proof/Machine/Micro.lean ====
section
/-! DEFINITION. The microword (R289 to R295), control stores (R312, R320), the rules a stored word obeys (R296, R313, R316), and boot
images (R312, R313). -/

namespace Sys2Proof.Machine

/-! ### Fields (R289) -/

/-- Bits [hi:lo] of a word. -/
def mw (w : BitVec 144) (hi lo : Nat) : Nat := bits w.toNat hi lo

def mNac (w : BitVec 144) : Nat := mw w 135 132
def mTgt (w : BitVec 144) : Nat := mw w 131 118
def mCsel (w : BitVec 144) : Nat := mw w 117 112
def mCpol (w : BitVec 144) : Bool := bit w.toNat 111
def mAlu (w : BitVec 144) : Nat := mw w 110 106
def mAsrc (w : BitVec 144) : Nat := mw w 105 100
def mBsrc (w : BitVec 144) : Nat := mw w 99 94
def mDst (w : BitVec 144) : Nat := mw w 93 88
def mImm (w : BitVec 144) : Nat := mw w 87 72
def mMop (w : BitVec 144) : Nat := mw w 71 68
def mMsel (w : BitVec 144) : Nat := mw w 67 64
def mBsel (w : BitVec 144) : Nat := mw w 63 60
def mRing (w : BitVec 144) : Nat := mw w 59 56
def mEvt (w : BitVec 144) : Nat := mw w 55 48
def mCnt (w : BitVec 144) : Nat := mw w 47 44
def mWait (w : BitVec 144) : Nat := mw w 43 39
def mStk (w : BitVec 144) : Nat := mw w 38 37
def mTsafe (w : BitVec 144) : Bool := bit w.toNat 36
def mCmt (w : BitVec 144) : Bool := bit w.toNat 35
def mDsp (w : BitVec 144) : Bool := bit w.toNat 34
def mXio (w : BitVec 144) : Nat := mw w 33 26
def mXaddr (w : BitVec 144) : Nat := mw w 25 16
def mUfld (w : BitVec 144) : Nat := mw w 15 0

/-- A word with its parity bits computed (R289). -/
def sealWord (v : Nat) : BitVec 144 :=
  let w : BitVec 144 := BitVec.ofNat 144 (v % 2 ^ 136)
  BitVec.ofNat 144 (v % 2 ^ 136 + parityFails w * 2 ^ 136)

/-- A word of 18 bytes as images hold it (R312): bytes 0 to 16 the fields, byte 17 the parity. -/
def imWord (im : Image) (off : Nat) : BitVec 144 := BitVec.ofNat 144 (imLE im off 18)

/-- A reserved code (R290 to R295). (DEDUCED: log entry 51.) -/
def reservedCode (w : BitVec 144) : Bool :=
  let src (x : Nat) : Bool := decide (0x34 < x)
  let dst (x : Nat) : Bool := decide (0x34 < x) || (decide (0x24 ≤ x) && decide (x < 0x28))
  decide (8 < mNac w) || (decide (0x11 ≤ mCsel w) && decide (mCsel w < 0x20)) || decide (0x13 < mAlu w) || src (mAsrc w) || src (mBsrc w) ||
    dst (mDst w) || decide (9 < mMop w) || decide (3 < mMsel w) || (decide (12 ≤ mBsel w) && decide (mBsel w < 15)) || decide (7 < mRing w) ||
    decide (5 < mWait w) || mStk w == 3 || mXio w / 64 == 3 || ((mMop w == 5 || mMop w == 6) && mUfld w / 4096 % 4 == 0)

/-! ### Control stores -/

/-- The class of a sequencer's store (R312). -/
def storeClass (q : Nat) : Nat := if q < 4 then q else if (q - 4) % 6 < 4 then 4 else if (q - 4) % 6 = 4 then 5 else 6

/-- Word w of the base image's class c. -/
def baseWord (im : Image) (c w : Nat) : BitVec 144 := imWord im (6144 + 294912 * c + 18 * w)

/-- Word w of sequencer q's store: as last written, or of the base image; a store that was never loaded holds zeros. -/
def storeWord (s : State) (q w : Nat) : BitVec 144 :=
  match tblFind s.stores.words (16384 * q + w) with
  | some v => v
  | none => match s.stores.base with
    | some im => baseWord im (storeClass q) w
    | none => 0

/-- Write a word of a store. -/
def putStore (q w : Nat) (v : BitVec 144) (s : State) : State :=
  { s with stores := { s.stores with words := tblSet s.stores.words (16384 * q + w) v } }

/-- WDT of the boot image (R312, R319). -/
def wdt (s : State) : Nat := match s.stores.base with | some im => imLE im 24 4 | none => 0

/-- The BAR0 offset of unit u's page for a sequencer: the unit map of its class (R295, R312). -/
def unitBase (s : State) (q u : Nat) : Nat := match s.stores.base with | some im => 4096 * imLE im (4352 + 256 * storeClass q + 4 * u) 4 | none => 0

/-! ### The TSAFE rules (R313) -/

/-- Where a word can lead; a RETURN leads behind any CALL. -/
def leadsTo (calls : List Nat) (a : Nat) (w : BitVec 144) : List Nat :=
  let n := mNac w
  if n = 0 then [a + 1]
  else if n = 1 then [mTgt w]
  else if n = 2 ∨ n = 3 ∨ n = 5 then [mTgt w, a + 1]
  else if n = 4 then (a + 1) :: calls
  else if n = 6 then (List.range 16).map fun i => mTgt w + i
  else []

/-- The words among `l` from which a path of `k` further words stays within `l`. -/
def longPaths (k : Nat) (l : List (Nat × List Nat)) (alive : List Nat) : List Nat :=
  match k with
  | 0 => alive
  | n + 1 => longPaths n l ((l.filter fun x => x.2.any fun t => alive.contains t).map fun x => x.1)

/-- A TSAFE rule fails among words (address, word): a word that waits without TSAFE, or 40 words in a row without one, which R305 would find a machine check. -/
def tsafeFails (ws : List (Nat × BitVec 144)) : Bool :=
  let calls := (ws.filter fun x => mNac x.2 == 3).map fun x => x.1 + 1
  let open_ := (ws.filter fun x => !mTsafe x.2).map fun x => (x.1, leadsTo calls x.1 x.2)
  (ws.any fun x => mWait x.2 != 0 && !mTsafe x.2) || !(longPaths 39 open_ (open_.map fun x => x.1)).isEmpty

/-- Whether words may not be loaded: parity, codes, and the TSAFE rules (R289, R296, R313). -/
def wordsBad (ws : List (Nat × BitVec 144)) : Bool :=
  (ws.any fun x => parityFails x.2 != 0) || (ws.any fun x => reservedCode x.2) || tsafeFails ws

/-! ### Boot images (R312, R313) -/

/-- The MAGIC of a boot image. -/
def bootMagic : Nat := 0x4547414D49444C56

/-- A dispatch entry breaks R297: reserved bits or HOME, LONG against R246, or an entry of the open area. -/
def dispBad (i : Nat) (v : W32) : Bool :=
  let n := v.toNat
  n != 0 && (isOpenArea i || fld v 29 27 != 0 || fld v 21 14 != 0 || fld v 26 22 == 31 || bit n 30 != isLong i)

/-- The words of class c that are loaded: the open area of the JSQ store is not (R312). -/
def classWords (im : Image) (c : Nat) : List (Nat × BitVec 144) :=
  (List.range (if c = 6 then 0x3000 else 0x4000)).map fun w => (w, baseWord im c w)

/-- A slot holds a valid boot image (R313). (PRESUMED: log entry 12.) -/
def bootValid (im : Image) : Bool :=
  imLE im 0 8 == bootMagic && imLE im 8 2 == 1 && imLE im 16 4 == 2070624 &&
    keyHashOk (imSlice im 32 96) && signatureOk (imSlice im 32 96) (imSlice im 0 2070528) (imSlice im 2070528 96) &&
    ((List.range 7).all fun c => !wordsBad (classWords im c)) &&
    (List.range 1024).all fun i => !dispBad i (BitVec.ofNat 32 (imLE im (256 + 4 * i) 4))

/-- The slot that the boot ROM loads (R313). -/
def bootImage (f : Flash) : Option Image :=
  match bootValid f.slotA, bootValid f.slotB with
  | true, true => if imLE f.slotA 12 4 < imLE f.slotB 12 4 then some f.slotB else some f.slotA
  | true, false => some f.slotA
  | false, true => some f.slotB
  | false, false => none

end Sys2Proof.Machine
end

