-- ==== Sys2Proof/Machine/Regs.lean ====
section
/-! DEFINITION. The BAR0 map (R350): which registers exist and how each behaves (R340, R342), the counters' places (R353), and what a read
of each returns. -/

namespace Sys2Proof.Machine

/-! ### Counters (R353) -/

/-- Whether `x` is one of `n` LO halves from `base` on. -/
def inRow (x base n : Nat) : Bool := decide (base ≤ x) && decide (x < base + 8 * n) && x % 8 == base % 8

/-- The live LO half of a present counter. -/
def isCtr (s : State) (off : Nat) : Bool :=
  if inRow off 0x18100 8 then true
  else if 0x60200 ≤ off ∧ off < 0x60800 then inRow (0x60200 + (off - 0x60200) % 0x80) 0x60200 10
  else if inRow off 0x60800 4 then true
  else if 0x70000 ≤ off ∧ off < 0x77000 then
    decide ((off - 0x70000) / 0x400 < seqCount s) && (inRow (off % 0x400) 0x100 8 || inRow (off % 0x400) 0x160 6)
  else if 0x78000 ≤ off ∧ off < 0x78400 then
    decide ((off - 0x78000) / 0x100 < quads s) && (inRow (off % 0x100) 0x80 9 || inRow (off % 0x100) 0xD0 6)
  else if 0x80000 ≤ off ∧ off < 0x90000 then decide ((off - 0x80000) / 0x2000 < chCount s) && inRow (off % 0x2000) 0x100 32
  else if 0x400000 ≤ off ∧ off < 0x480000 then decide ((off - 0x400000) / 0x1000 < laneCount s) && inRow (off % 0x1000) 0x100 16
  else if 0x480000 ≤ off ∧ off < 0x484000 then inRow (off % 0x1000) 0x100 16
  else inRow off 0x608010 2

/-- The live LO half whose holding register lies at a LO offset. -/
def holdLive (s : State) (off : Nat) : Option Nat :=
  let x := off - 0xC0000
  let live : Option Nat :=
    if off < 0xC1000 then none
    else if x < 0x5000 then some (laneBase ((x - 0x1000) / 128) + 0x100 + (x - 0x1000) % 128)
    else if x < 0x5800 then
      some (chBase ((x - 0x5000) / 256) + 0x100 + (x - 0x5000) % 256)
    else if x < 0x5840 then some (0x18100 + (x - 0x5800))
    else if 0x5900 ≤ x ∧ x < 0x5B00 then
      let u := (x - 0x5900) / 128
      let o := (x - 0x5900) % 128
      if o < 0x48 then some (cxBase u + 0x80 + o) else some (cxBase u + 0xD0 + (o - 0x48))
    else if 0x5C00 ≤ x ∧ x < 0x6A00 then
      let u := (x - 0x5C00) / 128
      let o := (x - 0x5C00) % 128
      if o < 0x40 then some (sqBase u + 0x100 + o) else some (sqBase u + 0x160 + (o - 0x40))
    else if 0x6A00 ≤ x ∧ x < 0x7000 then some (0x60200 + (x - 0x6A00))
    else if x < 0x7020 ∧ 0x7000 ≤ x then some (0x60800 + (x - 0x7000))
    else if 0x7040 ≤ x ∧ x < 0x7050 then some (0x608010 + (x - 0x7040))
    else if 0x7100 ≤ x ∧ x < 0x7300 then some (laneBase (128 + (x - 0x7100) / 128) + 0x100 + (x - 0x7100) % 128)
    else none
  match live with
  | some l => if isCtr s l then some l else none
  | none => none

/-- The counter that a LO half shows, live or held. -/
def ctrAt (s : State) (off : Nat) : Option Ctr :=
  if isCtr s off then some (tblGet s.ctrs off { val := 0, ovf := false })
  else match holdLive s off with
    | some l => some (tblGet s.hold l { val := 0, ovf := false })
    | none => none

/-! ### Access codes (R340) -/

/-- How a register behaves. `rc` and `rw` name the bits that a read clears and that a write sets. -/
inductive Acc where
  | reserved
  | ro
  | rc (mask : W32)
  | rw (mask : W32)
  | mw
  | wo
  | gw (c : GwClass) (mask : W32)
  deriving DecidableEq, Repr

/-- All bits, and VALID alone. -/
def allBits : W32 := 0xFFFFFFFF#32
def validBit : W32 := 0x80000000#32

/-- Whether a register is among `l` of its block. -/
def oneOf (x : Nat) (l : List Nat) : Bool := l.contains x

/-- The identity and global block (R351, R352). -/
def accGlobal (x : Nat) : Acc :=
  if x = 0xC then .mw
  else if x = 0x10 then .wo
  else if x = 0x18 then .rc allBits
  else if x = 0x1C then .rc validBit
  else if oneOf x [0x0, 0x4, 0x8, 0x14, 0x20, 0x24, 0x30, 0x40, 0x48, 0x4C] then .ro
  else if 0x1000 ≤ x ∧ x < 0x3000 then .ro
  else .reserved

/-- The events and interrupts block (R237). -/
def accPcie (x : Nat) : Acc :=
  if x < 0x1C00 then .rw 0x800007FF#32
  else if 0x2000 ≤ x ∧ x < 0x20E0 then .ro
  else if 0x4000 ≤ x ∧ x < 0x6000 then .rw allBits
  else if x = 0x8000 ∨ x = 0x8030 then .rc allBits
  else if oneOf x [0x8004, 0x8008, 0x8020, 0x8028] then .ro
  else if oneOf x [0x8024, 0x802C] then .rc validBit
  else if x = 0x8010 then .rw 0xFFFFF000#32
  else if x = 0x8014 then .rw 0xFF#32
  else .reserved

/-- The timebase block (R84). -/
def accTb (x : Nat) : Acc :=
  if x = 0x0 then .gw .clk 0x0E0003FF#32
  else if x = 0x4 ∨ x = 0x8 then .gw .clk 0xFFFFFF#32
  else if x = 0xC then .gw .clk 0x1FFFF#32
  else if x = 0x10 then .gw .clk 0x1FFF#32
  else if x = 0x14 then .gw .clk 1#32
  else if x = 0x18 then .rw 0xFFFF#32
  else if x = 0x20 then .rc allBits
  else if x = 0x40 then .gw .clk 1#32
  else if x = 0x48 then .gw .clk 0xFFFF#32
  else if oneOf x [0x1C, 0x24, 0x28, 0x30, 0x34, 0x44, 0x50, 0x54, 0x58] then .ro
  else .reserved

/-- The power and thermal block (R381). -/
def accPwr (x : Nat) : Acc :=
  if x = 0x4 then .rc allBits
  else if x = 0x8 then .gw .pwr 0xFFFFFF#32
  else if x = 0xC then .gw .pwr 0xFFFF#32
  else if oneOf x [0x0, 0x10, 0x14, 0x18] then .ro
  else if 0x100 ≤ x ∧ x < 0x160 then .ro
  else if 0x200 ≤ x ∧ x < 0x260 then .rc allBits
  else .reserved

/-- The scratch banks and march engine (R338). -/
def accBank (x : Nat) : Acc :=
  if x < 0x30 then .rw 0xF00F#32
  else if 0x40 ≤ x ∧ x < 0x70 then .rc allBits
  else if 0x80 ≤ x ∧ x < 0xB0 then .rc validBit
  else if x = 0x100 then .ro
  else if x = 0x104 then .rc allBits
  else .reserved

/-- A sequencer's block (R319). -/
def accSeq (q x : Nat) : Acc :=
  if oneOf x [0x0, 0x10] then .ro
  else if x = 0x4 then .rc allBits
  else if x = 0x8 ∨ x = 0xC then .rc validBit
  else if q = 0 ∧ (x = 0x18 ∨ x = 0x1C) then .ro
  else .reserved

/-- A DRAM channel's block (R188, R191). -/
def accDram (ch x : Nat) : Acc :=
  if oneOf x [0x0, 0x4, 0xC, 0x28, 0x2C, 0x30, 0x40, 0x48] then .ro
  else if x = 0x8 then .rc allBits
  else if x = 0x10 then .gw .mem 0xF#32
  else if x = 0x14 then .gw .mem allBits
  else if x = 0x18 then .gw .mem 0x7F#32
  else if x = 0x1C then .gw .mem 0x8000FFFF#32
  else if x = 0x20 then .gw .mem 0x1FFFF#32
  else if x = 0x24 then .gw .mem 1#32
  else if x = 0x44 ∨ x = 0x4C then .rc validBit
  else if x = 0x80 ∧ ch % 2 = 0 then .rc allBits
  else .reserved

/-- Snapshot registers (R355). -/
def accSnap (x : Nat) : Acc := if x = 0x0 then .wo else if oneOf x [0x4, 0x8, 0xC] then .ro else .reserved

/-- Ring doorbells, administration and capture registers (R241, R260, R261). -/
def accRings (x : Nat) : Acc :=
  if x < 0x80000 then .rw allBits
  else if oneOf x [0x80000, 0x80008] then .rw 0xFFFFF000#32
  else if oneOf x [0x80004, 0x8000C] then .rw allBits
  else if x = 0x80010 then .rw 0x87FF1F1F#32
  else if x = 0x80014 then .rw 3#32
  else if x = 0x80018 then .ro
  else if x = 0x80020 ∨ x = 0x80024 then .rc allBits
  else if x = 0x80028 then .rc validBit
  else .reserved

/-- A lane's block (R57 to R61), and what of it a cascade lane has (R63). -/
def accLane (cascade : Bool) (x : Nat) : Acc :=
  if x = 0x0 then .rw (if cascade then 0x1000#32 else 0x10FF#32)
  else if x = 0x4 then .rw (if cascade then 0x03000000#32 else 0xFFF8FFFF#32)
  else if x = 0x8 then .rw 1#32
  else if x = 0x10 ∨ x = 0x20 then .ro
  else if x = 0x14 then .rc allBits
  else if cascade then .reserved
  else if x = 0xC then .wo
  else if x = 0x18 ∨ x = 0x1C then .ro
  else if x = 0x24 then .rw 0xA0000000#32
  else if 0x400 ≤ x ∧ x < 0x680 then .rw allBits
  else if 0x800 ≤ x ∧ x < 0xA80 then .ro
  else .reserved

/-- A cluster's block (R102 to R105). (DEDUCED: log entry 60.) -/
def accCluster (x : Nat) : Acc :=
  if x < 0x400 then (if x % 0x80 = 0 ∨ 0x40 ≤ x % 0x80 then .ro else .reserved)
  else if x = 0x800 then .rc allBits
  else if x = 0x804 then .rc validBit
  else if 0x1000 ≤ x ∧ x < 0x3000 then
    (if oneOf (x % 0x100) [0x0, 0x8, 0xC, 0x10, 0x14, 0x18, 0x1C] || decide (0x80 ≤ x % 0x100) then .ro else .reserved)
  else if 0x3000 ≤ x ∧ x < 0x4000 then (if x % 0x20 < 0xC then .ro else .reserved)
  else .reserved

/-- An automaton's block (R129). -/
def accAuto (a x : Nat) : Acc :=
  if oneOf x [0x0, 0x4, 0x8, 0xC, 0x10, 0x14, 0x18, 0x1C, 0x20, 0x24, 0x50, 0x54] then .ro
  else if x = 0x40 then .rc allBits
  else if x = 0x44 then .rc validBit
  else if x = 0x48 then .rc 0xC0000000#32
  else if 0x100 ≤ x ∧ x < 0x200 then (if oneOf (x % 0x40) [0x0, 0x8, 0xC, 0x10, 0x14, 0x18, 0x1C] then .ro else .reserved)
  else if (0x800 ≤ x ∧ x < 0x840) ∨ (0x1000 ≤ x ∧ x < 0x4800) then .ro
  else if a = 0 ∧ (x = 0x8000 ∨ x = 0x8004 ∨ (0x8100 ≤ x ∧ x < 0x8300)) then .ro
  else .reserved

/-- The control-store window and the dispatch table (R320). The data words of an entry are staged by a privileged master without a key; that
check is made where they are written. (DEDUCED: log entry 61.) -/
def accStore (s : State) (x : Nat) : Acc :=
  if 0xE00000 ≤ x ∧ x < 0xE01000 then .gw .cst 0xC7C03FFF#32
  else if x < 0x80000 * seqCount s then
    (if x % 32 = 0x10 then .gw .cst 0xFF#32 else if x % 32 < 0x10 then .rw allBits else .reserved)
  else .reserved

/-- How the register at a BAR0 offset behaves. (DEDUCED: log entry 60.) -/
def accOf (s : State) (off : Nat) : Acc :=
  if off % 4 ≠ 0 then .reserved
  else if (ctrAt s off).isSome then .ro
  else if off % 8 = 4 ∧ (ctrAt s (off - 4)).isSome then .rc validBit
  else if off < 0x10000 then accGlobal off
  else if off < 0x20000 then accPcie (off - 0x10000)
  else if off < 0x40000 then .reserved
  else if off < 0x50000 then accTb (off - 0x40000)
  else if off < 0x60000 then accPwr (off - 0x50000)
  else if off < 0x70000 then accBank (off - 0x60000)
  else if off < 0x77000 then
    (if (off - 0x70000) / 0x400 < seqCount s then accSeq ((off - 0x70000) / 0x400) (off % 0x400) else .reserved)
  else if 0x78000 ≤ off ∧ off < 0x78400 then
    (if quads s ≤ (off - 0x78000) / 0x100 then .reserved
     else if off % 0x100 = 0 then .rc allBits else if off % 0x100 = 4 then .ro else .reserved)
  else if 0x80000 ≤ off ∧ off < 0x90000 then
    (if (off - 0x80000) / 0x2000 < chCount s then accDram ((off - 0x80000) / 0x2000) (off % 0x2000) else .reserved)
  else if 0xC0000 ≤ off ∧ off < 0xC1000 then accSnap (off - 0xC0000)
  else if 0x100000 ≤ off ∧ off < 0x200000 then accRings (off - 0x100000)
  else if 0x400000 ≤ off ∧ off < 0x480000 then
    (if (off - 0x400000) / 0x1000 < laneCount s then accLane false (off % 0x1000) else .reserved)
  else if 0x480000 ≤ off ∧ off < 0x484000 then accLane true (off % 0x1000)
  else if 0x500000 ≤ off ∧ off < 0x540000 then
    (if (off - 0x500000) / 0x4000 < 4 * quads s then accCluster (off % 0x4000) else .reserved)
  else if 0x600000 ≤ off ∧ off < 0x680000 then accAuto ((off - 0x600000) / 0x10000) (off % 0x10000)
  else if 0x1000000 ≤ off ∧ off < 0x2000000 then accStore s (off - 0x1000000)
  else .reserved

/-! ### Values -/

/-- A master's privilege for a class (R343, R344): CSQ, and the host under its custody. -/
def privOf (s : State) (m : BankUser) (c : GwClass) : Bool :=
  match m with | .host => privileged s .host c | .seq q => q == 1 | .codec _ => false

/-- GUARDSTAT (R351). -/
def guardStat (s : State) : W32 :=
  reg s 0x14 ||| BitVec.ofNat 32 (match s.guard.hostArm with | some c => gwBit c + 1 | none => 0)

/-- A word of the chip error log (R352). -/
def errWord (s : State) (x : Nat) : W32 :=
  match tblFind s.errlog ((x - 0x1000) / 32) with
  | none => 0
  | some e =>
    let o := x % 32
    BitVec.ofNat 32 (if o = 0 then e.tick else if o = 4 then e.tick / 2 ^ 32 else if o = 8 then e.cause * 65536 + e.unit % 65536
      else if o = 0xC then e.index else if o = 0x10 then e.detail else if o = 0x14 then e.detail / 2 ^ 32 else 0)

/-- EVSTATk (R237). -/
def evstat (s : State) (k : Nat) : W32 :=
  BitVec.ofNat 32 (maskOfList (numsWhere 32 fun i =>
    match srcReg (32 * k + i) with
    | some (off, b) => srcPresent s (32 * k + i) && srcDefined (32 * k + i) && bit (reg s off).toNat b
    | none => false))

/-- PESTAT (R237). -/
def peStat (s : State) : W32 :=
  (reg s 0x18004 &&& 0xFF800000#32) ||| BitVec.ofNat 32 (b2n s.pcie.bme * 2 ^ 22 + b2n (haltedByBme s) * 2 ^ 21)

/-- PWRPEAK (R372, R381). -/
def pwrPeak (s : State) : Nat := if rf s 0x50000 24 24 = 1 then min ((nowT s - s.pwr.peakStart) / 51200000) 0xFFFFFFFF else 0

/-- SQSTAT (R319): an idle sequencer with a command of its own in progress shows RUN. (DESIGN CHOICE: log entry 50.) -/
def sqStat (s : State) (q : Nat) : W32 :=
  let x := sq s q
  let st := match x.state with
    | .idle => if s.cmds.any fun c => c.home == q && c.opcode != opArm then 1 else 0
    | .run => 1 | .wait => 2 | .handler => 3 | .stopped => 4
  BitVec.ofNat 32 (st * 2 ^ 28 + x.ctx % 4 * 2 ^ 26 + x.stack.length % 32 * 2 ^ 21 + x.pc % 16384)

/-- Share of a codec engine that admitted BLOCK streams reserve, in 1/256, rounded up (R203, R284): 256 Gbit/s is 5/8 byte per tick. -/
def cxResv (s : State) (x : Nat) : Nat :=
  let im := plan s
  let part (i : Nat) : Nat × Nat :=
    if stIsState im i then (2 + 2 * (pLanes im i).length, 16) else ((pLanes im i).length * stN im i, 8 * stP im i)
  let parts := ((pStreams im).filter fun i => pSfmt im i == 3 && pStCluster im i / 4 == x).map part
  let f := parts.foldl (fun (a : Nat × Nat) p => (a.1 * p.2 + p.1 * a.2, a.2 * p.2)) (0, 1)
  min 255 (ceilDiv (f.1 * 8 * 256) (f.2 * 5))

/-- A register of an automaton (R129); tables and settings come from the active plan (R199). (DEDUCED: log entry 37.) -/
def autoVal (s : State) (a x : Nat) : W32 :=
  let im := plan s
  let v (n : Nat) : W32 := BitVec.ofNat 32 n
  if x = 0 then v (pTactl im a)
  else if 0x10 ≤ x ∧ x < 0x28 then v (pTasel im a ((x - 0x10) / 4))
  else if 0x100 ≤ x ∧ x < 0x200 ∧ x % 0x40 < 0x18 then
    let u := (x - 0x100) / 0x40
    v (if x % 0x40 = 0 then pTlctl im a u else secLE im 5 (128 * a + 32 * u + x % 0x40) 4)
  else if 0x800 ≤ x ∧ x < 0x840 then v (secLE im 4 (8448 * a + 0x40 + (x - 0x800)) 4)
  else if 0x1000 ≤ x ∧ x < 0x2000 then v (secLE im 3 (4096 * a + (x - 0x1000)) 4)
  else if 0x2000 ≤ x ∧ x < 0x4000 then v (secLE im 4 (8448 * a + 0x100 + (x - 0x2000)) 4)
  else if 0x4000 ≤ x ∧ x < 0x4800 then v (secLE im 6 (2048 * a + (x - 0x4000)) 4)
  else if x = 0x8000 then v (pCaslat im % 2 ^ 24)
  else if x = 0x8004 then v (pKhopmax im)
  else if 0x8100 ≤ x ∧ x < 0x8300 ∧ x % 16 < 0xC then
    let i := (x - 0x8100) / 16
    v (if x % 16 = 0 then pTmctl im i else bits (pTmDur im i) (if x % 16 = 4 then 31 else 63) (if x % 16 = 4 then 0 else 32))
  else reg s (taBase a + x)

/-- A word of the control-store window or a dispatch entry (R320). (DEDUCED: log entry 61.) -/
def storeVal (s : State) (x : Nat) : W32 :=
  if 0xE00000 ≤ x then dispEntry s ((x - 0xE00000) / 4)
  else
    let w := storeWord s (x / 0x80000) (x % 0x80000 / 32)
    let y := x % 32
    if y = 0x10 then BitVec.ofNat 32 (mw w 143 136 * 256 + mw w 135 128) else BitVec.ofNat 32 (w.toNat / 2 ^ (8 * y))

/-- The value of the register at `off` where its status lies, before copies, latches and privilege. -/
def liveVal (s : State) (off : Nat) : W32 :=
  match ctrAt s off, ctrAt s (off - 4) with
  | some c, _ => BitVec.ofNat 32 c.val
  | none, some c =>
    if off % 8 = 4 then BitVec.ofNat 32 (b2n c.ovf * 2 ^ 31 + c.val / 2 ^ 32 % 65536) else reg s off
  | none, none =>
    if off = 0x14 then guardStat s
    else if off = 0x40 then (reg s off &&& 0x40000000#32) ||| BitVec.ofNat 32 (b2n (s.trace.dramEn || s.trace.obsEn) * 2 ^ 31)
    else if 0x1000 ≤ off ∧ off < 0x3000 then errWord s off
    else if 0x12000 ≤ off ∧ off < 0x120E0 then evstat s ((off - 0x12000) / 4)
    else if off = 0x18004 then peStat s
    else if off = 0x40030 then BitVec.ofNat 32 s.tb.tick
    else if off = 0x40034 then BitVec.ofNat 32 (s.tb.tick / 2 ^ 32)
    else if off = 0x50018 then BitVec.ofNat 32 (pwrPeak s)
    else if 0x70000 ≤ off ∧ off < 0x77000 then
      let q := (off - 0x70000) / 0x400
      let x := off % 0x400
      if x = 0 then sqStat s q
      else if x = 0x10 then BitVec.ofNat 32 (wdt s)
      else if x = 0x18 then (mcver s).setWidth 32
      else if x = 0x1C then (mcver s >>> 32).setWidth 32
      else reg s off
    else if 0x78000 ≤ off ∧ off < 0x78400 ∧ off % 0x100 = 4 then
      let x := (off - 0x78000) / 0x100
      BitVec.ofNat 32 (cxResv s x * 2 ^ 16 + (s.jobs.filter fun j => j.quad == x && j.running).length)
    else if off = 0xC0004 then (reg s off &&& validBit) ||| BitVec.ofNat 32 (b2n s.snap.due.isSome * 2 ^ 30)
    else if 0x100000 ≤ off ∧ off < 0x180000 then
      (if off % 8 = 0 then BitVec.ofNat 32 (doorbellView s ((off - 0x100000) / 8)) else 0)
    else if off = 0x180018 then BitVec.ofNat 32 (admState s * 2 ^ 30)
    else if 0x400000 ≤ off ∧ off < 0x480000 then
      let n := (off - 0x400000) / 0x1000
      let x := off % 0x1000
      if x = 0x18 then laneDsk s n
      else if 0x400 ≤ x ∧ x < 0x680 then BitVec.ofNat 32 (memLE (lane s n).txBuf (x - 0x400) 4)
      else if 0x800 ≤ x ∧ x < 0xA80 then BitVec.ofNat 32 (memLE (lane s n).rxBuf (x - 0x800) 4)
      else reg s off
    else if 0x500000 ≤ off ∧ off < 0x540000 ∧ off % 0x4000 ≠ 0x800 ∧ off % 0x4000 ≠ 0x804 then
      BitVec.ofNat 32 (pCluster (plan s) ((off - 0x500000) / 0x4000) (off % 0x4000))
    else if 0x600000 ≤ off ∧ off < 0x680000 then autoVal s ((off - 0x600000) / 0x10000) (off % 0x10000)
    else if 0x1000000 ≤ off then storeVal s (off - 0x1000000)
    else reg s off

/-- Whether the register at `off` is read as a copy: the RO and RC registers of the timebase and power blocks (R19). -/
def isCopy (s : State) (off : Nat) : Bool :=
  decide (0x40000 ≤ off) && decide (off < 0x60000) && match accOf s off with | .ro => true | .rc _ => true | _ => false

/-- The offsets of the copies, in rising order. -/
def copyOffs : List Nat :=
  [0x4001C, 0x40020, 0x40024, 0x40028, 0x40030, 0x40034, 0x40044, 0x40050, 0x40054, 0x40058, 0x50000, 0x50004, 0x50010, 0x50014, 0x50018] ++
    ((List.range 24).map fun i => 0x50100 + 4 * i) ++ (List.range 24).map fun i => 0x50200 + 4 * i

/-- A housekeeping edge: every copy is refreshed, and the writes of two edges ago have reached their domain (R19, R21). -/
def refreshCopies (s : State) : State :=
  { s with house := { s.house with copy := (copyOffs.map fun o => (o, liveVal s o)).filter fun p => p.2 != regReset p.1,
                                   old := s.house.old.filter fun o => decide (nowT s < o.1) } }

/-- The value of the register at `off`, before latches and privilege: a copy as last refreshed (R19). -/
def regVal (s : State) (off : Nat) : W32 := if isCopy s off then tblGet s.house.copy off (regReset off) else liveVal s off

/-- The LO halves other than counters whose read latches the HI half (R84, R129, R188, R237, R319, R352). (DESIGN CHOICE: log entry 22.) -/
def latches (s : State) (off : Nat) : Bool :=
  (ctrAt s off).isSome || off == 0x40030 || (decide (0x1000 ≤ off) && decide (off < 0x3000) && (off % 32 == 0 || off % 32 == 0x10)) ||
    off == 0x18010 || off == 0x18020 || off == 0x18028 || off == 0x70018 ||
    (decide (0x80000 ≤ off) && decide (off < 0x90000) && (off % 0x2000 == 0x40 || off % 0x2000 == 0x48)) ||
    (decide (0x600000 ≤ off) && decide (off < 0x680000) &&
      (oneOf (off % 0x10000) [0x8, 0x50] ||
       (decide (0x100 ≤ off % 0x10000) && decide (off % 0x10000 < 0x200) && oneOf (off % 0x40) [0x8, 0x10, 0x18]) ||
       (decide (0x8100 ≤ off % 0x10000) && off % 16 == 4)))

/-- What a read of one register returns to a master: 0 for WO registers, and for GW registers without privilege (R340). A HI half returns
what the last read of its LO half latched. (DESIGN CHOICE: log entry 22.) -/
def readValue (m : BankUser) (s : State) (off : Nat) : W32 :=
  match accOf s off with
  | .reserved => 0
  | .wo => 0
  | .gw c _ => if privOf s m c && off != 0x40014 && !(decide (0x80000 ≤ off) && decide (off < 0x90000) && off % 0x2000 == 0x24) then regVal s off else 0
  | .mw => regVal s off &&& 0xFFFF#32
  | _ => match tblFind s.latch off with | some v => v | none => regVal s off

/-- Clear the overflow bit that a read of a counter's HI half returned (R353). (DESIGN CHOICE: log entry 22.) -/
def clearOvf (off : Nat) (s : State) : State :=
  if isCtr s off then { s with ctrs := tblSet s.ctrs off { tblGet s.ctrs off { val := 0, ovf := false } with ovf := false } }
  else match holdLive s off with
    | some l => { s with hold := tblSet s.hold l { tblGet s.hold l { val := 0, ovf := false } with ovf := false } }
    | none => s

/-- The bits of an RC register that a read of its copy leaves set fire their sources again (R20, R232). -/
def refire (off : Nat) (left : W32) (s : State) : State :=
  (numsWhere 32 fun b => bit left.toNat b).foldl (fun t b => match regSrc off b with | some n => fire n t | none => t) s

/-- Clear the RC bits that a read returned as set (R340): in the register, in its copy (R20), and in a latched value. (DESIGN CHOICE: log entry 22.) -/
def clearRead (off : Nat) (mask v : W32) (s : State) : State :=
  let gone := ~~~(mask &&& v)
  let s1 := match tblFind s.latch off with | some l => { s with latch := tblSet s.latch off (l &&& gone) } | none => s
  if off % 8 = 4 ∧ (ctrAt s (off - 4)).isSome then (if v.msb then clearOvf (off - 4) s1 else s1)
  else if isCopy s off then
    let left := reg s1 off &&& gone
    let s2 := if mask &&& v = 0 then s1
      else setReg off left { s1 with house := { s1.house with copy := tblSet s1.house.copy off (regVal s1 off &&& gone) } }
    refire off (left &&& mask) s2
  else if mask &&& v = 0 then s1
  else setReg off (reg s1 off &&& gone) s1

/-- Whether `off` is a half of a holding register. -/
def isHold (s : State) (off : Nat) : Bool := (holdLive s off).isSome || (off % 8 == 4 && (holdLive s (off - 4)).isSome)

/-- A read of one register: the value and the state after it (R340, R353). A holding value read while SNAPSTAT.VALID is 0 is undefined
(R355): a free value. (DESIGN CHOICE: log entry 7.) -/
def readReg (m : BankUser) (off : Nat) (s : State) : W32 × State :=
  if isHold s off && rf s 0xC0004 31 31 == 0 then ((takeFree s).1.setWidth 32, (takeFree s).2) else
  let v := readValue m s off
  let s1 := if latches s off then { s with latch := tblSet s.latch (off + 4) (regVal s (off + 4)) } else s
  match accOf s off with
  | .rc mask => (v, clearRead off mask v s1)
  | _ => (v, s1)

end Sys2Proof.Machine
end

