-- ==== Sys2Proof/Machine/Snapshot.lean ====
section
/-! DEFINITION. The tick-aligned snapshot of the counters (R353 to R355). -/

namespace Sys2Proof.Machine

/-- Order a snapshot: one that is pending is joined. Ts is 32 × ceil((c + 4,096) / 32), its distance counted in elapsed slices (R354, R355). (DEDUCED: log entry 66.) -/
def orderSnap (waiter : Option Nat) (s : State) : State :=
  let due := match s.snap.due with
    | some d => d
    | none => nowT s + (32 * ceilDiv (s.tb.tick + 4096) 32 - s.tb.tick)
  { s with snap := { s.snap with due := some due, waiters := s.snap.waiters ++ waiter.toList } }

/-- COUNTER_SNAPSHOT. -/
def doCounterSnapshot (r : Nat) (e : Entry) : State → State :=
  submit r opCounterSnapshot e { baseRow opCounterSnapshot with run := fun o s => orderSnap (some o) s }

/-- The meaning of COUNTER_SNAPSHOT. -/
def execCounterSnapshot (r : Nat) (e : Entry) (s : State) : Out := engineStep s (doCounterSnapshot r e s)

/-- A write of SNAPCTL. -/
def writeSnapctl (v : W32) (s : State) : State := if bit v.toNat 0 then orderSnap none s else s

/-- The meaning of TAKE: a write of SNAPCTL. -/
def execTake (v : W32) (s : State) : Out := engineStep s (hostMem (writeSnapctl v) s)

/-- At Ts every counter copies into its holding register and VALID becomes 0. (DEDUCED: log entry 66.) -/
def takeSnap (s : State) : State :=
  match s.snap.due with
  | none => s
  | some d =>
    if nowT s < d then s
    else
      setRf 0xC0004 31 31 0
        { s with hold := s.ctrs,
                 snap := { due := none, waiters := [], taken := some s.tb.tick,
                           owed := s.snap.owed ++ s.snap.waiters.map fun o => (o, s.tb.tick) } }

/-- SNAPSHOT_COPY: every holding register is written; SNAPTICK holds Ts, VALID is 1, SNAPDONE is raised, and the commands that ordered the
snapshot complete. (DEDUCED, DESIGN CHOICE: log entries 10 and 66.) -/
def doSnapshotCopy (s : State) : State :=
  match s.snap.taken with
  | none => s
  | some t =>
    let s1 := setReg 0xC000C (BitVec.ofNat 32 (t / 2 ^ 32)) (setReg 0xC0008 (BitVec.ofNat 32 t) (setRf 0xC0004 31 31 1 s))
    let s2 := setSource 3 { s1 with snap := { s1.snap with taken := none, owed := [] } }
    s.snap.owed.foldl (fun z p => finishCmd p.1 stDone (BitVec.ofNat 64 p.2) 0 0 z) s2

/-- The meaning of SNAPSHOT_COPY. -/
def execSnapshotCopy (s : State) : Out := engineStep s (doSnapshotCopy s)

end Sys2Proof.Machine
end

