-- ==== Sys2Proof/Machine/Bus.lean ====
section
/-! DEFINITION. Register writes (R340 to R349), and the host's requests: BAR0 reads and writes, the scratch-bank view, the DRAM aperture and
requests that are not supported (R218 to R224). -/

namespace Sys2Proof.Machine

/-! ### Writes of single registers -/

/-- GLBCTL (R340, R351): bit i of [15:0] takes bit i of the data where bit 16 + i is 1. -/
def writeGlbctl (v : W32) (s : State) : State :=
  let m := fld v 17 16
  setReg 0xC (BitVec.ofNat 32 (((reg s 0xC).toNat % 4 &&& (3 - m)) ||| (fld v 1 0 &&& m))) s

/-- The meaning of OBS0EN: a write of GLBCTL. -/
def execObs0en (v : W32) (s : State) : Out := engineStep s (hostMem (writeGlbctl v) s)

/-- The meaning of OBS1EN: a write of GLBCTL. -/
def execObs1en (v : W32) (s : State) : Out := engineStep s (hostMem (writeGlbctl v) s)

/-- EVMAP (R232): a write that sets EN while the source's bit is set fires the source. (DEDUCED: log entry 62.) -/
def writeEvmap (src : Nat) (v : W32) (s : State) : State :=
  let off := 0x10000 + 4 * src
  if 1792 ≤ src then busError 1 0 off s
  else
    let was := bit (reg s off).toNat 31
    let s1 := setReg off (v &&& 0x800007FF#32) s
    let set := match srcReg src with | some (o, b) => srcPresent s src && srcDefined src && bit (reg s o).toNat b | none => false
    if !was && bit v.toNat 31 && set then fire src s1 else s1

/-- The meaning of EVMAP_WRITE. -/
def execEvmapWrite (src : Nat) (v : W32) (s : State) : Out := engineStep s (hostMem (writeEvmap src v) s)

/-- Whether what a vector has accumulated makes a message due (R233). -/
def vecDue (v : Nat) (s : State) : Bool :=
  let x := vec s v
  let w := reg s (0x14000 + 4 * v)
  decide (0 < x.acc) && (decide (fld w 31 16 ≤ x.acc) || decide (x.first + fld w 15 0 * usTicks ≤ nowT s))

/-- VCOAL (R233): COUNT = 0 is dropped; new values apply at once to what is accumulated. -/
def writeVcoal (v : Nat) (w : W32) (s : State) : State :=
  let off := 0x14000 + 4 * v
  if 2048 ≤ v then busError 1 0 off s
  else if fld w 31 16 = 0 then setSource (srcPe 14) (busError 6 0 off s)
  else
    let s1 := setReg off w s
    if vecDue v s1 then dueVec v s1 else s1

/-- The meaning of VCOAL_WRITE. -/
def execVcoalWrite (v : Nat) (w : W32) (s : State) : Out := engineStep s (hostMem (writeVcoal v w) s)

/-- APBASE (R221, R237). -/
def writeApbase (hi : Bool) (v : W32) (s : State) : State :=
  if hi then setReg 0x18014 (v &&& 0xFF#32) s else setReg 0x18010 (v &&& 0xFFFFF000#32) s

/-- The meaning of APBASE_WRITE. -/
def execApbaseWrite (hi : Bool) (v : W32) (s : State) : Out := engineStep s (hostMem (writeApbase hi v) s)

/-- LANECFG and LANEDESC (R57 to R59, R349). -/
def writeLaneWord (off : Nat) (mask v : W32) (s : State) : State :=
  if armed s then cfgReject 1 off true s else setReg off (v &&& mask) s

/-- A word of the mailbox transmit buffer (R61); a write while TXGO is 1 takes effect too, on a frame not yet sent. (DESIGN CHOICE: log entry 24.) -/
def writeMailbox (n x : Nat) (v : W32) (s : State) : State :=
  setLane n { lane s n with txBuf := memPut (lane s n).txBuf x (leBytes 4 v.toNat) } s

/-! ### Guarded registers -/

/-- Whether the values of a DRAM channel's GW register lie in range (R188, R189). -/
def dramInRange (x : Nat) (v : W32) : Bool :=
  if x = 0x10 then decide (8 ≤ fld v 3 0) && decide (fld v 3 0 ≤ 12)
  else if x = 0x14 then v != 0
  else if x = 0x18 then decide (1 ≤ fld v 6 0) && decide (fld v 6 0 ≤ 64)
  else if x = 0x1C then decide (1 ≤ fld v 15 0)
  else true

/-- A GW register of a DRAM channel, after the key was consumed (R189, R349). -/
def writeDramGw (ch x : Nat) (mask v : W32) (s : State) : State :=
  let off := chBase ch + x
  if x = 0x24 then commitRef ch v s
  else if armed s then cfgLog 1 off (setSource (srcDch ch 6) (busError 6 0 off s))
  else if !dramInRange x v then cfgLog 4 off (setSource (srcDch ch 6) s)
  else setReg off (v &&& mask) s

/-- The word that a keyed write of +0x10 writes: what is staged over what is stored, with parity by the engine (R320). (DEDUCED: log entry 61.) -/
def stagedWord (s : State) (q w : Nat) (v : W32) : BitVec 144 :=
  let base := 0x80000 * q + 32 * w
  let part (i : Nat) : Nat := (match tblFind s.stores.staged (base + 4 * i) with | some x => x | none => storeVal s (base + 4 * i)).toNat
  sealWord (part 0 + part 1 * 2 ^ 32 + part 2 * 2 ^ 64 + part 3 * 2 ^ 96 + fld v 7 0 * 2 ^ 128)

/-- A control-store word or a dispatch entry, after the key was consumed (R320). (DEDUCED: log entry 61.) -/
def writeStore (x : Nat) (mask v : W32) (s : State) : State :=
  if 0xE00000 ≤ x then { s with stores := { s.stores with disp := tblSet s.stores.disp ((x - 0xE00000) / 4) (v &&& mask) } }
  else
    let q := x / 0x80000
    let w := x % 0x80000 / 32
    let word := stagedWord s q w v
    if reservedCode word || fld (sqStat s q) 31 28 != 0 || !(sq s q).queue.isEmpty then busError 6 0 (0x1000000 + x) s
    else
      let s1 := putStore q w word s
      { s1 with stores := { s1.stores with staged := tblDrop s1.stores.staged fun k => decide (x / 32 = k / 32) } }

/-- A GW register after its key was consumed. -/
def gwAct (off : Nat) (mask v : W32) (s : State) : State :=
  if off = 0x40014 then commitTb v s
  else if off = 0x40048 then (if armed s then cfgReject 1 off true s else holdReg off (v &&& mask) s)
  else if 0x80000 ≤ off ∧ off < 0x90000 then writeDramGw ((off - 0x80000) / 0x2000) (off % 0x2000) mask v s
  else if 0x1000000 ≤ off then writeStore (off - 0x1000000) mask v s
  else holdReg off (v &&& mask) s

/-- A GW write of a master (R343, R344): one that is neither the host nor CSQ has no privilege and no arm state. -/
def gwWrite (m : BankUser) (c : GwClass) (off : Nat) (act : State → State) (s : State) : State :=
  match m with
  | .host => guarded .host c off act s
  | .seq q => if q = 1 then guarded .csq c off act s else setSource 1 (busError 7 0 off s)
  | .codec _ => s

/-- GUARDKEY (R344). -/
def keyWrite (m : BankUser) (v : W32) (s : State) : State :=
  match m with
  | .host => writeGuardkey .host v s
  | .seq q => if q = 1 then writeGuardkey .csq v s else setSource 1 (busError 7 0 0x10 s)
  | .codec _ => s

/-- Data staged for a control-store word, by a privileged master and without a key (R320). (DEDUCED: log entry 61.) -/
def stageWrite (m : BankUser) (off : Nat) (v : W32) (s : State) : State :=
  if privOf s m .cst then { s with stores := { s.stores with staged := tblSet s.stores.staged (off - 0x1000000) v } }
  else setSource 1 (busError 7 0 off (match m with | .host => setArm .host none s | _ => s))

/-! ### Any register -/

/-- A write of an RW register: those with a behaviour of their own have it, the others take the data (R340). -/
def rwAct (m : BankUser) (off : Nat) (mask v : W32) (s : State) : State :=
  if 0x10000 ≤ off ∧ off < 0x12000 then writeEvmap ((off - 0x10000) / 4) v s
  else if 0x14000 ≤ off ∧ off < 0x16000 then writeVcoal ((off - 0x14000) / 4) v s
  else if off = 0x18010 ∨ off = 0x18014 then writeApbase (off == 0x18014) v s
  else if 0x60000 ≤ off ∧ off < 0x60030 then doBankown m ((off - 0x60000) / 4) v s
  else if 0x100000 ≤ off ∧ off < 0x180000 then
    doDoorbell ((off - 0x100000) / 8) (v.setWidth 64) (off % 8 == 0) s
  else if off = 0x180014 then writeAdmctl v s
  else if 0x180000 ≤ off ∧ off < 0x180014 then writeAdm off mask v s
  else if 0x400000 ≤ off ∧ off < 0x484000 then
    let n := if off < 0x480000 then (off - 0x400000) / 0x1000 else 128 + (off - 0x480000) / 0x1000
    let x := off % 0x1000
    if x = 0x8 then writeLanectl n v s
    else if x = 0x24 then writeLanembx n v s
    else if 0x400 ≤ x then writeMailbox n (x - 0x400) v s
    else writeLaneWord off mask v s
  else if 0x1000000 ≤ off then stageWrite m off v s
  else if 0x40000 ≤ off ∧ off < 0x60000 then holdReg off (v &&& mask) s
  else setReg off (v &&& mask) s

/-- A write of one register by a master (R340, R342). -/
def writeReg (m : BankUser) (off : Nat) (v : W32) (s : State) : State :=
  match accOf s off with
  | .reserved => busError 1 0 off s
  | .ro => busError 2 0 off s
  | .rc _ => busError 2 0 off s
  | .mw => writeGlbctl v s
  | .wo =>
    if off = 0x10 then keyWrite m v s
    else if off = 0xC0000 then writeSnapctl v s
    else writeLanecommit ((off - 0x400000) / 0x1000) v s
  | .gw c mask => gwWrite m c off (gwAct off mask v) s
  | .rw mask => rwAct m off mask v s

/-- A privileged master as a user of the register bus. -/
def userOf (m : Master) : BankUser := match m with | .host => .host | .csq => .seq 1

/-- The meaning of GUARDED_WRITE. -/
def execGuardedWrite (m : Master) (off : Nat) (v : W32) (s : State) : Out := engineStep s (masterMem m (writeReg (userOf m) off v) s)

/-- CONTROL_STORE_WORD_WRITE: a write of +0x10 of a word. -/
def doStoreWordWrite (m : Master) (q w : Nat) (v : W32) (s : State) : State :=
  if 28 ≤ q ∨ 16384 ≤ w then s else writeReg (userOf m) (0x1000000 + 0x80000 * q + 32 * w + 0x10) v s

/-- The meaning of CONTROL_STORE_WORD_WRITE. -/
def execControlStoreWordWrite (m : Master) (q w : Nat) (v : W32) (s : State) : Out := engineStep s (masterMem m (doStoreWordWrite m q w v) s)

/-! ### Requests of the host -/

/-- A request answered with an Unsupported Request completion (R222). -/
def doUnsupported (s : State) : State :=
  setSource (srcPe 9) (count 0x18110 (aerUncor 20 (post .unsupported s)))

/-- UNSUPPORTED_REQUEST: the function refuses every kind of request of R222; a memory request is refused for want of Memory Space Enable only
while that is 0. A Message is posted: the error is reported and no completion sent. (PRESUMED: log entry 4.) -/
def doUnsupportedRequest (k : UrKind) (s : State) : State :=
  match k with
  | .message => aerUncor 20 s
  | .memSpaceOff => if s.pcie.memSpace then s else doUnsupported s
  | .io | .atomicOp | .noBar => doUnsupported s

/-- The meaning of UNSUPPORTED_REQUEST. -/
def execUnsupportedRequest (k : UrKind) (s : State) : Out := engineStep s (doUnsupportedRequest k s)

/-- Size of BAR0 (R218). -/
def bar0Size : Nat := 2 ^ 26

/-- A 4-byte access of a host write, with its byte enables (R219, R340). (DEDUCED: log entry 60.) -/
def hostWrite4 (off : Nat) (be : BitVec 4) (v : W32) (s : State) : State :=
  if be ≠ 15#4 ∧ accOf s off ≠ .reserved then busError 3 0 off s else writeReg .host off v s

/-- REGISTER_WRITE: a host write of `len` bytes to BAR0; one of 8 bytes acts as two of 4, the lower address first (R219, R222, R223, R224).
(DEDUCED: log entry 60.) -/
def hostWrite (off len : Nat) (be : BitVec 8) (v : W64) (poisoned : Bool) (s : State) : State :=
  if !s.pcie.memSpace || decide (bar0Size < off + len) then aerUncor 20 s
  else if poisoned then busError 5 0 off (poisonedTlp s)
  else if !(len == 4 || len == 8) || off % len != 0 then busError 3 0 off s
  else
    let s1 := hostWrite4 off (be.setWidth 4) (v.setWidth 32) s
    if len = 4 then s1 else hostWrite4 (off + 4) ((be >>> 4).setWidth 4) ((v >>> 32).setWidth 32) s1

/-- The meaning of REGISTER_WRITE. -/
def execRegisterWrite (off len : Nat) (be : BitVec 8) (v : W64) (poisoned : Bool) (s : State) : Out :=
  engineStep s (hostWrite off len be v poisoned s)

/-- A host read of BAR0 (R219, R222, R223, R342): an 8-byte read is two 4-byte reads, the lower address first. (DEDUCED: log entry 60.) -/
def hostRead (off len : Nat) (s : State) : State :=
  if !s.pcie.memSpace || decide (bar0Size ≤ off) then doUnsupported s
  else if !(len == 4 || len == 8) || off % len != 0 || accOf s off == .reserved || (len == 8 && accOf s (off + 4) == .reserved) then sendCa 10 s
  else
    let a := readReg .host off s
    if len = 4 then post (.readData (leBytes 4 a.1.toNat) false) a.2
    else
      let b := readReg .host (off + 4) a.2
      post (.readData (leBytes 4 a.1.toNat ++ leBytes 4 b.1.toNat) false) b.2

/-- The meaning of RESERVED_OFFSET_READ: a host read of BAR0. -/
def execReservedOffsetRead (off len : Nat) (s : State) : Out := engineStep s (hostRead off len s)

/-- The meaning of RC_READ: a host read of 4 bytes. -/
def execRcRead (off : Nat) (s : State) : Out := engineStep s (hostRead off 4 s)

/-- The meaning of LO_HALF_READ: a host read of 4 bytes. -/
def execLoHalfRead (off : Nat) (s : State) : Out := engineStep s (hostRead off 4 s)

/-! ### The scratch-bank view (R220) -/

/-- The words of bank `off / 2 MiB` that [off, off + n) touches. -/
def viewWords (off n : Nat) : List Nat := (List.range ((off + n + 7) / 8 - off / 8)).map fun i => off % 0x200000 / 8 + i

/-- Whether a request is no well-formed memory request of PCI Express: longer than `most`, or across a 4 KiB boundary; so none reaches two banks.
(PRESUMED: log entry 4.) -/
def malformed (off n most : Nat) : Bool := decide (most < n) || decide (4096 < off % 4096 + n)

/-- Whether MHW may make the access on every word. -/
def viewOpen (s : State) (off n : Nat) (op : PortOp) : Bool :=
  (viewWords off n).all fun w => (portFor s .host (off / 0x200000) w op).isSome

/-- A read of the view: the bytes, poisoned where a word is uncorrectable. (DEDUCED: log entry 63.) -/
def viewRead (off n : Nat) (s : State) : State :=
  let k := off / 0x200000
  let r := (viewWords off n).foldl (fun (a : List Byte × Bool × State) w =>
    let x := bankAccess .host k w .read a.2.2
    match x.1 with
    | some (v, bad) => (a.1 ++ leBytes 8 v.toNat, a.2.1 || bad, x.2)
    | none => (a.1 ++ leBytes 8 0, a.2.1, x.2)) ([], false, s)
  post (.readData ((r.1.drop (off % 8)).take n) r.2.1) r.2.2

/-- A write of the view: bytes of a word that are not written keep their values; a partial write to a poisoned word is not made (R331). (DEDUCED: log entry 48.) -/
def viewWrite (off : Nat) (bs : List Byte) (s : State) : State :=
  let k := off / 0x200000
  (viewWords off bs.length).foldl (fun z w =>
    let base := 8 * wordKey k w
    let old := memTake z.banks.mem base 8
    let start := 0x200000 * k + 8 * w
    let whole := decide (off ≤ start) && decide (start + 8 ≤ off + bs.length)
    if !whole && bankPoison z k w then z else
    let new := (List.range 8).map fun i => if off ≤ start + i ∧ start + i < off + bs.length then bs.getD (start + i - off) 0 else old.getD i 0
    (bankAccess .host k w (.write (BitVec.ofNat 64 (leVal new))) z).2) s

/-! ### The DRAM aperture (R221) -/

/-- APBASE. -/
def apbase (s : State) : Nat := (reg s 0x18010).toNat + (reg s 0x18014).toNat * 2 ^ 32

/-- DRAM_APERTURE_READ of `n` bytes at offset x of the aperture: SC2 requests of its granules (R177, R221). (DEDUCED: log entry 60.) -/
def doAperture (x n : Nat) (s : State) : State :=
  if !s.pcie.memSpace || decide (0x800000 ≤ x) then doUnsupported s
  else if n = 0 then s
  else if malformed x n 4096 then aerUncor 18 s
  else if topAddr s < apbase s + x + n then sendCa 12 s
  else readGrans (gransOf (apbase s + x) n) 2 (.aperture (apbase s + x) n) s

/-- The meaning of DRAM_APERTURE_READ. -/
def execDramApertureRead (x n : Nat) (s : State) : Out := engineStep s (doAperture x n s)

/-! ### Requests to BAR2 (R218, R220, R221) -/

/-- The aperture's place in BAR2, and the size of BAR2 (R218). -/
def apertureOff : Nat := 0x1800000
def bar2Size : Nat := 0x2000000

/-- SCRATCH_BANK_VIEW_ACCESS: a request to BAR2; the view's part is served whole or refused whole, and the aperture is read-only (R220, R221, R223).
(DEDUCED: log entry 63.) -/
def doView (q : ViewReq) (s : State) : State :=
  match q with
  | .read off n =>
    if !s.pcie.memSpace || decide (bar2Size ≤ off) then doUnsupported s
    else if n = 0 then s
    else if malformed off n 4096 then aerUncor 18 s
    else if apertureOff ≤ off then doAperture (off - apertureOff) n s
    else if viewOpen s off n .read then viewRead off n s
    else sendCa 11 (notOwned .host (off / 0x200000) (off % 0x200000 / 8) s)
  | .write off bs poisoned =>
    if !s.pcie.memSpace || decide (bar2Size ≤ off) then aerUncor 20 s
    else if bs.isEmpty then s
    else if malformed off bs.length s.pcie.mps then aerUncor 18 s
    else if poisoned then busError 5 2 off (poisonedTlp s)
    else if apertureOff ≤ off then busError 2 2 off s
    else if viewOpen s off bs.length (.write 0) then viewWrite off bs s
    else busError kindBank 2 off (notOwned .host (off / 0x200000) (off % 0x200000 / 8) s)

/-- The meaning of SCRATCH_BANK_VIEW_ACCESS. -/
def execScratchBankViewAccess (q : ViewReq) (s : State) : Out := engineStep s (doView q s)

end Sys2Proof.Machine
end

