-- ==== Sys2Proof/Machine/Writer.lean ====
section
/-! DEFINITION. The stream writer: missing ticks and GAP records (R55, R131, R151), the events a writer passes (nucleus, TIMEBASE records,
phase closures, full), data records (R136 to R144, R152, R211) and the SEGMENT record (R142, R143, R147). -/

namespace Sys2Proof.Machine

/-! ### Lanes of a stream -/

/-- The keys of a stream's writer: each lane index for TRANS, 0 for the positions of DENSE and BLOCK (R131). -/
def keysOf (im : Image) (i : Nat) : List Nat := if pSfmt im i = 2 then List.range (pLanes im i).length else [0]

/-- The lane indices that a key stands for. -/
def idxOf (im : Image) (i k : Nat) : List Nat := if pSfmt im i = 2 then [k] else List.range (pLanes im i).length

/-- The lane of a lane index. -/
def laneAt (im : Image) (i l : Nat) : Nat := (pLanes im i).getD l 0

/-- The sample words of the lanes of a key at tick t: none when any is missing (R131). -/
def wordsAt (s : State) (i k t : Nat) : Option (List (BitVec 16)) :=
  let ws := (idxOf (plan s) i k).map fun l => sampleAt s (laneAt (plan s) i l) t
  if ws.all Option.isSome then some (ws.filterMap fun o => o.map fun y => y.word) else none

/-! ### Missing ticks (R55, R131, R147, R151) -/

/-- Whether a tick lies among those that a step left without an instant (R79). (DEDUCED: log entry 30.) -/
def inHole (c : Cap) (t : Nat) : Bool := c.jumps.any fun j => decide (j.1 ≤ t) && decide ((t : Int) < j.1 + j.2)

/-- Whether a tick behind the slices lost to the fabric clock belongs to the last sample among them, which the CLOCK gap covers to its end
(R71). (DEDUCED: log entry 38.) -/
def afterClock (m : Miss) (p t : Nat) : Bool := m.cause == 3 && (match m.last with | some l => decide (l < t) && decide (t < l + p) | none => false)

/-- Whether, and why, lane n is missing at tick t: in a run of missing frames (R55), or with no sample that covers t (R131); cause and
detail. -/
def lackLane (s : State) (n t : Nat) : Option (Nat × Nat) :=
  let x := lane s n
  match x.miss.find? fun m => decide (m.first ≤ t) && (match m.last with | some l => decide (t ≤ l) | none => true) with
  | some m => some (m.cause, m.detail)
  | none =>
    if (sampleAt s n t).isSome || x.miss.any (fun m => afterClock m (fmtP (pFmt (plan s) n) (pDiv (plan s) n)) t) then none
    else some (1, ((x.miss.filter fun m => decide (m.first ≤ t)).getLast?.map fun m => m.detail).getD 0)

/-- The cause, LANEMASK and DETAIL of a gap at tick t for the lanes of a key; CLOCK before LINK, DETAIL of the lowest lane index that it
names. (DEDUCED: log entry 38.) -/
def lackAt (s : State) (i k t : Nat) : Option (Nat × Nat × Nat) :=
  if inHole s.cap t then none
  else
    let l := (idxOf (plan s) i k).filterMap fun l => (lackLane s (laneAt (plan s) i l) t).map fun c => (l, c)
    match l with
    | [] => none
    | (_, c) :: _ => some ((if l.any fun p => p.2.1 == 3 then 3 else c.1), maskOfList (l.map fun p => p.1), c.2)

/-- Insert a number into a rising list. -/
def insertNat (x : Nat) (l : List Nat) : List Nat :=
  match l with
  | [] => [x]
  | y :: r => if x < y then x :: y :: r else if x = y then y :: r else y :: insertNat x r

/-- The ticks in [a, b] at which what is missing may change, rising, `a` among them. -/
def lackEdges (s : State) (i k a b : Nat) : List Nat :=
  let ofLane (n : Nat) : List Nat :=
    let x := lane s n
    let p := fmtP (pFmt (plan s) n) (pDiv (plan s) n)
    x.miss.flatMap (fun m => m.first :: (match m.last with | some l => [l + 1] | none => [])) ++
      x.samples.flatMap fun y => [y.stamp, after s.cap y.stamp p]
  let raw := ((idxOf (plan s) i k).flatMap fun l => ofLane (laneAt (plan s) i l)) ++ s.cap.jumps.flatMap fun j => [j.1, ((j.1 : Int) + j.2).toNat]
  insertNat a ((raw.filter fun e => decide (a < e) && decide (e ≤ b)).foldl (fun l e => insertNat e l) [])

/-- One gap: first and last tick, cause, LANEMASK, DETAIL. -/
structure GapPiece where
  first : Nat
  last : Nat
  cause : Nat
  mask : Nat
  detail : Nat

/-- The gaps in the ticks up to b from rising edges: a gap goes on while cause and lanes stay the same (R151). (DEDUCED: log entry 38.) -/
def lackPieces (s : State) (i k b : Nat) (es : List Nat) (cur : Option GapPiece) : List GapPiece :=
  match es with
  | [] => cur.toList
  | e :: rest =>
    let upTo := match rest with | [] => b | e' :: _ => e' - 1
    match lackAt s i k e, cur with
    | none, none => lackPieces s i k b rest none
    | none, some g => g :: lackPieces s i k b rest none
    | some (c, m, d), none => lackPieces s i k b rest (some { first := e, last := upTo, cause := c, mask := m, detail := d })
    | some (c, m, d), some g =>
      if c = g.cause ∧ m = g.mask then lackPieces s i k b rest (some { g with last := upTo })
      else g :: lackPieces s i k b rest (some { first := e, last := upTo, cause := c, mask := m, detail := d })

/-- The first tick that a key's writer has not examined. -/
def nextOf (x : Stream) (k : Nat) : Nat := tblGet x.nextTick k 0

/-- Close a key's open record before tick t (R138). -/
def closeBefore (i k t : Nat) (s : State) : State := if (strm s i).op.any fun r => r.lane == k && decide (r.ts < t) then closeLane i k (t - 1) s else s

/-- Whether a gap that reaches tick b goes on at the next tick, with the same cause and lanes (R151). -/
def gapGoesOn (s : State) (i k b : Nat) (g : GapPiece) : Bool :=
  g.last == b && (match lackAt s i k (b + 1) with | some (c, m, _) => c == g.cause && m == g.mask | none => false)

/-- The LANEMASK with which a key writes a gap: a CLOCK gap of a TRANS stream is one record, written with lane index 0 for every lane (R71). -/
def gapMask (im : Image) (i k : Nat) (g : GapPiece) : Nat :=
  if pSfmt im i = 2 ∧ g.cause = 3 then (if k = 0 then 2 ^ (pLanes im i).length - 1 else 0) else g.mask

/-- Write the gaps of one key up to tick b. A gap that goes on stays open unless `fin`. (DEDUCED: log entry 38.) -/
def emitKey (i b : Nat) (fin : Bool) (s : State) (k : Nat) : State :=
  let a := nextOf (strm s i) k
  if b < a then s
  else
    let ps := lackPieces s i k b (lackEdges s i k a b) none
    let s1 := ps.foldl (fun t g =>
      let t1 := closeBefore i k g.first t
      let m := gapMask (plan s) i k g
      if (fin || !gapGoesOn s i k b g) && m != 0 then gap i g.first g.last g.cause m g.detail t1 else t1) s
    let next := match ps.getLast? with | some g => if !fin && gapGoesOn s i k b g then g.first else b + 1 | none => b + 1
    setStrm i { strm s1 i with nextTick := tblSet (strm s1 i).nextTick k next } s1

/-- Whether the stream stores nothing for an overrun or density gap (R152, R211). -/
def stalled (x : Stream) : Bool := x.overAt.isSome || x.dens.isSome

/-- The lanes of a stream that an overrun or density gap covers at tick t: those that no other gap covers; none in a DENSE or BLOCK stream
with a lane missing (R151). -/
def freeMask (s : State) (i t : Nat) : Nat :=
  if pSfmt (plan s) i = 2 then maskOfList ((keysOf (plan s) i).filter fun k => (lackAt s i k t).isNone)
  else if (lackAt s i 0 t).isNone then 2 ^ (pLanes (plan s) i).length - 1 else 0

/-- The overrun or density gap that is open gives way where other gaps begin and takes up the lanes where they end, up to tick b (R151).
(DEDUCED: log entry 38.) -/
def splitStall (i b : Nat) (fin : Bool) (s : State) : State :=
  match stallOf (strm s i) with
  | none => s
  | some (a, _) =>
    let es := (keysOf (plan s) i).foldl (fun l k => (lackEdges s i k a b).foldl (fun l e => insertNat e l) l) []
    let s1 := (if a ≤ b then es else []).foldl (fun z e =>
      if freeMask s i e = (strm z i).overMask then z
      else if a < e then cutStall i (e - 1) e (freeMask s i e) z else setStall i a (freeMask s i e) z) s
    if fin then cutStall i b (b + 1) (freeMask s i (b + 1)) s1 else s1

/-- The writer passes the ticks up to b: gaps are written, or an overrun or density gap goes on. (DEDUCED: log entry 38.) -/
def passTo (i b : Nat) (fin : Bool) (s : State) : State := (keysOf (plan s) i).foldl (emitKey i b fin) (splitStall i b fin s)

/-- The first tick of the oldest gap that is open with the writer at tick `pos`. -/
def holdTick (s : State) (i pos : Nat) : Nat :=
  let x := strm s i
  let own := (keysOf (plan s) i).filterMap fun k =>
    let a := nextOf x k
    if decide (a ≤ pos) && (lackAt s i k a).isSome then some a else none
  let st := x.overAt.toList ++ x.dens.toList
  (own ++ st).foldl min ones64

/-! ### Events that the writer passes -/

/-- The next multiple of 524,288 that the counter reads (R138). -/
def phaseOf (s : State) (x : Stream) : Nat :=
  match s.cap.jumps.find? fun j => decide (j.1 ≤ x.phase) && decide ((x.phase : Int) < j.1 + j.2) with
  | some j => ceilDiv ((j.1 : Int) + j.2).toNat 524288 * 524288
  | none => x.phase

/-- The segment the writers are in. -/
def headSeg (s : State) : Option Seg := s.cap.segs.head?

/-- Events by tick, then kind: 0 full, 1 nucleus, 2 TIMEBASE record, 3 phase closure. -/
def nextEvent (s : State) (i pos : Nat) : Option (Nat × Nat) :=
  let x := strm s i
  let full := match x.full with | some f => if x.fullDone then [] else [(f, 0)] | none => []
  let nuc := match headSeg s with
    | some g => (match g.nuc with | some n => if x.tail || x.fullDone then [] else [(n, 1)] | none => [])
    | none => []
  let tbs := (x.q.filter fun q => q.rtype == 10 && x.op.any fun r => decide (r.ts < q.ts)).map fun q => (q.ts, 2)
  let ph := if x.fullDone then [] else [(phaseOf s x, 3)]
  ((full ++ nuc ++ tbs ++ ph).filter fun e => decide (e.1 ≤ pos)).foldl (fun b e => match b with
    | none => some e
    | some m => if e.1 < m.1 ∨ (e.1 = m.1 ∧ e.2 < m.2) then some e else some m) none

/-- The tick through which every sample of a stream is stored or covered by a GAP, with the writer past tick b (R154). -/
def throughTick (s : State) (i b : Nat) : Nat := min b (holdTick s i b - 1)

/-- The writer passes one event. -/
def passEvent (i : Nat) (e : Nat × Nat) (s : State) : State :=
  let b := e.1 - 1
  let s1 := closeAll i b (passTo i b (e.2 ≤ 1) s)
  if e.2 = 0 then
    let s2 := addDue i b (flush i b ones64 s1)
    setStrm i { strm s2 i with fullDone := true, overAt := none, dens := none } s2
  else if e.2 = 1 then
    let s2 := flush i b ones64 s1
    setStrm i { strm s2 i with tail := true, wp := (strm s2 i).c + pComaWin (plan s) i } s2
  else if e.2 = 2 then flush i b (holdTick s1 i b) s1
  else
    let s2 := flush i b (holdTick s1 i b) s1
    addDue i (throughTick s2 i b) (setStrm i { strm s2 i with phase := e.1 + 524288 } s2)

/-- The writer passes every event up to tick pos, in order. -/
def passEvents (fuel i pos : Nat) (s : State) : State :=
  match fuel with
  | 0 => s
  | f + 1 => match nextEvent s i pos with
    | none => s
    | some e => passEvents f i pos (passEvent i e s)

/-- A bound on the events up to tick pos. -/
def eventFuel (s : State) (i pos : Nat) : Nat := (pos - (strm s i).phase) / 524288 + (strm s i).q.length + 5

/-- The writer reaches tick pos: events, gaps before it, and the queued records whose turn has come; the last may make the stream full. -/
def reach (i pos : Nat) (s : State) : State :=
  let s1 := passEvents (eventFuel s i pos) i pos s
  let s2 := if (strm s1 i).fullDone then s1 else passTo i (pos - 1) false s1
  let s3 := flush i pos (holdTick s2 i pos) s2
  passEvents (eventFuel s3 i pos) i pos s3

/-! ### Backlogs (R152, R211) -/

/-- Bytes of a stream that wait: granules not in DRAM, closed records, and the data of open ones. -/
def backlog (s : State) (i : Nat) : Nat :=
  let x := strm s i
  64 * (s.dram.rt.filter fun g => g.stream == i).length + 64 * (s.dram.cells.map fun c => (c.2.filter fun g => g.stream == i).length).sum +
    (x.q.map fun q => 64 * recLen q.payload).sum + (x.op.map fun r => openSize (plan s) i r).sum

/-- A stream's share of its lanes' elastic buffers, as admission reckons it: 64 × G × T_W for what waits and 8,320 for what is being put together, as a fraction (R152,
R205). (DEDUCED: log entry 41.) -/
def shareOf (s : State) (i : Nat) : Nat × Nat :=
  let l := (pLanes (plan s) i).length
  let b := backlogShare s (plan s) i
  (b.1 * l + 8320 * b.2, b.2)

/-- Whether `n` more bytes do not fit in the share (R152). (DEDUCED: log entry 41.) -/
def tooMuch (s : State) (i n : Nat) : Bool := let sh := shareOf s i; decide (sh.1 < (backlog s i + n) * sh.2)

/-- Whether the backlog is below half its share. -/
def belowHalf (s : State) (i : Nat) : Bool := let sh := shareOf s i; decide (2 * backlog s i * sh.2 < sh.1)

/-- The bytes in the elastic buffer of lane n, with `k` more of stream i: the samples held for alignment, and the lane's part of the backlog of each of its streams
(R205), as a fraction. (DEDUCED: log entry 41.) -/
def laneFill (s : State) (n i k : Nat) : Nat × Nat :=
  let im := plan s
  let v := (fmtN (pFmt im n) * (pLalign im - laneLat s n), 8 * fmtP (pFmt im n) (pDiv im n))
  frAdd v (frSum (((pStreams im).filter fun j => (pLanes im j).contains n).map fun j =>
    (backlog s j + (if j = i then k else 0), (pLanes im j).length)))

/-- Whether `k` more bytes of a stream overflow an elastic buffer of 131,072 bytes (R211). -/
def overflows (s : State) (i k : Nat) : Bool :=
  (pLanes (plan s) i).any fun n => let x := laneFill s n i k; decide (131072 * x.2 < x.1)

/-- Whether a stream's records other than data records have exceeded the allowance of R203 in the 65,536 ticks up to tick t (R211). (DEDUCED: log entry 41.) -/
def overAllowance (s : State) (i t : Nat) : Bool :=
  let x := strm s i
  let late (ts : Nat) : Bool := decide (t < ts + 65536)
  let n := ((x.recs.filter fun m => decide (8 ≤ m.rtype) && late m.ts).map fun m => m.len).sum +
    ((x.q.filter fun q => decide (8 ≤ q.rtype) && late q.ts).map fun q => recLen q.payload).sum
  decide (2 * pMrate (plan s) i + 6 * pSegRate (plan s) + 16 < n)

/-- A TRANS sample's entries do not fit: nothing is stored from its stamp on (R152). -/
def startDensity (i t : Nat) (s : State) : State :=
  let s1 := closeAll i (t - 1) (passTo i (t - 1) true s)
  setStrm i { strm s1 i with dens := some t, overMask := freeMask s1 i t } s1

/-- A sample does not fit in the elastic buffers (R211). -/
def startOverrun (i t : Nat) (s : State) : State :=
  let s1 := closeAll i (t - 1) (passTo i (t - 1) true s)
  raise (srcQd (pStCluster (plan s) i / 4) 6) i (setSource (srcCap 11) (setStrm i { strm s1 i with overAt := some t, overMask := freeMask s1 i t } s1))

/-! ### Data records (R138 to R141) -/

/-- The GAP records that the gaps open at tick t will take, in bytes: they precede a data record that opens at t (R146). -/
def gapSpace (s : State) (i t : Nat) : Nat :=
  64 * ((keysOf (plan s) i).filter fun k => decide (nextOf (strm s i) k < t) && (lackAt s i k (nextOf (strm s i) k)).isSome).length

/-- Whether a data record that opens now, at tick t, in the linear part would reach the reserve at the largest size (R144). The records that
precede it and those of other lanes still open, at the largest size, take their space first. (DEDUCED: log entry 19.) -/
def noRoom (s : State) (i t : Nat) : Bool :=
  let x := strm s i
  x.tail && decide (reserveAt (plan s) i < x.wp + spoken x t + gapSpace s i t + 4160)

/-- Open a data record, or become full at its stamp (R144). (DEDUCED: log entry 19.) -/
def openData (i k t : Nat) (ws : List (BitVec 16)) (s : State) : State :=
  if noRoom s i t then
    let s1 := becomeFull i t s
    passEvents (eventFuel s1 i t) i t s1
  else
    let x := strm s i
    setStrm i { x with op := x.op ++ [{ ts := t, lane := k, coma := !x.tail, pos := [(t, ws)] }] } s

/-- The open record of a key. -/
def openOf (s : State) (i k : Nat) : Option OpenRec := (strm s i).op.find? fun r => r.lane == k

/-- Replace the open record of a key. -/
def setOpen (i k : Nat) (r : OpenRec) (s : State) : State :=
  let x := strm s i
  setStrm i { x with op := x.op.map fun y => if y.lane == k then r else y } s

/-- Store a position of a DENSE or BLOCK stream. -/
def storeDense (i t : Nat) (ws : List (BitVec 16)) (s : State) : State :=
  let im := plan s
  let n := ceilDiv (bitsLen (wordFields (stN im i) ws)) 8
  if overflows s i n && overAllowance s i t then startOverrun i t s
  else match openOf s i 0 with
    | none => openData i 0 t ws s
    | some r =>
      let r1 := { r with pos := (t, ws) :: r.pos }
      if openSize im i r1 > 4096 then openData i 0 t ws (closeLane i 0 (t - 1) s)
      else
        let s1 := setOpen i 0 r1 s
        if openSize im i r1 = 4096 then closeLane i 0 t s1 else s1

/-- A gated record closes after 64 groups with a zero mask (R139). -/
def staleGroups (s : State) (i t : Nat) : Bool :=
  let im := plan s
  stGated im i && !stIsState im i && (match openOf s i 0 with
    | some r => (match r.pos with
      | (u, _) :: _ => decide ((u - r.ts) / stP im i / 64 + 64 < (t - r.ts) / stP im i / 64)
      | [] => false)
    | none => false)

/-- Store a sample of a TRANS stream: an entry where its word differs (R140). -/
def storeTrans (i k t : Nat) (ws : List (BitVec 16)) (s : State) : State :=
  let im := plan s
  let n := transEntry (stN im i)
  match openOf s i k with
  | none => openData i k t ws s
  | some r =>
    let same := match r.pos with | (_, vs) :: _ => vs == ws | [] => false
    if same then s
    else if tooMuch s i n then startDensity i t s
    else
      let r1 := { r with pos := (t, ws) :: r.pos }
      if openSize im i r1 > 4096 then openData i k t ws (closeLane i k (t - 1) s)
      else
        let s1 := setOpen i k r1 s
        if openSize im i r1 = 4096 then closeLane i k (t + stP im i - 1) s1 else s1

/-- The gate of group g at tick t (R114). -/
def gateAt (s : State) (g t : Nat) : Bool :=
  match s.au.gateHist.find? fun h => decide (h.1 ≤ t) && decide (t < h.1 + 32) with
  | some h => (h.2.getD (t - h.1) 0).getLsbD g
  | none => false

/-- Whether the slot at tick t of a stream of STATE lanes is a state: channel 15 is 1 on lane index 0 (R136). -/
def isStateSlot (s : State) (i t : Nat) : Bool :=
  match sampleAt s (laneAt (plan s) i 0) t with | some y => y.word.getLsbD 15 | none => false

/-- Whether the sample with stamp t is stored, once the writer has reached it (R136): the coma keeps samples only with COMADEPTH above 0,
the tail only with TAILDEPTH above 0 (R134). -/
def qualifies (s : State) (i t : Nat) : Bool :=
  let im := plan s
  let depth := if (strm s i).tail then pTailDepth im else pComaDepth im
  decide (0 < depth) && (!stGated im i || gateAt s (pQsel im i) t) &&
    (!stIsState im i || isStateSlot s i t)

/-- The writer takes the sample of key k with stamp t. -/
def takeSample (i k t : Nat) (s : State) : State :=
  let s1 := reach i t s
  let x := strm s1 i
  let im := plan s
  let done (z : State) : State := setStrm i { strm z i with nextTick := tblSet (strm z i).nextTick k (max (nextOf (strm z i) k) (t + 1)) } z
  if fullBy x t || stalled x then done s1
  else match wordsAt s1 i k t with
    | none => s1
    | some ws =>
      let s2 := if staleGroups s1 i t then closeLane i 0 (t - 1) s1 else s1
      let s3 :=
        if qualifies s2 i t then (if pSfmt im i = 2 then storeTrans i k t ws s2 else storeDense i t ws s2)
        else if !stGated im i && !stIsState im i && pSfmt im i != 2 then closeLane i 0 (t - 1) s2
        else s2
      let s4 := done s3
      flush i t (holdTick s4 i t) s4

/-- The stamps of key k from tick a to tick b at which every lane has a sample (R131). -/
def presentStamps (s : State) (i k a b : Nat) : List Nat :=
  ((lane s (laneAt (plan s) i (if pSfmt (plan s) i = 2 then k else 0))).samples.filter fun y =>
    decide (a ≤ y.stamp) && decide (y.stamp ≤ b) && (wordsAt s i k y.stamp).isSome).map fun y => y.stamp

/-- The samples of a stream not yet taken with stamps up to b: (stamp, key). -/
def waitingSamples (s : State) (i b : Nat) : List (Nat × Nat) :=
  (keysOf (plan s) i).flatMap fun k => (presentStamps s i k (nextOf (strm s i) k) b).map fun t => (t, k)

/-! ### Segments (R134, R142, R143, R147) -/

/-- COMASTART (R134). (DEDUCED: log entry 39.) -/
def comaStart (im : Image) (g : Seg) (e : Nat) : Nat :=
  match g.nuc with
  | some n => max g.s (n - pComaDepth im)
  | none => max g.s (e + 1 - pComaDepth im)

/-- Whether the coma is cut short by the segment's start (R134). -/
def comaCut (im : Image) (g : Seg) (e : Nat) : Bool :=
  decide ((match g.nuc with | some n => n | none => e + 1) < g.s + pComaDepth im)

/-- COMAFIRST, COMAEND and SEQFIRST (R143, R147); where the segment has no coma record at all, both addresses are C. (DEDUCED: log entry 39.) -/
def retained (x : Stream) (start : Nat) : Nat × Nat × Nat :=
  let mine := x.recs.filter fun m => m.segno == x.segno
  let coma := mine.filter fun m => m.coma && !m.gone
  let fin := match mine.find? fun m => m.coma with | some m => m.addr + 64 * m.len | none => x.c
  match (coma.filter fun m => decide (start ≤ m.last)).getLast? with
  | some m => (m.addr, fin, m.seq)
  | none => (fin, fin, match (mine.filter fun m => !m.coma).getLast? with | some m => m.seq | none => x.seq)

/-- The payload of a SEGMENT record (R147). -/
def segPayload (im : Image) (i : Nat) (x : Stream) (g : Seg) (e : Nat) : List Byte :=
  let full := x.full.isSome
  let nuc := if full && !x.tail then none else g.nuc
  let start := comaStart im g e
  let r := retained x start
  let org := if nuc.isSome then g.org else none
  let ev := match org with | some o => o.ev | none => none
  let absent := match org with | some o => o.ev.isNone | none => false
  let flags := b2n nuc.isNone + 2 * b2n g.stopped + 4 * b2n full + 8 * b2n (comaCut im g e) + 16 * b2n (nuc.isSome && g.forcedOnly) +
    32 * b2n ev.isSome + 64 * b2n absent
  leBytes 4 g.no ++ leBytes 2 flags ++ leBytes 2 0 ++ leBytes 8 (nuc.getD 0) ++ leBytes 8 start ++ leBytes 8 e ++
    leBytes 8 r.1 ++ leBytes 8 r.2.1 ++ leBytes 8 (x.c + pComaWin im i) ++ leBytes 8 r.2.2 ++
    leBytes 8 (ev.map (fun c => c.otick) |>.getD 0) ++ leBytes 1 (ev.map (fun c => c.origin) |>.getD 0) ++ leBytes 3 0 ++ leBytes 4 g.ign

/-- A stream's segment g ends at tick e: gaps and records up to e, the SEGMENT record in the linear part, the region pointer, and a COMMIT
entry; a full stream is then inactive (R142, R144, R155). -/
def endStream (g : Seg) (e : Nat) (s : State) (i : Nat) : State :=
  let s1 := reach i e s
  let s2 := if (strm s1 i).fullDone then s1 else passTo i e true s1
  let s3 := flush i e ones64 (closeAll i e s2)
  let s4 := passEvents (eventFuel s3 i e) i e s3
  let x := strm s4 i
  let im := plan s
  let p := segPayload im i x g e
  let atC := x.full.isSome && !x.tail
  let s5 := writeRec i { rtype := 11, flags := 0, ts := g.s, payload := p, last := g.s }
    (setStrm i { x with tail := true, wp := if x.tail || atC then x.wp else x.c + pComaWin im i } s4)
  let y := strm s5 i
  let s6 := addDue i e s5
  setStrm i { strm s6 i with c := y.wp, wp := y.wp, tail := false, active := x.full.isNone } s6

/-- The next segment starts at tick t: a stream whose coma window would reach into the reserve is full from there on (R144). -/
def startStream (t : Nat) (s : State) (i : Nat) : State :=
  let x := strm s i
  let s0 := setStrm i { x with wp := x.c, segno := x.segno + 1 } s
  if reserveAt (plan s) i < x.c + pComaWin (plan s) i then
    let s1 := becomeFull i t s0
    passEvents (eventFuel s1 i t) i t s1
  else s0

/-- The active streams. -/
def activeStreams (s : State) : List Nat := (s.streams.filter fun p => p.2.active).map fun p => p.1

/-- The head segment ends in every active stream, and the next one starts (R142). -/
def endSegment (g : Seg) (e : Nat) (s : State) : State :=
  let s1 := setSource (srcCap 5) ((activeStreams s).foldl (endStream g e) s)
  let s2 := { s1 with cap := { s1.cap with segs := s1.cap.segs.drop 1, ended := s1.cap.ended + 1 } }
  match s2.cap.segs.head? with
  | some h => (activeStreams s2).foldl (startStream h.s) s2
  | none => s2

end Sys2Proof.Machine
end

