-- ==== Sys2Proof/Machine/Capture.lean ====
section
/-! DEFINITION. The life of a capture: ARM, its T0, STOP, DISARM, the events of the writers, and the ends of R135, R26, R374 and R71. -/

namespace Sys2Proof.Machine

/-! ### ARM and T0 (R106, R131, R252) -/

/-- T0 of an ARM accepted now (R252). -/
def armTick (e : Entry) (s : State) : Nat := if eOpt e then pn e.p1 else 32 * ceilDiv (s.tb.tick + 8192) 32

/-- The parameter checks of ARM (R252). -/
def armBad (e : Entry) (s : State) : Bool :=
  pn e.p0 == 0 || decide (65536 < pn e.p0) ||
    (if eOpt e then pn e.p1 % 32 != 0 || decide (pn e.p1 < s.tb.tick + 8192) else pn e.p1 != 0)

/-- Whether a stream of an ended capture is still open (R252). (DEDUCED: log entry 34.) -/
def oldStreamOpen (s : State) : Bool :=
  s.rings.any fun p => match p.2.bound with | some b => s.cap.state == .ended || !b.live | none => false

/-- Whether a search or extract job is open (R265). -/
def recordJobOpen (s : State) : Bool := s.jobs.any fun j => j.kind == .search || j.kind == .extract

/-- The state refusals of ARM (R252, R265, R209). -/
def armBusy (s : State) : Option Refuse :=
  if armed s || s.plans.active.isNone || oldStreamOpen s || recordJobOpen s then some (plainRefuse stBusy)
  else (armFail s).map plainRefuse

/-- What stays known of an ended capture while an ARM waits (R255). -/
def pastOf (c : Cap) : CapPast := { origin := c.origin, ring := c.ring, tag := c.tag, count := c.count, t0 := c.t0, reason := c.reason }

/-- ARM. -/
def doArm (r : Nat) (e : Entry) : State → State :=
  submit r opArm e { baseRow opArm with
    bad := armBad e,
    busy := armBusy,
    acc := fun s => (BitVec.ofNat 64 (armTick e s), BitVec.ofNat 64 (planId (plan s))),
    run := fun o s0 =>
      let s := startOrbits s0
      let c : Cap := { s.cap with state := .waiting, origin := o, ring := r, tag := e.tag, count := pn e.p0, t0 := armTick e s,
                                  reason := none, closing := false, past := if s.cap.anyBegun then some (pastOf s.cap) else none }
      setSource (srcCap 1) { s with cap := c } }

/-- The meaning of ARM. -/
def execArm (r : Nat) (e : Entry) (s : State) : Out := engineStep s (doArm r e s)

/-- A stream as it becomes active at T0 (R131, R142, R146). -/
def freshStream (im : Image) (i t0 : Nat) : Stream :=
  { Stream.reset with active := true, c := pBase im i, wp := pBase im i, phase := (t0 / 524288 + 1) * 524288,
                      nextTick := (keysOf im i).map fun k => (k, t0) }

/-- The automata at T0 (R106, R111 to R114). Edges still due, pulses and cascade events belong to the pins and lanes, not to the capture. -/
def freshAutos (im : Image) (a : Autos) : Autos :=
  { a with autos := (List.range 8).map fun k => { Auto.reset with st := pInit im k }, timers := List.replicate 32 Timer.reset,
           hist := [], lastSlice := none, gateHist := [], hevs := [], forced := [], applied := [] }

/-- The segment that starts at T0. -/
def firstSeg (t0 : Nat) : Seg :=
  { no := 0, s := t0, nuc := none, e := none, ign := 0, forcedOnly := false, stopped := false, org := none }

/-- Whether the active plan is a peak plan (R372). -/
def peakPlan (s : State) : Bool := decide (240 < pPeak (plan s))

/-- CAPTURE_BEGIN: the counter has reached T0. -/
def doCaptureBegin (s : State) : State :=
  if s.cap.state = .waiting ∧ s.cap.t0 ≤ s.tb.tick then
    let im := plan s
    let t0 := s.cap.t0
    let s1 := { s with
      streams := (pStreams im).map fun i => (i, freshStream im i t0),
      au := freshAutos im s.au,
      lanes := s.lanes.map fun p => (p.1, { p.2 with hist := LaneHist.reset }),
      cap := { s.cap with state := .running, segs := [firstSeg t0], begun := 1, ended := 0, endAt := none, anyBegun := true, jumps := [] } }
    let s2 := if tbState s = tbEclipse ∨ tbState s = tbReacquire then
        intoActive (timebaseRec t0 5 (tbState s) (tbOffset s) s.tb.lastEclipse 0) s1
      else s1
    let s3 := if peakPlan s then setRf 0x50000 24 24 1 { s2 with pwr := { s2.pwr with peakStart := nowT s2, peakDone := false } } else s2
    setSource (srcCap 2) (jcommit (.capture false none s.cap.tag t0) s3)
  else s

/-- The meaning of CAPTURE_BEGIN. -/
def execCaptureBegin (s : State) : Out := engineStep s (doCaptureBegin s)

/-! ### STOP and DISARM (R135, R252) -/

/-- The first tick of the next slice (R135). (DEDUCED: log entry 35.) -/
def nextBoundary (s : State) : Nat := 32 * (s.tb.tick / 32 + 1)

/-- A capture runs and its last tick has not passed (R135). -/
def captureOn (s : State) : Bool :=
  capRunning s && (match s.cap.endAt with | some (l, _) => decide (s.tb.tick ≤ l) | none => true)

/-- The long command that STOP with OPT = 1 names: the oldest open one of the ring with the tag, which is no ARM (R252). (DEDUCED: log entry 35.) -/
def abortTarget (e : Entry) (s : State) : Option Cmd :=
  s.cmds.find? fun c => c.ring == pf e.p0 15 0 && c.tag.toNat == pf e.p1 31 0 && isLong c.opcode && c.opcode != opArm

/-- The row of STOP: with OPT = 0 the running capture ends at the next slice boundary (R135); with OPT = 1 an abort of the named command is
ordered, which its home sequencer takes as an ABORT trap (R252, R304). -/
def stopRow (e : Entry) : CmdRow :=
  { baseRow opStop with
    bad := fun s => eOpt e && (abortTarget e s).isNone,
    busy := busyIf fun s => !eOpt e && !captureOn s,
    run := fun o s =>
      if eOpt e then
        finishCmd o stDone 0 0 0 (match abortTarget e s with | some c => raiseTrap c.home .abort c.origin s | none => s)
      else finishCmd o stDone (BitVec.ofNat 64 (nextBoundary s)) 0 0 (orderEnd (nextBoundary s - 1) .stop s) }

/-- STOP. (DEDUCED: log entry 35.) -/
def doStop (r : Nat) (e : Entry) : State → State := submit r opStop e (stopRow e)

/-- The meaning of STOP. -/
def execStop (r : Nat) (e : Entry) (s : State) : Out := engineStep s (doStop r e s)

/-- ABORT_COMMAND: STOP with OPT = 1. -/
def doAbortCommand (r : Nat) (e : Entry) : State → State := submit r opStop e (stopRow e)

/-- The meaning of ABORT_COMMAND. -/
def execAbortCommand (r : Nat) (e : Entry) (s : State) : Out := engineStep s (doAbortCommand r e s)

/-- DISARM: the waiting ARM ends ABORTED with zero results. (DEDUCED: log entry 24.) -/
def doDisarm (r : Nat) (e : Entry) : State → State :=
  submit r opDisarm e { baseRow opDisarm with
    busy := busyIf fun s => s.cap.state != .waiting,
    run := fun o s0 =>
      let s := endOrbits s0
      let t : State := { s with cap := unarm s.cap }
      finishCmd o stDone 0 0 0 (finishCmd s.cap.origin stAborted 0 0 0 t) }

/-- The meaning of DISARM. -/
def execDisarm (r : Nat) (e : Entry) (s : State) : Out := engineStep s (doDisarm r e s)

/-! ### Samples (R137) -/

/-- The automata have evaluated the slice of tick t. -/
def evaluated (s : State) (t : Nat) : Bool := match s.au.lastSlice with | some l => decide (t ≤ l + 31) | none => false

/-- Whether the sample of key k with stamp t leaves the delay line into the writer now: it has passed 6,144 ticks, it lies in the current
segment, and everything before it has left (R15, R137). (DEDUCED, DESIGN CHOICE: log entries 10 and 38.) -/
def leavesNow (s : State) (i k t : Nat) : Bool :=
  capRunning s && (strm s i).active && (keysOf (plan s) i).contains k && decide (t + 6144 ≤ s.tb.tick) && evaluated s t &&
    decide (nextOf (strm s i) k ≤ t) && (presentStamps s i k t t).contains t &&
    (match headSeg s with
      | some g => (match g.e with | some e => decide (t ≤ e) | none => true)
      | none => false) &&
    (waitingSamples s i t).all (fun w => decide (t ≤ w.1)) &&
    (activeStreams s).all fun j => (waitingSamples s j t).all fun w => decide (32 * (t / 32) ≤ w.1)

/-- The samples of key k at tick t as the elastic buffers give them (R191): the j-th lane's word has bits 16j to 16j + 15 flipped. (DESIGN CHOICE: log entry 78.) -/
def flipSamples (i k t flips : Nat) (s : State) : State :=
  ((idxOf (plan s) i k).zip (List.range 8)).foldl (fun z p =>
    let n := laneAt (plan z) i p.1
    let x := lane z n
    setLane n { x with samples := x.samples.map fun y =>
      if y.stamp = t then { y with word := y.word ^^^ BitVec.ofNat 16 (flips / 2 ^ (16 * p.2)) } else y } z) s

/-- An error in an elastic buffer or, for a word on its way into a record, in a writer buffer (R191). (DEDUCED: log entry 45.) -/
def bufferError (i k t : Nat) (qe : Option QuadErr) (s : State) : State :=
  let q := pStCluster (plan s) i / 4
  match qe with
  | some (.ebUncor x) => raise (srcQd q 4) t (flipSamples i k t x s)
  | some .ebCor => raise (srcQd q 3) t s
  | some .shadow => setStrm i { strm s i with vbad := true } s
  | _ => s

/-- SAMPLE_LEAVES_DELAY_LINE. -/
def doSampleLeaves (i k t : Nat) (qe : Option QuadErr) (s : State) : State :=
  if leavesNow s i k t then tryCommitAll (takeSample i k t (bufferError i k t qe s)) else s

/-- The meaning of SAMPLE_LEAVES_DELAY_LINE. -/
def execSampleLeavesDelayLine (st l stamp : Nat) (qe : Option QuadErr) (s : State) : Out :=
  engineStep s (doSampleLeaves st l stamp qe s)

/-! ### Ends of overruns (R152, R211) -/

/-- The slice boundary at which a stalled stream resumes: not before what the writer has passed. -/
def resumeTick (s : State) (i : Nat) : Nat :=
  let x := strm s i
  32 * ceilDiv ((keysOf (plan s) i).foldl (fun m k => max m (nextOf x k)) (s.tb.tick - 6144)) 32

/-- Whether a stalled stream may resume at tick b: below half its share, and b in the current segment. -/
def mayResume (s : State) (i b : Nat) : Bool :=
  (strm s i).active && belowHalf s i && evaluated s b &&
    (match headSeg s with | some g => (match g.e with | some e => decide (b ≤ e) | none => true) | none => false)

/-- WRITER_OVERRUN_RESUME: one GAP with cause FAULT, and the stream goes on at b. -/
def doOverrunResume (i : Nat) (s : State) : State :=
  let b := resumeTick s i
  if (strm s i).overAt.isSome && mayResume s i b then
    let s1 := passTo i (b - 1) true (passEvents (eventFuel s i (b - 1)) i (b - 1) s)
    let s2 := setStrm i { strm s1 i with overAt := none } s1
    tryCommitAll (flush i (b - 1) (holdTick s2 i (b - 1)) s2)
  else s

/-- The meaning of WRITER_OVERRUN_RESUME. -/
def execWriterOverrunResume (st : Nat) (s : State) : Out := engineStep s (doOverrunResume st s)

/-- The TRANS records that open at b with the current values (R152). -/
def reopenTrans (i b : Nat) (s : State) : State :=
  (keysOf (plan s) i).foldl (fun z k =>
    match wordsAt z i k b with
    | some ws =>
      let z1 := openData i k b ws z
      setStrm i { strm z1 i with nextTick := tblSet (strm z1 i).nextTick k (b + 1) } z1
    | none => z) s

/-- DENSITY_RECOVERY: one GAP with cause DENSITY, and new TRANS records at b. -/
def doDensityRecovery (i : Nat) (s : State) : State :=
  let b := resumeTick s i
  if (strm s i).dens.isSome && mayResume s i b then
    let s1 := passTo i (b - 1) true (passEvents (eventFuel s i b) i b s)
    let s2 := setStrm i { strm s1 i with dens := none } s1
    let s3 := flush i (b - 1) (holdTick s2 i (b - 1)) s2
    tryCommitAll (if fullBy (strm s3 i) b then s3 else reopenTrans i b s3)
  else s

/-- The meaning of DENSITY_RECOVERY. -/
def execDensityRecovery (st : Nat) (s : State) : Out := engineStep s (doDensityRecovery st s)

/-! ### Phase closures (R138, R155) -/

/-- Whether a stream's next phase closure is due: the writer has passed everything before it. -/
def phaseDue (s : State) (i : Nat) : Bool :=
  let x := strm s i
  let m := phaseOf s x
  x.active && !x.fullDone && decide (m + 6144 ≤ s.tb.tick) && evaluated s (m - 1) && (waitingSamples s i (m - 1)).isEmpty &&
    (match headSeg s with | some g => (match g.e with | some e => decide (m ≤ e + 1) | none => true) | none => false)

/-- PHASE_CLOSURE: in every active stream whose writer has come to the multiple of 524,288. -/
def doPhaseClosure (s : State) : State :=
  tryCommitAll ((activeStreams s).foldl (fun z i =>
    if phaseDue s i then passEvents (eventFuel z i (phaseOf s (strm s i))) i (phaseOf s (strm s i)) z else z) s)

/-- The meaning of PHASE_CLOSURE. -/
def execPhaseClosure (s : State) : Out := engineStep s (doPhaseClosure s)

/-! ### Segment and capture ends (R134, R135, R142) -/

/-- SEGMENT_END: the last tail sample has left the delay line and been taken. (DESIGN CHOICE: log entry 8.) -/
def doSegmentEnd (s : State) : State :=
  match headSeg s with
  | some g => match g.e with
    | some e =>
      if capRunning s && decide (e + 6144 ≤ s.tb.tick) && evaluated s e && (activeStreams s).all fun i => (waitingSamples s i e).isEmpty then
        tryCommitAll (endSegment g e s)
      else s
    | none => s
  | none => s

/-- The meaning of SEGMENT_END. -/
def execSegmentEnd (s : State) : Out := engineStep s (doSegmentEnd s)

/-- Every stream becomes inactive with a last COMMIT entry, and the capture is over (R135, R155). (DEDUCED: log entries 32 and 33.) -/
def closeCapture (last : Nat) (r : EndReason) (s : State) : State :=
  let s1 := (activeStreams s).foldl (fun z i => addDue i last z) s
  let s2 := raiseAllHevs { s1 with
    streams := s1.streams.map fun p => (p.1, { p.2 with active := false, op := [], q := [], overAt := none, dens := none }),
    au := { s1.au with forced := [], gateHist := [] },
    cap := { s1.cap with state := .ended, segs := [], endAt := none, lastTick := last, reason := some r, closing := true } }
  let s3 := (List.range 8).foldl (fun z a => setRf (taBase a + 4) 12 12 0 z) s2
  tryCommitAll (setSource (srcCap 3) (setReg 0x50018 0#32 (setRf 0x50000 24 24 0 s3)))

/-- CAPTURE_END: the last segment has ended. -/
def doCaptureEnd (s : State) : State :=
  match s.cap.endAt with
  | some (l, r) => if capRunning s && s.cap.segs.isEmpty && decide (l < s.tb.tick) then closeCapture l r s else s
  | none => s

/-- The meaning of CAPTURE_END. -/
def execCaptureEnd (s : State) : Out := engineStep s (doCaptureEnd s)

/-! ### Stops by reset and by the trip (R26, R374) -/

/-- Evaluate the slices up to tick `last`. -/
def evalTo (fuel last : Nat) (s : State) : State :=
  match fuel with
  | 0 => s
  | f + 1 =>
    if nextSlice s ≤ last then
      evalTo f last (evalSlice (nextSlice s) (trigLines (sampleTrig [] s) (nextSlice s)) [] (sampleTrig [] s))
    else s

/-- The oldest waiting sample of the active streams with a stamp up to b: stamp, stream, key. -/
def oldestWaiting (s : State) (b : Nat) : Option (Nat × Nat × Nat) :=
  ((activeStreams s).flatMap fun i => (waitingSamples s i b).map fun w => (w.1, i, w.2)).foldl (fun m w => match m with
    | none => some w
    | some v => if w.1 < v.1 then some w else m) none

/-- Take every waiting sample up to tick b, oldest first. -/
def drainTo (fuel b : Nat) (s : State) : State :=
  match fuel with
  | 0 => s
  | f + 1 => match oldestWaiting s b with
    | none => s
    | some (t, i, k) => drainTo f b (takeSample i k t s)

/-- The number of waiting samples up to tick b. -/
def waitingCount (s : State) (b : Nat) : Nat := ((activeStreams s).map fun i => (waitingSamples s i b).length).sum

/-- End the segments up to tick `last`, each with the samples before it. (DEDUCED: log entry 35.) -/
def stopSegments (fuel last : Nat) (s : State) : State :=
  match fuel with
  | 0 => s
  | f + 1 => match headSeg s with
    | none => s
    | some g =>
      let e := g.e.getD last
      stopSegments f last (endSegment g e (drainTo (waitingCount s e) e s))

/-- The last tick that the samples delivered on lane n cover. -/
def coveredTo (s : State) (n : Nat) : Nat :=
  match (lane s n).samples.getLast? with
  | some y => after s.cap y.stamp (fmtP (pFmt (plan s) n) (pDiv (plan s) n) - 1)
  | none => 0

/-- The GAP after the last segment over samples that were delivered and not stored, from tick ts on (R26, R151, R374). -/
def closingGap (ts cause : Nat) (s : State) (i : Nat) : State :=
  let im := plan s
  (keysOf im i).foldl (fun z k =>
    let ls := idxOf im i k
    let l := ls.foldl (fun m j => max m (coveredTo z (laneAt im i j))) 0
    if l < ts then z
    else setSource (srcCap 9)
      (writeRec i { rtype := 8, flags := 0, ts := ts, last := l, payload := gapPayload l cause (maskOfList ls) 0 }
        (setStrm i { strm z i with tail := true } z))) s

/-- Every granule that waits is in DRAM. (DEDUCED: log entry 33.) -/
def flushRt (s : State) : State :=
  let s1 := cellsIn s
  s1.dram.rt.foldl (fun z g => writeDram g.addr g.bytes z) { s1 with dram := { s1.dram with rt := [] } }

/-- The JSEQ of a journal write. -/
def journalOf (r : DReq) : Option Nat := match r.by_ with | .journal j => some j | _ => none

/-- The journal writes that wait are done, then those of the entries that this lets the engine commit (R26, R155). The COMMIT entries of a capture are followed by the
entries of its end, and nothing follows those: a fuel of 4 is never used up. (DEDUCED: log entry 33.) -/
def journalNow (fuel : Nat) (s : State) : State :=
  match fuel with
  | 0 => s
  | f + 1 =>
    let rs := s.dram.subs.flatMap fun p => p.2.reqs.filter fun r => (journalOf r).isSome
    if rs.isEmpty then s
    else
      let s1 := { s with dram := { s.dram with subs := s.dram.subs.map fun p => (p.1, { p.2 with reqs := p.2.reqs.filter fun r => (journalOf r).isNone }) } }
      journalNow f (tryCommitAll (rs.foldl (fun z r => match journalOf r with
        | some j => jwritten j (writeDram r.addr (r.data.getD []) z)
        | none => z) s1))

/-- The running capture stops at the next slice boundary, with everything before it stored and committed (R26, R374). An ARM that waits for
T0 has no capture; one whose capture has ended ends once its last records are in DRAM. (DEDUCED: log entry 32.) -/
def hardStop (r : EndReason) (cause : Nat) (s : State) : State :=
  if !capRunning s then journalNow 4 (tryCommitAll (flushRt s))
  else
    let ts := nextBoundary s
    let s1 := orderEnd (ts - 1) r s
    let s2 := match s1.cap.endAt with
      | none => s1
      | some (l, _) => evalTo ((l + 1 - nextSlice s1) / 32 + 1) l s1
    match s2.cap.endAt with
    | none => s2
    | some (l, why) =>
      let s3 := stopSegments (s2.cap.segs.length + 1) l s2
      let s4 := if l + 1 = ts then (activeStreams s3).foldl (closingGap ts cause) s3 else s3
      journalNow 4 (closeCapture l why (flushRt s4))

/-! ### The fabric clock machine check (R71) -/

/-- The tick through which a stream's records in DRAM, up to `d`, hold everything: to before the next record. (DEDUCED: log entry 32.) -/
def storedThrough (x : Stream) (d : RecMeta) : Nat :=
  let later := (x.recs.filter fun m => decide (d.seq < m.seq)).map (fun m => m.ts) ++ x.op.map (fun r => r.ts) ++ x.q.map (fun q => q.ts) ++
    x.nextTick.map fun p => p.2
  later.foldl min ones64 - 1

/-- A COMMIT entry for the records already in DRAM that none names yet (R71). (DEDUCED: log entry 32.) -/
def commitStored (i : Nat) (s : State) : State :=
  let x := strm s i
  let known := match x.commit with | some c => c.seq | none => none
  match x.recs.find? fun m => dueReady s i { segno := m.segno, seq := some m.seq, next := 0, through := 0 } with
  | some m =>
    let new := match known with | some q => decide (q < m.seq) | none => true
    if new then
      let d : CommitDue := { segno := m.segno, seq := some m.seq, next := m.addr + 64 * m.len, through := storedThrough x m }
      jcommit (.commit i d) s
    else s
  | none => s

/-- FABRIC_CLOCK_MACHINE_CHECK: no fabric PLL has locked for 20 µs. COMMIT entries whose records are in DRAM are committed, the rest of the
capture is lost, and ARM ends; only SYS_RESET_N recovers the engine. (DEDUCED: log entry 32.) -/
def doFabricCheck (s : State) : State :=
  match s.tb.fabLost with
  | none => s
  | some a =>
    if nowT s < s.tb.fabAt + 1024000 || pllLocked s 0 || pllLocked s 1 then s
    else
      let s1 :=
        if capRunning s then
          let last := match s.cap.endAt with | some (l, _) => min l (a - 1) | none => a - 1
          let s2 : State := s.streams.foldl (fun z p => commitStored p.1 (commitDues p.2.due.length p.1 z)) s
          let s3 : State := { s2 with streams := s2.streams.map fun (p : Nat × Stream) => (p.1, { p.2 with active := false, due := [], op := [], q := [] }) }
          closeCapture last .machineCheck { s3 with dram := { s3.dram with rt := [], cells := [] } }
        else if s.cap.closing then
          let s2 : State := s.streams.foldl (fun z p => commitStored p.1 (commitDues p.2.due.length p.1 z)) s
          tryFinishArm { s2 with streams := s2.streams.map fun (p : Nat × Stream) => (p.1, { p.2 with due := [] }),
                                 cap := { s2.cap with reason := some .machineCheck }, dram := { s2.dram with rt := [], cells := [] } }
        else s
      let s4 := journalNow 4 s1
      { s4 with tb := { s4.tb with dead := true } }

/-- The meaning of FABRIC_CLOCK_MACHINE_CHECK. -/
def execFabricClockMachineCheck (s : State) : Out := engineStep s (doFabricCheck s)

end Sys2Proof.Machine
end

