-- ==== Sys2Proof/Machine/Predicate.lean ====
section
/-! DEFINITION. What search and extract read (R265), stored samples read back from records (R139 to R141), and search predicates (R267
to R269). -/

namespace Sys2Proof.Machine

/-! ### Selected records (R265) -/

/-- A field of a record, among its first bytes. -/
def recLE (m : RecMeta) (off n : Nat) : Nat := leVal ((m.head.drop off).take n)

/-- The last tick of a record's span. -/
def spanEnd (s : State) (i : Nat) (m : RecMeta) : Nat :=
  if m.rtype = 1 ∨ m.rtype = 3 then m.last + stP (plan s) i - 1
  else if m.rtype = 2 then m.ts + recLE m 20 4 - 1
  else if m.rtype = 8 then recLE m 16 8
  else if m.rtype = 11 then recLE m 40 8
  else m.ts

/-- A committed record as a job reads it: the retained coma, the tail and the SEGMENT record of a segment whose SEGMENT record is committed,
and the tail of the current segment; no PAD record, and none that stands behind the last SEGMENT record. `ends` are the committed SEGMENT records. -/
def jobReads (ends : List RecMeta) (m : RecMeta) : Bool :=
  m.rtype != 15 && !m.gone &&
    (match ends.find? fun g => g.segno == m.segno with
      | some g => decide (m.seq ≤ g.seq) && (!m.coma || (decide (recLE g 72 8 ≤ m.seq) && recLE g 48 8 != recLE g 56 8))
      | none => !m.coma)

/-- The records a job reads, in SEQ order, that its window selects. -/
def selectRecs (s : State) (i first last : Nat) : List RecMeta :=
  let done := (strm s i).recs.filter fun m => decide (m.seq < committedTo s i)
  let ends := done.filter fun m => m.rtype == 11
  ((done.filter (jobReads ends)).filter fun m => decide (m.ts ≤ last) && decide (first ≤ spanEnd s i m)).reverse

/-- COMASTART of a record's segment; the tail records of a segment without SEGMENT record are all in it. -/
def segStart (s : State) (i : Nat) (m : RecMeta) : Nat :=
  match (strm s i).recs.find? fun g => g.rtype == 11 && g.segno == m.segno with
  | some g => recLE g 32 8
  | none => 0

/-! ### Stored samples (R139, R141) -/

/-- The bits [lo + n − 1:lo] of a byte string. -/
def bitsOf (v lo n : Nat) : Nat := v / 2 ^ lo % 2 ^ n

/-- The samples of the ungated layout from position j on. -/
def denseUngated (v w ts p k j : Nat) : List (Nat × Nat) :=
  match k with
  | 0 => []
  | n + 1 => (ts + j * p, bitsOf v (j * w) w) :: denseUngated v w ts p n (j + 1)

/-- The samples of a STATE record: distances in 16-tick slots. -/
def denseState (v w t lo k : Nat) : List (Nat × Nat) :=
  match k with
  | 0 => []
  | n + 1 => let u := t + 16 * bitsOf v lo 16; (u, bitsOf v (lo + 16) w) :: denseState v w u (lo + 16 + w) n

/-- The samples of the gated layout, group by group from bit `lo` on. -/
def denseGated (v w ts p lo g k : Nat) : List (Nat × Nat) :=
  match k with
  | 0 => []
  | n + 1 =>
    let mask := bitsOf v lo 64
    let ps := numsWhere 64 (bit mask)
    let here := (ps.zip (List.range 64)).map fun x => (ts + (64 * g + x.1) * p, bitsOf v (lo + 64 + x.2 * w) w)
    here ++ denseGated v w ts p (lo + 64 + ceilDiv (ps.length * w) 64 * 64) (g + 1) n

/-- The width of a sample word of a stream: L × N, 16 × L for STATE (R139, R268). -/
def wordWidth (im : Image) (i : Nat) : Nat := (pLanes im i).length * stN im i

/-- The stored samples of DENSE data: stamps and words. -/
def denseSamples (im : Image) (i ts head : Nat) (data : List Byte) : List (Nat × Nat) :=
  let v := leVal data
  let w := wordWidth im i
  let n := head % 2 ^ 32
  if stIsState im i then denseState v w ts 0 n
  else if bit head 32 then denseGated v w ts (stP im i) 0 0 (ceilDiv n 64)
  else denseUngated v w ts (stP im i) n 0

/-- ULEN of a BLOCK record from NPOS (R273); the gated layout's length shows only in decoding. -/
def blockUlens (im : Image) (i head : Nat) : List Nat :=
  let n := head % 2 ^ 32
  if stIsState im i then [n * (2 + 2 * (pLanes im i).length)]
  else if bit head 32 then (List.range 512).map fun k => 8 * (k + 1)
  else [ceilDiv (n * wordWidth im i) 8]

/-- The uncoded data of a coded block, where it decodes (R272 to R277). -/
def blockData (ulens : List Nat) (b : List Byte) : Option (List Byte) :=
  match scanHeader (b.take 16) with
  | .block mode clen bcrc =>
    ulens.findSome? fun u => match decodeBody mode u ((b.drop 16).take clen) with
      | some d => if crc32c d = bcrc then some d else none
      | none => none
  | _ => none

/-- The stored samples of a DENSE or BLOCK record from its bytes. -/
def recSamples (im : Image) (i : Nat) (m : RecMeta) (bs : List Byte) : List (Nat × Nat) :=
  let head := leVal ((bs.drop 16).take 8)
  if m.rtype = 1 then denseSamples im i m.ts head (bs.drop 24)
  else if m.rtype = 3 then
    match blockData (blockUlens im i head) (bs.drop 24) with | some d => denseSamples im i m.ts head d | none => []
  else []

/-- The changed masks of a TRANS record's entries (R140); a W1 entry has none and counts as bit 0. -/
def transMasks (n : Nat) (bs : List Byte) : List Nat :=
  let k := leVal ((bs.drop 18).take 2)
  let sz := transEntry n
  (List.range k).map fun e =>
    let v := leVal ((bs.drop (32 + sz * e)).take sz)
    if n = 1 then 1 else v / 2 ^ (32 + n) % 2 ^ n

/-! ### Predicates (R267, R268) -/

/-- A term. -/
structure Term where
  kind : Nat
  op : Nat
  neg : Bool
  fin : Bool
  a : Nat
  b : Nat
  c : Nat
  d : Nat
  deriving DecidableEq, Repr

/-- Term t of a predicate. -/
def termOf (im : Image) (t : Nat) : Term :=
  let o := 64 + 64 * t
  { kind := imLE im o 1, op := imLE im (o + 1) 1, neg := bit (imLE im (o + 2) 1) 0, fin := bit (imLE im (o + 2) 1) 1,
    a := imLE im (o + 8) 8, b := imLE im (o + 16) 8, c := imLE im (o + 24) 8, d := imLE im (o + 32) 8 }

/-- The operand bits that a kind uses: A, B, C, D (R268). -/
def termMasks (kind : Nat) : List Nat :=
  let all := ones64
  if kind = 1 then [0xFFFF, 0, 0, 0]
  else if kind = 2 ∨ kind = 3 then [all, 0, 0, 0]
  else if kind = 4 then [0xFF, 0, 0, 0]
  else if kind = 5 then [0xFF, 0xFF, 0xFF, 0]
  else if kind = 6 then [0xFFFF, 0xFFFF, 0, 0]
  else if kind = 7 then [all, all, all, all]
  else [0xFFFF, 0, 0, 0]

/-- A term breaks a rule of R268. -/
def termBad (im : Image) (t : Nat) : Bool :=
  let o := 64 + 64 * t
  let x := termOf im t
  x.kind == 0 || decide (8 < x.kind) || decide ((if x.kind = 2 ∨ x.kind = 3 then 5 else 0) < x.op) || decide (3 < imLE im (o + 2) 1) ||
    imLE im (o + 3) 5 != 0 || imLE im (o + 40) 24 != 0 ||
    ([x.a, x.b, x.c, x.d].zip (termMasks x.kind)).any fun p => p.1 &&& (ones64 - p.2) != 0

/-- A predicate is refused (R267, R268). -/
def predBad (im : Image) (len : Nat) : Bool :=
  let n := imLE im 0 2
  n == 0 || decide (64 < n) || len != 64 + 64 * n || imLE im 2 1 != 1 || imLE im 3 61 != 0 ||
    (List.range n).any (termBad im) || !(termOf im (n - 1)).fin

/-- The clauses of a predicate (R269). -/
def clauses (ts : List Term) (cur : List Term) : List (List Term) :=
  match ts with
  | [] => if cur.isEmpty then [] else [cur]
  | t :: rest => if t.fin then (cur ++ [t]) :: clauses rest [] else clauses rest (cur ++ [t])

/-- The terms of a predicate. -/
def termsOf (im : Image) : List Term := (List.range (imLE im 0 2)).map (termOf im)

/-! ### Evaluation (R268, R269) -/

/-- What a term sees of a record: its stream's plan, bytes, samples in the window and in the segment. -/
structure RecView where
  n : Nat
  m : RecMeta
  bs : List Byte
  smp : List (Nat × Nat)
  width : Nat

/-- A comparison of TICK and LENGTH. -/
def cmpOp (op x a : Nat) : Bool :=
  if op = 0 then x == a else if op = 1 then x != a else if op = 2 then decide (x < a) else if op = 3 then decide (x ≤ a)
  else if op = 4 then decide (a < x) else decide (a ≤ x)

/-- A field of a record's bytes. -/
def bsLE (bs : List Byte) (off n : Nat) : Nat := leVal ((bs.drop off).take n)

/-- Whether a sample word satisfies a SAMPLE term. -/
def sampleHit (v : RecView) (t : Term) (w : Nat) : Bool :=
  (w ^^^ (t.c + t.d * 2 ^ 64)) &&& (t.a + t.b * 2 ^ 64) &&& (2 ^ v.width - 1) == 0

/-- A term before NEG. -/
def termTrue (v : RecView) (t : Term) : Bool :=
  if t.kind = 1 then bit t.a v.m.rtype
  else if t.kind = 2 then cmpOp t.op v.m.ts t.a
  else if t.kind = 3 then cmpOp t.op v.m.len t.a
  else if t.kind = 4 then v.m.rtype == 8 && bit t.a (bsLE v.bs 24 1)
  else if t.kind = 5 then
    v.m.rtype == 9 && bit t.a (bsLE v.bs 16 1) &&
      (List.range 32).any fun i => bit (bsLE v.bs 20 4) i && (bsLE v.bs (24 + i) 1) &&& t.b == t.c
  else if t.kind = 6 then v.m.rtype == 11 && (bsLE v.bs 20 2) &&& t.a == t.b
  else if t.kind = 7 then v.smp.any fun x => sampleHit v t x.2
  else v.m.rtype == 2 && (transMasks v.n v.bs).any fun k => k &&& t.a != 0

/-- A clause. -/
def clauseTrue (v : RecView) (c : List Term) : Bool := c.all fun t => termTrue v t != t.neg

/-- The first true clause and the match tick (R269). -/
def matchOf (v : RecView) (cs : List (List Term)) : Option (Nat × Nat) :=
  match (List.range cs.length).find? fun k => clauseTrue v (cs.getD k []) with
  | none => none
  | some k =>
    let tick := match (cs.getD k []).find? fun t => t.kind == 7 && !t.neg with
      | some t => ((v.smp.find? fun x => sampleHit v t x.2).map fun x => x.1).getD v.m.ts
      | none => v.m.ts
    some (k, tick)

/-- What a search sees of a record (R268). -/
def viewOf (s : State) (im : Image) (i first last : Nat) (m : RecMeta) (bs : List Byte) : RecView :=
  let lo := max first (segStart s i m)
  { n := stN im i, m := m, bs := bs, width := wordWidth im i,
    smp := (recSamples im i m bs).filter fun x => decide (lo ≤ x.1) && decide (x.1 ≤ last) }

end Sys2Proof.Machine
end

