-- ==== Sys2Proof/Machine/Jobs.lean ====
section
/-! DEFINITION. Jobs on data at rest: placement, turns and commit points (R262 to R266, R270, R271), JOB_COMPRESS (R279 to R281),
JOB_DECOMPRESS and JOB_VERIFY (R282, R283). -/

namespace Sys2Proof.Machine

/-! ### Acceptance (R262, R263) -/

/-- A nonempty DRAM range reaches the journal area or lies beyond the population (R263). -/
def rangeBad (s : State) (a n : Nat) : Bool := decide (0 < n) && decide (journalBase s < a + n)

/-- The jobs accepted and not ended on a quadrant. -/
def jobsOn (s : State) (d : Nat) : Nat := (s.jobs.filter fun j => j.quad == d).length

/-- The present quadrant with the fewest jobs, the lowest-numbered on a tie (R262). -/
def quietQuad (s : State) : Nat := (List.range (quads s)).foldl (fun b d => if jobsOn s d < jobsOn s b then d else b) 0

/-- The quadrant of a stream's cluster (R262). -/
def streamQuad (s : State) (i : Nat) : Nat := pStCluster (plan s) i / 4

/-- A job as it is accepted. -/
def newJob (o : Nat) (k : JobKind) (d : Nat) (e : Entry) (pred : Image) (todo : List RecMeta) (s : State) : Job :=
  { origin := o, kind := k, quad := d, running := false, p := ePs e, unlim := eUnlim e, pred := pred, plan := plan s, todo := todo, pos := 0, done := 0,
    count := 0, published := 0, batch := [], batchAt := 0, lastTs := 0, crc := 0, wrote := 0, inbuf := none, inbad := [], waiting := false }

/-- A job joins its quadrant; it runs while it has a context of the JSQ (R262, R298). -/
def addJob (j : Job) (s : State) : State := syncJobs { s with jobs := s.jobs ++ [j] }

/-- The i-th parameter of a job. -/
def jp (j : Job) (i : Nat) : Nat := (j.p.getD i 0).toNat

/-- A window is empty or the stream is not used (R263). -/
def windowBad (s : State) (i first last : Nat) : Bool := pSfmt (plan s) i == 0 || decide (last < first)

/-- The parameter refusals of JOB_SEARCH (R259, R263, R267). -/
def searchBad (e : Entry) (s : State) : Bool :=
  let n := pn e.p1
  windowBad s (pn e.p2) (pn e.p3) (pn e.p4) || pn e.p5 % 64 != 0 || decide (pf e.p6 63 32 < 2) ||
    (n != 0 && !((List.range 64).any fun k => n == 64 + 64 * (k + 1)))

/-- The row of JOB_SEARCH, given what the read of the predicate has brought (R263, R265, R267, R271). -/
def searchRow (e : Entry) (d : HostRead) (s : State) : CmdRow :=
  let st := pf e.p2 7 0
  { baseRow opJobSearch with
    homes := [jsqOf (streamQuad s st)],
    bad := searchBad e,
    busy := fun t =>
      if !t.cap.anyBegun then some (plainRefuse stBusy)
      else match d with
        | .data p => if predBad p (pn e.p1) then some (plainRefuse stBadParam) else none
        | _ => none,
    zero := pn e.p1 == 0 || (pf e.p6 31 0 == 0 && !eUnlim e),
    run := withHostData d fun p o t => addJob (newJob o .search (streamQuad t st) e p (selectRecs t st (pn e.p3) (pn e.p4)) t) t }

/-- JOB_SEARCH reads the predicate, which is judged before the job is accepted. -/
def doJobSearch (r : Nat) (e : Entry) (s : State) : State := submitRead r opJobSearch e (pn e.p0) (pn e.p1) (fun d => searchRow e d s) s

/-- The meaning of JOB_SEARCH. -/
def execJobSearch (r : Nat) (e : Entry) (s : State) : Out := engineStep s (doJobSearch r e s)

/-- X2 of an extract with `todo` left: the timestamp of the first record not extracted, or last tick + 1 (R266). -/
def extractNext (j : Job) (todo : List RecMeta) : Nat := match todo with | m :: _ => m.ts | [] => (jp j 2 + 1) % 2 ^ 64

/-- The committed results that a command starts with. -/
def startResults (o : Nat) (c1 c2 : W64) (s : State) : State :=
  { s with cmds := s.cmds.map fun c => if c.origin = o then { c with c1 := c1, c2 := c2 } else c }

/-- JOB_EXTRACT (R263, R265, R266): until its first commit point X2 names the first selected record. -/
def doJobExtract (r : Nat) (e : Entry) (s : State) : State :=
  let st := pf e.p0 7 0
  submit r opJobExtract e { baseRow opJobExtract with
    homes := [jsqOf (streamQuad s st)],
    bad := fun t => windowBad t (pn e.p0) (pn e.p1) (pn e.p2) || pn e.p3 % 64 != 0,
    busy := busyIf fun t => !t.cap.anyBegun,
    zero := pn e.p4 == 0,
    run := fun o t =>
      let todo := selectRecs t st (pn e.p1) (pn e.p2)
      let j := newJob o .extract (streamQuad t st) e Image.empty todo t
      addJob j (startResults o 0 (BitVec.ofNat 64 (extractNext j todo)) t) } s

/-- The meaning of JOB_EXTRACT. -/
def execJobExtract (r : Nat) (e : Entry) (s : State) : Out := engineStep s (doJobExtract r e s)

/-- Whether a codec job's source, and its destination, lie in DRAM (R251). -/
def srcDram (e : Entry) : Bool := bit e.p4.toNat 0
def dstDram (e : Entry) : Bool := bit e.p4.toNat 1

/-- The range refusals of a codec job (R263). -/
def codecBad (e : Entry) (s : State) : Bool :=
  (srcDram e && rangeBad s (pn e.p0) (pn e.p1)) || (dstDram e && rangeBad s (pn e.p2) (pn e.p3)) ||
    (dstDram e && armed s && decide (0 < pn e.p3) && regionHit (plan s) (pn e.p2) (pn e.p3)) ||
    (srcDram e && dstDram e && decide (0 < pn e.p1) && decide (0 < pn e.p3) &&
      decide (pn e.p0 < pn e.p2 + pn e.p3) && decide (pn e.p2 < pn e.p0 + pn e.p1))

/-- A job writes DRAM: one SC3 request for each granule it touches (R177). The fuel is the number of bytes. -/
def writeJob (fuel a : Nat) (bs : List Byte) (s : State) : State :=
  match fuel with
  | 0 => s
  | f + 1 =>
    if bs.isEmpty then s
    else
      let n := 64 - a % 64
      writeJob f (a + n) (bs.drop n) (addReq a 3 (some (bs.take n)) .job s)

/-- Write `bs` at offset `off` of a codec job's destination. -/
def codecOut (j : Job) (off : Nat) (bs : List Byte) (s : State) : State :=
  if bit (jp j 4) 1 then writeJob bs.length (jp j 2 + off) bs s else post (.write (jp j 2 + off) bs s.pcie.ro) s

/-- JOB_COMPRESS (R279): with L = 0 and room for it the trailer is all there is to write, and the job has nothing to do (R259). -/
def doJobCompress (r : Nat) (e : Entry) (s : State) : State :=
  let d := quietQuad s
  let bound := BitVec.ofNat 64 (codedBound (pn e.p1))
  let start (o : Nat) (t : State) : Job := newJob o .compress d e Image.empty [] t
  submit r opJobCompress e { baseRow opJobCompress with
    homes := [jsqOf d],
    bad := codecBad e,
    zero := pn e.p1 == 0 && decide (64 ≤ pn e.p3),
    zrun := fun o t => finishCmd o stDoneZero 64 bound 0
      (countN 64 (cxCtr d 5) (codecOut (start o t) 0 (trailerBytes 0 0 0 e.tag.toNat) t)),
    run := fun o t =>
      addJob (start o t) (startResults o bound 0 t) } s

/-- The meaning of JOB_COMPRESS. -/
def execJobCompress (r : Nat) (e : Entry) (s : State) : Out := engineStep s (doJobCompress r e s)

/-- JOB_DECOMPRESS (R282). -/
def doJobDecompress (r : Nat) (e : Entry) (s : State) : State :=
  let d := quietQuad s
  submit r opJobDecompress e { baseRow opJobDecompress with
    homes := [jsqOf d],
    bad := fun t => decide (pn e.p1 < 64) || codecBad e t,
    run := fun o t => addJob (newJob o .decompress d e Image.empty [] t) t } s

/-- The meaning of JOB_DECOMPRESS. -/
def execJobDecompress (r : Nat) (e : Entry) (s : State) : Out := engineStep s (doJobDecompress r e s)

/-- JOB_VERIFY (R283); its destination parameters are unused, so R244 refuses them when they are not 0. -/
def doJobVerify (r : Nat) (e : Entry) (s : State) : State :=
  let d := quietQuad s
  submit r opJobVerify e { baseRow opJobVerify with
    homes := [jsqOf d],
    bad := fun t => decide (pn e.p1 < 64) || codecBad e t,
    run := fun o t => addJob (newJob o .verify d e Image.empty [] t) t } s

/-- The meaning of JOB_VERIFY. -/
def execJobVerify (r : Nat) (e : Entry) (s : State) : Out := engineStep s (doJobVerify r e s)

/-! ### Endings -/

/-- Replace a job. -/
def setJob (j : Job) (s : State) : State := { s with jobs := s.jobs.map fun k => if k.origin = j.origin then j else k }

/-- Whether a job's command has its abort flag set (R308). -/
def jobAborted (s : State) (j : Job) : Bool := match cmd? s j.origin with | some c => c.abort | none => false

/-- A job ends at its last commit point: an abort set since the one before makes it ABORTED (R252, R308). -/
def closeJob (j : Job) (status x0 x1 x2 : Nat) (s : State) : State :=
  failJob j.origin (if jobAborted s j then stAborted else status) x0 x1 x2 s

/-- A job reads poisoned DRAM data (R183, R284). -/
def jobPoison (j : Job) (s : State) : State := raise (srcCx j.quad 3) 0 s

/-- A codec job has no room for its output (R281): X1 is the bound of R279 for an input of `len` bytes. -/
def codecFull (j : Job) (len : Nat) (s : State) : State :=
  failJob j.origin stOutputFull 0 (codedBound len) 0 (setSource (srcCx j.quad 2) s)

/-! ### Search (R270, R271) -/

/-- The result entries that a result buffer holds (R271). -/
def resultRoom (j : Job) : Nat := (64 * bits (jp j 6) 63 32 - 64) / 32

/-- The 32 bytes of a result entry (R270). -/
def resultEntry (m : RecMeta) (clause tick : Nat) : List Byte :=
  leBytes 8 m.seq ++ leBytes 8 m.ts ++ leBytes 8 tick ++ leBytes 4 m.segno ++ leBytes 2 m.len ++ leBytes 1 m.rtype ++ leBytes 1 clause

/-- Write a batch's entries, then the header (R270, R235). -/
def writeBatch (j : Job) (s : State) : State :=
  let s1 := if j.batch.isEmpty then s else post (.write (jp j 5 + 64 + 32 * j.published) j.batch.flatten s.pcie.ro) s
  post (.write (jp j 5) (leBytes 8 (j.published + j.batch.length) ++ leBytes 8 j.lastTs ++ leBytes 48 0) false) s1

/-- A search ends and publishes what it holds (R270, R271). (DEDUCED: log entry 58.) -/
def endSearch (j : Job) (status : Nat) (s : State) : State :=
  closeJob j status (j.published + j.batch.length) j.lastTs 0 (writeBatch j s)

/-- Whether the block of a BLOCK record decodes. -/
def blockDecodes (j : Job) (i : Nat) (bs : List Byte) : Bool :=
  (blockData (blockUlens j.plan i (leVal ((bs.drop 16).take 8))) (bs.drop 24)).isSome

/-- One BLOCK record goes through the decoder: it is decoded, or a decode check fails (R285). (DEDUCED: log entry 56.) -/
def countDecoded (j : Job) (i : Nat) (m : RecMeta) (bs : List Byte) (s : State) : State :=
  if m.rtype = 3 then count (cxCtr j.quad (if blockDecodes j i bs then 6 else 8)) s else s

/-- A search has examined one more record: X1 of every ending (R271). -/
def noteExamined (j : Job) (m : RecMeta) (s : State) : State :=
  { s with cmds := s.cmds.map fun c => if c.origin = j.origin then { c with c1 := BitVec.ofNat 64 m.ts } else c }

/-- A turn of a search: the record that has been read (R262, R269, R271). (DEDUCED: log entry 58.) -/
def searchTurn (j : Job) (bs : List Byte) (s : State) : State :=
  match j.todo with
  | [] => endSearch j stDone s
  | m :: rest =>
    if !j.inbad.isEmpty then killCmd j.origin stCheckFail (jobPoison j s)
    else
      let i := bits (jp j 2) 7 0
      let s1 := noteExamined j m (countDecoded j i m bs s)
      let j1 := { j with todo := rest, lastTs := m.ts }
      let more (k : Job) (t : State) : State := if rest.isEmpty then endSearch k stDone t else setJob k t
      match matchOf (viewOf s j.plan i (jp j 3) (jp j 4) m bs) (clauses (termsOf j.pred) []) with
      | none => more j1 s1
      | some hit =>
        let n := j.published + j.batch.length
        if resultRoom j ≤ n then endSearch j1 stOutputFull (setSource (srcCx j.quad 2) s1)
        else
          let j2 := { j1 with batch := j.batch ++ [resultEntry m hit.1 hit.2],
                              batchAt := if j.batch.isEmpty then nowT s else j.batchAt }
          if !j.unlim && decide (bits (jp j 6) 31 0 ≤ n + 1) then endSearch j2 stDone s1 else more j2 s1

/-- 1 ms in ticks. -/
def msTicks : Nat := 1000 * usTicks

/-- RESULT_BATCH (R270): 256 results have gathered, or 1 ms has passed since the first of them. The commit point honours an abort
(R301 item 5) and Bus Master Enable. -/
def doResultBatch (o : Nat) (s : State) : State :=
  match s.jobs.find? fun j => j.origin == o with
  | none => s
  | some j =>
    let due := decide (256 ≤ j.batch.length) || decide (j.batchAt + msTicks ≤ nowT s)
    if j.kind != .search || j.batch.isEmpty || !due || s.pcie.d3 then s
    else if !s.pcie.bme then killCmd o stBusMasterOff s
    else
      let n := j.published + j.batch.length
      if jobAborted s j then endSearch j stAborted s
      else commitWord o (BitVec.ofNat 64 n) (BitVec.ofNat 64 j.lastTs) 0
        (setJob { j with published := n, batch := [] } (writeBatch j s))

/-- The meaning of RESULT_BATCH. -/
def execResultBatch (o : Nat) (s : State) : Out := engineStep s (doResultBatch o s)

/-! ### Extract (R266) -/

/-- A turn of an extract: the record that has been read; a record whose end crosses a 64 KiB boundary of the destination is a commit point (R264).
(DEDUCED: log entry 58.) -/
def extractTurn (j : Job) (bs : List Byte) (s : State) : State :=
  match j.todo with
  | [] => closeJob j stDone j.wrote j.count (extractNext j []) s
  | m :: rest =>
    let len := 64 * m.len
    if !j.inbad.isEmpty then killCmd j.origin stCheckFail (jobPoison j s)
    else if jp j 4 < j.wrote + len then
      closeJob j stOutputFull j.wrote j.count m.ts (setSource (srcCx j.quad 2) s)
    else
      let w := j.wrote + len
      let s1 := countDecoded j (bits (jp j 0) 7 0) m bs (post (.write (jp j 3 + j.wrote) bs s.pcie.ro) s)
      let j1 := { j with todo := rest, wrote := w, count := j.count + 1 }
      if rest.isEmpty then closeJob j1 stDone w j1.count (extractNext j rest) s1
      else if w / 65536 = j.wrote / 65536 then setJob j1 s1
      else if jobAborted s j then closeJob j1 stAborted w j1.count (extractNext j rest) s1
      else commitWord j.origin (BitVec.ofNat 64 w) (BitVec.ofNat 64 j1.count) (BitVec.ofNat 64 (extractNext j rest)) (setJob j1 s1)

/-! ### Codec jobs -/

/-- 64-byte steps done by a codec engine (R356). -/
def addSteps (x n : Nat) (s : State) : State := { s with cxSteps := tblSet s.cxSteps x (tblGet s.cxSteps x 0 + ceilDiv n 64) }

/-- The trailer of a compress job and its end (R278, R279, R281). -/
def compressEnd (j : Job) (s : State) : State :=
  let len := jp j 1
  let tag := match cmd? s j.origin with | some c => c.tag.toNat | none => 0
  if jp j 3 < j.wrote + 64 then codecFull j len s
  else
    closeJob j stDone (j.wrote + 64) (codedBound len) j.count
      (countN 64 (cxCtr j.quad 5) (codecOut j j.wrote (trailerBytes len j.count j.crc.toNat tag) s))

/-- A turn of a compress job: the block that has been read, and after the last the trailer (R280, R281). `shadowOk`: the shadow decoder agreed.
(DEDUCED: log entry 58.) -/
def compressTurn (j : Job) (raw : List Byte) (shadowOk : Bool) (s : State) : State :=
  let len := jp j 1
  let nblk := ceilDiv len 4096
  if nblk ≤ j.count then compressEnd j s
  else if !j.inbad.isEmpty then failJob j.origin stCheckFail 0 (codedBound len) 0 (jobPoison j s)
  else if !shadowOk then
    failJob j.origin stVerifyMismatch 0 (codedBound len) j.count (setSource (srcCx j.quad 0) (count (cxCtr j.quad 7) s))
  else
    let block := codeBlock raw false
    if jp j 3 < j.wrote + block.length then codecFull j len s
    else
      let s1 := addSteps j.quad raw.length (countCoded j.quad raw.length block (codecOut j j.wrote block s))
      let j1 := { j with count := j.count + 1, wrote := j.wrote + block.length, crc := BitVec.ofNat 64 (crc64 j.crc.toNat raw) }
      if nblk ≤ j1.count then compressEnd j1 s1 else setJob j1 s1

/-- A decode check fails (R282, R283): X1 is the block at fault, X2 the cause. -/
def checkFail (j : Job) (f : DecodeFail) (s : State) : State :=
  failJob j.origin stCheckFail 0 f.index f.cause (setSource (srcCx j.quad 1) (count (cxCtr j.quad 8) s))

/-- The trailer's checks, in the order of R282, and the end of a decode job. (DEDUCED: log entry 58.) -/
def decodeEnd (j : Job) (found at_ : Nat) (bs : List Byte) (s : State) : State :=
  let tr := (bs.drop at_).take 64
  let len := leVal ((tr.drop 8).take 8)
  let nblk := leVal ((tr.drop 16).take 8)
  if tr.length ≠ 64 ∨ at_ + 64 ≠ bs.length ∨ leVal ((tr.drop 1).take 7) ≠ 0 ∨ leVal (tr.drop 36) ≠ 0 then
    checkFail j { index := nblk, cause := 4 } s
  else if nblk ≠ found ∨ nblk ≠ ceilDiv len 4096 then checkFail j { index := nblk, cause := 5 } s
  else if j.crc.toNat ≠ leVal ((tr.drop 24).take 8) then checkFail j { index := nblk, cause := 6 } s
  else if len = 0 then closeJob j stDoneZero 0 0 0 s
  else closeJob j stDone len nblk 0 s

/-- The block, if any, at which the source of a decode job reads poisoned (R282 cause 7). -/
def decodePoison (j : Job) (bs : List Byte) : Option Nat :=
  if j.inbad.isEmpty then none
  else poisonBlock (fun off n => j.inbad.any fun g => decide (jp j 0 + off < g + 64) && decide (g < jp j 0 + off + n)) (bs.length + 1) 0 0 bs

/-- A turn of a decompress or verify job: one block; the trailer is found first, since it gives LENGTH (R278, R282). (DEDUCED: log entry 58.) -/
def decodeTurn (j : Job) (bs : List Byte) (s : State) : State :=
  let bad := decodePoison j bs
  match walkBlocks (bs.length + 1) 0 0 bs with
  | .error f =>
    match bad with
    | some k => checkFail j { index := k, cause := 7 } (jobPoison j s)
    | none => checkFail j f s
  | .ok (blocks, t) =>
    let len := leVal ((bs.drop (t + 8)).take 8)
    if bad = some j.count then checkFail j { index := j.count, cause := 7 } (jobPoison j s)
    else match blocks.drop j.count with
      | [] => decodeEnd j blocks.length t bs s
      | (off, mode, clen, bcrc) :: rest =>
        let body := (bs.drop (off + 16)).take clen
        match decodeBody mode (jobUlen len j.count) body with
        | none => checkFail j { index := j.count, cause := 2 } s
        | some raw =>
          if body.length ≠ clen then checkFail j { index := j.count, cause := 2 } s
          else if crc32c raw ≠ bcrc then checkFail j { index := j.count, cause := 3 } s
          else if j.kind == .decompress && decide (jp j 3 < j.wrote + raw.length) then codecFull j len s
          else
            let s1 := if j.kind == .decompress then codecOut j j.wrote raw s else s
            let s2 := addSteps j.quad raw.length (count (cxCtr j.quad 6) s1)
            let j1 := { j with count := j.count + 1, wrote := j.wrote + raw.length, crc := BitVec.ofNat 64 (crc64 j.crc.toNat raw) }
            if rest.isEmpty && bad != some j1.count then decodeEnd j1 blocks.length t bs s2 else setJob j1 s2

/-! ### Input (R177, R225) -/

/-- What a job reads next, address and length: a record, a block of the input, or the whole coded stream. -/
def nextInput (j : Job) : Option (Nat × Nat) :=
  match j.kind with
  | .search | .extract => j.todo.head?.map fun m => (m.addr, 64 * m.len)
  | .compress => if j.count < ceilDiv (jp j 1) 4096 then some (jp j 0 + 4096 * j.count, jobUlen (jp j 1) j.count) else none
  | .decompress | .verify => some (jp j 0, jp j 1)

/-- Whether the input lies in DRAM: records do, and the source of a codec job where P4 bit 0 says so (R251). -/
def inputDram (j : Job) : Bool := match j.kind with | .search | .extract => true | _ => bit (jp j 4) 0

/-- A job begins to read: an extract in SC2, the others in SC3 (R177), or host memory (R225). -/
def askInput (j : Job) (a n : Nat) (s : State) : State :=
  let s1 := setJob { j with waiting := true } s
  if inputDram j then readGrans (gransOf a n) (if j.kind = .extract then 2 else 3) (.job j.origin a n) s1 else startXfer (.job j.origin) a n s1

/-! ### Turns (R262) -/

/-- Whether a job moves data to or from host memory (R229). -/
def needsHost (j : Job) : Bool :=
  match j.kind with
  | .search | .extract => true
  | .verify => !bit (jp j 4) 0
  | _ => !bit (jp j 4) 0 || !bit (jp j 4) 1

/-- Whether a running job of a quadrant can take a turn: one that waits for its input cannot, a search with a full batch waits for RESULT_BATCH, and D3hot
allows no transfer. -/
def mayTurn (s : State) (q : Nat) (j : Job) : Bool :=
  j.quad == q && j.running && !j.waiting && !(needsHost j && s.pcie.d3) && decide (j.batch.length < 256)

/-- The turn of one job with the input at hand; a record or block is used once, a coded stream until its end. -/
def turnWith (j : Job) (bs : List Byte) (shadowOk : Bool) (s : State) : State :=
  let j1 := { j with inbuf := none }
  match j.kind with
  | .search => searchTurn j1 bs s
  | .extract => extractTurn j1 bs s
  | .compress => compressTurn j1 bs shadowOk s
  | .decompress | .verify => decodeTurn j bs s

/-- Whether a job is a codec job. -/
def isCodec (j : Job) : Bool := match j.kind with | .search | .extract => false | _ => true

/-- The turn of one job (R262): a codec job stops at the block boundary after an abort (R264); a job without the input it needs reads it first. -/
def turnOf (j : Job) (shadowOk : Bool) (s : State) : State :=
  if needsHost j && !s.pcie.bme then killCmd j.origin stBusMasterOff s
  else if isCodec j && jobAborted s j then killCmd j.origin stAborted s
  else match j.inbuf, nextInput j with
    | none, some (a, n) => askInput j a n s
    | some bs, _ => turnWith j bs shadowOk s
    | none, none => turnWith j [] shadowOk s

/-- JOB_TURN (R262): the job sequencer of quadrant q gives the next of its running jobs a turn; the job then goes to the end of the
rotation. (DEDUCED: log entry 58.) -/
def doJobTurn (q : Nat) (shadowOk : Bool) (s : State) : State :=
  let x := sq s (jsqOf q)
  if decide (quads s ≤ q) || x.state == .stopped || x.state == .handler || decide (2 ≤ pwrState s) then s
  else match s.jobs.find? (mayTurn s q) with
    | none => s
    | some j => turnOf j shadowOk { s with jobs := s.jobs.filter (fun k => k.origin != j.origin) ++ [j] }

/-- The meaning of JOB_TURN. -/
def execJobTurn (q : Nat) (shadowOk : Bool) (s : State) : Out := engineStep s (doJobTurn q shadowOk s)

end Sys2Proof.Machine
end

