-- ==== Sys2Proof/Machine/Seq.lean ====
section
/-! DEFINITION. The control sequencers' words (R288 to R303), traps and their handlers (R304 to R309), machine checks, and the open-area
commands (R250, R298). The commands of R251 are carried out by their own meanings, which stand for the base image's routines; words are
executed for routines of the open area, and for any word a sequencer has come to. -/

namespace Sys2Proof.Machine

/-! ### Trace of the flow (R358) -/

/-- A FLOW entry of a traced sequencer. -/
def flow (q pc reason : Nat) (s : State) : State :=
  if bit s.trace.flowMask q then
    traceAdd true (BitVec.ofNat 64 (2 * 2 ^ 60 + q * 2 ^ 55 + pc % 16384 * 2 ^ 41 + reason * 2 ^ 37 + s.tb.tick / 32 * 32 % 2 ^ 37)) s
  else s

/-- An idle sequencer starts its next command, if it has one (R298). -/
def settle (q : Nat) (s : State) : State :=
  let x := sq s q
  if x.state = .idle then
    let y := nextCmd (nowT s) x
    let s1 := syncJobs (setSq q y s)
    if y.state = .run then flow q y.pc 7 s1 else s1
  else s

/-! ### Operands of a word (R291 to R294) -/

/-- A source (R293). -/
def source (s : State) (x : Seqr) (w : BitVec 144) (c : Nat) : W64 :=
  let imm : BitVec 16 := BitVec.ofNat 16 (mImm w)
  if c < 0x20 then nth x.w c 0
  else if c = 0x20 then imm.setWidth 64
  else if c = 0x21 then imm.signExtend 64
  else if c = 0x22 then imm.setWidth 64 <<< 16
  else if c = 0x23 then x.mdr
  else if c = 0x24 then x.xdr
  else if c = 0x25 then x.mar
  else if c = 0x26 then BitVec.ofNat 64 (s.tb.tick / 32 * 32)
  else if 0x28 ≤ c ∧ c < 0x30 then nth x.lb (c - 0x28) 0
  else if 0x30 ≤ c ∧ c < 0x34 then BitVec.ofNat 64 (nth x.lc (c - 0x30) 0)
  else if c = 0x34 then BitVec.ofNat 64 x.ctx
  else 0

/-- Write a destination (R293). (DEDUCED: log entry 51.) -/
def putDst (c : Nat) (v : W64) (x : Seqr) : Seqr :=
  if c < 0x20 then { x with w := putNth x.w c v }
  else if c = 0x21 then { x with mar := v }
  else if c = 0x22 then { x with mdr := v }
  else if c = 0x23 then { x with xdr := v }
  else if 0x28 ≤ c ∧ c < 0x30 then { x with lb := putNth x.lb (c - 0x28) v }
  else if 0x30 ≤ c ∧ c < 0x34 then { x with lc := putNth x.lc (c - 0x30) (v.toNat % 65536) }
  else if c = 0x34 then { x with ctx := v.toNat % 4 }
  else x

/-- The condition of a word (R291). -/
def condition (s : State) (x : Seqr) (w : BitVec 144) : Bool :=
  let c := mCsel w
  let v :=
    if c = 0 then true
    else if c = 1 then flagZ x.flags
    else if c = 2 then flagN x.flags
    else if c = 3 then flagC x.flags
    else if c = 4 then flagV x.flags
    else if c < 9 then nth x.lc (c - 5) 0 == 0
    else if c = 9 then (nth x.ctxs x.ctx Ctx.reset).abort
    else if c = 0xA then !x.queue.isEmpty
    else if c = 0xB then !x.memBusy
    else if c = 0xC then true
    else if c = 0xD then !x.hostBusy
    else if c = 0xE then s.pcie.bme
    else if c = 0xF then armed s
    else if c = 0x10 then x.poison
    else bit x.xdr.toNat (c - 0x20)
  v != mCpol w

/-- The bank that BSEL names (R294). -/
def bankSel (q : Nat) (w : BitVec 144) : Nat := if mBsel w = 15 then seqBank q else mBsel w

/-- The memory address that MSEL names (R294). -/
def memAddr (x : Seqr) (w : BitVec 144) (b : W64) : Nat :=
  if mMsel w = 2 then 8 * mImm w else if mMsel w = 3 then b.toNat else x.mar.toNat

/-- Bytes of a host move (R289). -/
def moveLen (w : BitVec 144) : Nat := mUfld w % 4096 + 1

/-- MAR advances with MSEL = 1 (R294). -/
def advanceMar (w : BitVec 144) (x : Seqr) : Seqr :=
  if mMsel w = 1 ∧ mMop w ≠ 0 then
    { x with mar := x.mar + BitVec.ofNat 64 (if mMop w < 5 then 8 else if mMop w < 7 then 64 else moveLen w) }
  else x

/-- The register that XIO addresses (R295). -/
def xioReg (s : State) (q : Nat) (w : BitVec 144) : Nat := unitBase s q (mXio w % 64) + 4 * mXaddr w

/-- What XIO does: 0 nothing, 1 a read into XDR, 2 a write from XDR (R289). (DEDUCED: log entry 54.) -/
def xioOp (w : BitVec 144) : Nat := mXio w / 64

/-- CNT (R295). -/
def applyCnt (w : BitVec 144) (r : W64) (x : Seqr) : Seqr :=
  let i := mCnt w % 4
  let op := mCnt w / 4
  if op = 0 then x
  else { x with lc := putNth x.lc i (if op = 1 then mImm w else if op = 2 then (nth x.lc i 0 + 65535) % 65536 else r.toNat % 65536) }

/-! ### The open area's confinement (R317) -/

/-- The first word of the open area. -/
def openBase : Nat := 0x3000

/-- Whether an address lies in the open area. -/
def inOpen (a : Nat) : Bool := decide (openBase ≤ a) && decide (a < 0x4000)

/-- Whether [a, a + n) reaches the journal area (R162). -/
def inJournal (s : State) (a n : Nat) : Bool := decide (journalBase s < a + n) && decide (a < topAddr s)

/-- Whether a word's memory operation goes where the open area may not reach. (DEDUCED: log entry 52.) -/
def mopConfined (s : State) (q : Nat) (w : BitVec 144) (addr : Nat) : Bool :=
  let m := mMop w
  let n := if m < 5 then 8 else moveLen w
  if m = 0 then false
  else if m = 5 then inJournal s (addr / 64 * 64) 64
  else if m = 6 then inJournal s (addr / 64 * 64) 64 || (armed s && regionHit (plan s) (addr / 64 * 64) 64)
  else bankSel q w != seqBank q || decide (8 * trapWord < addr + n)

/-- Whether a word's XIO goes where the open area may not reach. (DEDUCED: log entry 52.) -/
def xioConfined (s : State) (q : Nat) (w : BitVec 144) : Bool :=
  let off := xioReg s q w
  let gw := match accOf s off with | .gw _ _ => true | _ => false
  (xioOp w != 0 && gw) || (xioOp w == 2 && !(decide (cxBase (seqCodec q) ≤ off) && decide (off < cxBase (seqCodec q) + 0x100)))

/-- The address outside PC + 1 to which a word goes, if it goes there; `x` is the sequencer after ALU, wait and counter. -/
def goesTo (s : State) (x : Seqr) (w : BitVec 144) (a : W64) : Option Nat :=
  let n := mNac w
  if n = 1 then some (mTgt w)
  else if n = 2 ∨ n = 3 then (if condition s x w then some (mTgt w) else none)
  else if n = 5 then (if nth x.lc (mCnt w % 4) 0 != 0 then some (mTgt w) else none)
  else if n = 6 then some ((mTgt w + a.toNat % 16) % 16384)
  else none

/-- Steps 5 and 6 of R296 on the sequencer: DST, CNT and STK; none for an underflow or overflow of the stack. What a memory or unit operation
of the word itself has placed in MDR, XDR or the line buffer stays. -/
def writeBack (q : Nat) (w : BitVec 144) (h : WordHold) (x : Seqr) : Option Seqr :=
  let d := mDst w
  let own := (d == 0x22 && (mMop w == 1 || mMop w == 3 || mMop w == 4)) || (d == 0x23 && xioOp w == 1) ||
    (decide (0x28 ≤ d) && decide (d < 0x30) && mMop w == 5)
  let x1 := applyCnt w h.r (if h.wr && !own then putDst d h.r { x with flags := h.f } else { x with flags := h.f })
  if mStk w = 1 then (if seqStack q ≤ x1.stack.length then none else some { x1 with stack := x1.stack ++ [h.a] })
  else if mStk w = 2 then
    (match x1.stack.getLast? with
      | some v => some (putDst d v { x1 with stack := x1.stack.dropLast })
      | none => none)
  else some x1

/-- Whether a word of the open area, as `y` stands after its own results, goes to an address outside it (R317). -/
def strays (s : State) (q : Nat) (x y : Seqr) (w : BitVec 144) (a : W64) : Bool :=
  isJsq q && inOpen x.pc && match goesTo s y w a with | some t => !inOpen t | none => false

/-- The sequencer after a word's own results, as far as they are known before it acts: its XIO read, wait, ALU result, destination, counter and stack (R291,
R296, R317). -/
def foreseen (s : State) (q : Nat) (x : Seqr) (w : BitVec 144) (h : WordHold) : Seqr :=
  let x1 := if xioOp w = 1 then { x with xdr := (readReg (.seq q) (xioReg s q w) s).1.setWidth 64 } else x
  (writeBack q w h { x1 with memBusy := x1.memBusy && mWait w != 1, hostBusy := x1.hostBusy && mWait w != 3 }).getD x1

/-- Whether a word fetched from the open area raises the PRIV trap instead of acting (R317). (DEDUCED: log entry 52.) -/
def confined (s : State) (q : Nat) (x : Seqr) (w : BitVec 144) (h : WordHold) (addr : Nat) : Bool :=
  isJsq q && inOpen x.pc &&
    (strays s q x (foreseen s q x w h) w h.a || decide (2 ≤ mRing w) || decide (2 ≤ mEvt w / 64) || mopConfined s q w addr || xioConfined s q w)

/-- A PRIV cause: the word does not act, so the trap is due at once (R305, R317). (DEDUCED: log entry 52.) -/
def privTrap (q : Nat) (s : State) : State :=
  let s1 := raiseTrap q .priv (sq s q).pc s
  setSq q { sq s1 q with tsafe := true } s1

/-! ### Memory, unit and event operations (R294, R295) -/

/-- The bank words that [addr, addr + n) touches. -/
def moveWords (addr n : Nat) : List Nat := (List.range ((addr + n + 7) / 8 - addr / 8)).map fun i => addr / 8 + i

/-- Whether a sequencer may make an access to every word of a move (R327). -/
def moveOpen (s : State) (q k addr n : Nat) (op : PortOp) : Bool := (moveWords addr n).all fun w => (portFor s (.seq q) k w op).isSome

/-- The bytes of a move out of a bank, whether one of them is poisoned, and the state after the reads. -/
def moveRead (k addr n : Nat) (s : State) : List Byte × Bool × State :=
  let r := (moveWords addr n).foldl (fun (a : List Byte × Bool × State) w =>
    let x := bankOp true k w .read a.2.2
    (a.1 ++ leBytes 8 x.1.1.toNat, a.2.1 || x.1.2, x.2)) ([], false, s)
  ((r.1.drop (addr % 8)).take n, r.2.1, r.2.2)

/-- The bytes of a move into a bank. -/
def moveWrite (k addr : Nat) (bs : List Byte) (s : State) : State :=
  (moveWords addr bs.length).foldl (fun z w =>
    let old := leBytes 8 (bankWord z k w).toNat
    let new := (List.range 8).map fun i => if addr ≤ 8 * w + i ∧ 8 * w + i < addr + bs.length then bs.getD (8 * w + i - addr) 0 else old.getD i 0
    (bankOp true k w (.write (BitVec.ofNat 64 (leVal new))) z).2) s

/-- The pieces into which a host read is split: at most Max_Read_Request_Size each, and none across 4 KiB (R225). -/
def readPieces (fuel a n mrrs : Nat) : List (Nat × Nat) :=
  match fuel with
  | 0 => []
  | f + 1 =>
    if n = 0 then []
    else
      let l := min n (min (max mrrs 1) (4096 - a % 4096))
      (a, l) :: readPieces f (a + l) (n - l) mrrs

/-- A host read into a bank (MOP 0x7). Without Bus Master Enable it cannot be made, and the command ends (R229). (DEDUCED: log entry 53.) -/
def hostMoveIn (q k addr host n : Nat) (s : State) : State :=
  if !moveOpen s q k addr n (.write 0) then notOwned (.seq q) k (addr / 8) s
  else if !s.pcie.bme || s.pcie.d3 then
    match (nth (sq s q).ctxs (sq s q).ctx Ctx.reset).origin with
    | some o => killCmd o stBusMasterOff s
    | none => s
  else
    (readPieces n host n s.pcie.mrrs).foldl (fun z p => issueRead p.1 p.2 (.seq q k (addr + (p.1 - host))) z)
      (setSq q { sq s q with hostBusy := true } s)

/-- A host write from a bank (MOP 0x8), or its staging (MOP 0x9). One that cannot be transmitted is staged too, so that the next CMT word
finds Bus Master Enable 0 (R229, R301). (DEDUCED: log entry 53.) -/
def hostMoveOut (q k addr host n : Nat) (stage : Bool) (s : State) : State :=
  if !moveOpen s q k addr n .read then notOwned (.seq q) k (addr / 8) s
  else
    let r := moveRead k addr n s
    if r.2.1 then unitTrap q (0x60000 / 0x400) 1 (setSq q { sq r.2.2 q with poison := true } r.2.2)
    else if stage || !r.2.2.pcie.bme || r.2.2.pcie.d3 then
      setSq q { sq r.2.2 q with pubs := (sq r.2.2 q).pubs ++ [{ addr := host, bytes := r.1 }] } r.2.2
    else post (.write host r.1 false) r.2.2

/-- A DRAM operation (MOP 0x5, 0x6); an address beyond the population is a unit error. (DEDUCED: log entry 54.) -/
def dramMove (q addr cls : Nat) (write : Bool) (s : State) : State :=
  let a := addr / 64 * 64
  if topAddr s ≤ a then unitTrap q (chBase 0 / 0x400) 2 s
  else
    let x := sq s q
    addReq a cls (if write then some (x.lb.flatMap fun v => leBytes 8 v.toNat) else none) (.seq q) (setSq q { x with memBusy := true } s)

/-- The memory operation of a word. (DEDUCED: log entry 51.) -/
def issueMop (q : Nat) (w : BitVec 144) (a b : W64) (s : State) : State :=
  let x := sq s q
  let k := bankSel q w
  let addr := memAddr x w b
  let s1 := setSq q (advanceMar w x) s
  let m := mMop w
  if m = 1 then (bankAccess (.seq q) k (addr / 8) .read s1).2
  else if m = 2 then (bankAccess (.seq q) k (addr / 8) (.write a) s1).2
  else if m = 3 then (bankAccess (.seq q) k (addr / 8) (.fetchAdd a) s1).2
  else if m = 4 then (bankAccess (.seq q) k (addr / 8) (.swap a) s1).2
  else if m = 5 then dramMove q addr (mUfld w / 4096 % 4) false s1
  else if m = 6 then dramMove q addr (mUfld w / 4096 % 4) true s1
  else if m = 7 then hostMoveIn q k addr a.toNat (moveLen w) s1
  else if m = 8 then hostMoveOut q k addr a.toNat (moveLen w) false s1
  else if m = 9 then hostMoveOut q k addr a.toNat (moveLen w) true s1
  else s1

/-- The XIO operation of a word; a register that is not there, or that cannot be written, is a unit error. (DEDUCED: log entries 51 and 54.) -/
def issueXio (q : Nat) (w : BitVec 144) (s : State) : State :=
  let off := xioReg s q w
  let none_ := match accOf s off with | .reserved => true | _ => false
  let fixed := match accOf s off with | .ro => true | .rc _ => true | _ => false
  if xioOp w = 1 then
    if none_ then unitTrap q (off / 0x400) 1 s
    else let r := readReg (.seq q) off s; setSq q { sq r.2 q with xdr := r.1.setWidth 64 } r.2
  else if xioOp w = 2 then
    if none_ then unitTrap q (off / 0x400) 1 s
    else if fixed then unitTrap q (off / 0x400) 2 s
    else writeReg (.seq q) off ((sq s q).xdr.setWidth 32) s
  else s

/-- The source that EVT sets in the event register of unit u: the one whose register lies in the unit's page. (DEDUCED: log entry 54.) -/
def unitSource (s : State) (q u b : Nat) : Option Nat :=
  (List.range 1792).find? fun n => match srcReg n with | some (o, k) => o / 4096 == unitBase s q u / 4096 && k == b | none => false

/-- The event of a word (R295); an error bit is reported as every error is (R11, R403). -/
def emitEvt (q : Nat) (w : BitVec 144) (s : State) : State :=
  let e := mEvt w
  if e / 64 = 1 then raise (srcSq q (6 + e % 2)) 0 s
  else if e / 64 = 2 then raise (1728 + e % 64) 0 s
  else if e / 64 = 3 then (match unitSource s q (mXio w % 64) (e % 32) with | some n => raise n 0 s | none => s)
  else s

/-! ### Commit points (R300 to R303) -/

/-- Hand the staged publications to the endpoint in issue order. (DEDUCED: log entry 53.) -/
def publish (q : Nat) (s : State) : State :=
  let x := sq s q
  setSq q { x with pubs := [] } (x.pubs.foldl (fun z p => post (.write p.addr p.bytes false) z) s)

/-- W1 to W3 become the results of a command; for a long one PROGRESS is committed with the first (R301). The CMT word that ends a short one is counted as it
ends. -/
def commitResults (o : Nat) (final : Bool) (x0 x1 x2 : W64) (s : State) : State :=
  match cmd? s o with
  | none => s
  | some c =>
    if isLong c.opcode then commitWord o x0 x1 x2 s
    else
      let s1 := setCmd { c with c0 := x0, c1 := x1, c2 := x2 } { s with seqs := s.seqs.map fun p => (p.1, passCommit o s.tb.time x0 x1 x2 p.2) }
      if final then s1 else count (sqCtr c.home 5) s1

/-- The CMT word's own steps (R301). True when the word ended the command and the routine with it. (DEDUCED: log entry 52.) -/
def commitStep (q : Nat) (w : BitVec 144) (s : State) : Bool × State :=
  let x := sq s q
  let s0 := setSq q { x with sinceCmt := nowT s, wdogHit := false } s
  match (nth x.ctxs x.ctx Ctx.reset).origin with
  | none => (false, publish q (count (sqCtr q 5) s0))
  | some o =>
    let c := nth x.ctxs x.ctx Ctx.reset
    if !s.pcie.bme && !x.pubs.isEmpty then
      let s1 := setSq q { sq s0 q with pubs := [] } (count (sqCtr q 5) s0)
      (true, finishCmd o stBusMasterOff c.c0 c.c1 c.c2 s1)
    else
      let v (i : Nat) : W64 := nth x.w i 0
      let s2 := publish q (commitResults o (mRing w == 1) (v 1) (v 2) (v 3) s0)
      if mRing w = 1 then (false, finishCmd o (mImm w) (v 1) (v 2) (v 3) s2)
      else if c.abort then (true, finishCmd o stAborted (v 1) (v 2) (v 3) s2)
      else (false, s2)

/-! ### One word (R296) -/

/-- Whether a WAIT has ended (R295). A housekeeping edge comes every 40 ns. -/
def waitOver (s : State) (x : Seqr) (h : WordHold) : Bool :=
  if h.on = 1 then !x.memBusy
  else if h.on = 3 then !x.hostBusy
  else if h.on = 4 then decide (h.at_ / 2048 < nowT s / 2048)
  else if h.on = 5 then !x.queue.isEmpty
  else true

/-- The next address, the sequencer's stack after it, and the FLOW reason; none for a stack error (R290). -/
def nextAddr (s : State) (q : Nat) (x : Seqr) (w : BitVec 144) (a : W64) : Option (Nat × Seqr × Nat) :=
  let up := (x.pc + 1) % 16384
  let n := mNac w
  if n = 3 then
    if condition s x w then
      (if seqStack q ≤ x.stack.length then none else some (mTgt w, { x with stack := x.stack ++ [BitVec.ofNat 64 up] }, 2))
    else some (up, x, 0)
  else if n = 4 then
    if condition s x w then
      (match x.stack.getLast? with
        | some v => some (v.toNat % 16384, { x with stack := x.stack.dropLast }, 3)
        | none => none)
    else some (up, x, 0)
  else match goesTo s x w a with
    | some t => some (t, x, if n = 6 then 4 else 1)
    | none => some (up, x, 0)

/-- A word has completed: it is entered in the ledger, and it counts against the 40 cycles of R305 unless it is a trap-safe point. -/
def wordDone (q : Nat) (w : BitVec 144) (s : State) : State :=
  let x := sq s q
  if x.state = .stopped then s
  else
    let x1 := { x with words := x.words + 1 }
    if x1.pendTrap.isEmpty || x1.inTrap.isSome then setSq q { x1 with tsafe := mTsafe w, prePc := 0 } s
    else if mTsafe w then setSq q { x1 with tsafe := true, prePc := 0 } s
    else if 40 ≤ x1.prePc + 1 then machineCheck q 4 0 (setSq q x1 s)
    else setSq q { x1 with prePc := x1.prePc + 1 } s

/-- NAC IDLE: the routine ends, and what it staged since its last CMT word is discarded (R290, R303). (DEDUCED: log entry 52.) -/
def goIdle (q : Nat) (s : State) : State :=
  let x := sq s q
  settle q (flow q x.pc 8 (setSq q { x with state := .idle, wait := none, pubs := [], sinceCmt := nowT s, wdogHit := false } s))

/-- TRAPRET's own steps (R307): the frame is checked and restored, and what completed meanwhile is delivered. A routine whose command has
ended gives way to the next command (R318). (DEDUCED: log entry 55.) -/
def trapReturn (q : Nat) (s : State) : State :=
  if !frameOwned s q then machineCheck q 5 0 s
  else
    let k := seqBank q
    let r := (List.range 64).foldl (fun (a : List Nat × Bool × State) i =>
      let v := bankOp true k (frameWord q + i) .read a.2.2
      (a.1 ++ [v.1.1.toNat], a.2.1 || v.1.2, v.2)) ([], false, s)
    let f := r.1
    let g (i : Nat) : Nat := f.getD i 0
    if r.2.1 || crc32c ((f.take 63).flatMap fun v => leBytes 8 v) != g 63 % 2 ^ 32 then machineCheck q 5 0 r.2.2
    else
      let y := sq r.2.2 q
      let aborts := bits (g 1) 15 12
      let v (i : Nat) : W64 := BitVec.ofNat 64 (g i)
      let y1 := { y with
        pc := bits (g 0) 13 0, ctx := bits (g 0) 21 20, flags := BitVec.ofNat 4 (g 1),
        ctxs := (List.range 4).map (fun i => { nth y.ctxs i Ctx.reset with abort := bit aborts i && (nth y.ctxs i Ctx.reset).origin.isSome }),
        stack := (List.range (min (seqStack q) (bits (g 1) 8 4))).map fun i => v (2 + i),
        lc := (List.range 4).map fun i => g (18 + i) % 65536,
        w := (List.range 32).map fun i => v (22 + i),
        mar := v 54, mdr := v 55, xdr := v 56,
        state := if y.inTrap.isSome then y.resume else y.state, inTrap := none, wait := y.trapWait, trapWait := none, tsafe := true, prePc := 0, hold := [] }
      let s1 := setSq q y1 r.2.2
      let s2 := y.hold.foldl (fun z p => flightDone q p.1 (p.2 != 0) (p.2.toNat / 65536) (p.2.toNat % 65536) z) s1
      let z := sq s2 q
      let s3 := flow q z.pc 6 s2
      if (z.state == .run || z.state == .wait) && (nth z.ctxs z.ctx Ctx.reset).origin.isNone then
        settle q (setSq q { z with state := .idle, wait := none } s3)
      else settle q s3

/-- Steps 5 to 8 of R296. A word of the open area that turns out to leave it, with what it waited for, raises PRIV and does nothing further (R317). (DEDUCED: log
entries 51 and 52.) -/
def completeWord (q : Nat) (h : WordHold) (s : State) : State :=
  let x := sq s q
  let w := storeWord s q x.pc
  match writeBack q w h { x with wait := none, state := if x.state = .wait then .run else x.state } with
  | none => machineCheck q 3 0 s
  | some x1 =>
    if strays s q x x1 w h.a then privTrap q (setSq q { x with wait := none, state := if x.state = .wait then .run else x.state } s) else
    let s1 := emitEvt q w (setSq q x1 s)
    let c := if mCmt w then commitStep q w s1 else (false, s1)
    if (sq c.2 q).state == .stopped then c.2
    else if c.1 then wordDone q w (goIdle q c.2)
    else if mNac w = 7 then wordDone q w (goIdle q c.2)
    else if mNac w = 8 then wordDone q w (trapReturn q c.2)
    else match nextAddr c.2 q (sq c.2 q) w h.a with
      | none => machineCheck q 3 0 c.2
      | some (pc, x2, why) =>
        let s2 := setSq q { x2 with pc := pc } c.2
        wordDone q w (if why = 0 then s2 else flow q pc why s2)

/-- Whether a pending trap must be taken before another word (R305). (DEDUCED: log entry 51.) -/
def trapDue (x : Seqr) : Bool := !x.pendTrap.isEmpty && x.inTrap.isNone && x.tsafe

/-- Fetch the word at PC and issue it, or go on with the one that waits (R296). (DEDUCED, DESIGN CHOICE: log entries 50 and 51.) -/
def stepWord (q : Nat) (s : State) : State :=
  let x := sq s q
  if !seqPresent s q || !(x.state == .run || x.state == .wait || x.state == .handler) || trapDue x then s
  else match x.wait with
    | some h => if waitOver s x h then completeWord q h s else s
    | none =>
      let w := storeWord s q x.pc
      if parityFails w != 0 then machineCheck q 1 (parityFails w) s
      else if reservedCode w || (mDsp w && q != 0) then machineCheck q 2 0 s
      else
        let a := source s x w (mAsrc w)
        let b := source s x w (mBsrc w)
        let fv := takeFree s
        let v := alu (mAlu w) a b x.flags fv.1
        let h : WordHold := { on := mWait w, at_ := nowT s, a := a, r := v.1, wr := v.2.1, f := v.2.2 }
        if confined s q x w h (memAddr x w b) then privTrap q s
        else
          let s1 := issueXio q w (issueMop q w a b fv.2)
          let y := sq s1 q
          if y.state != x.state || y.pc != x.pc || (nth y.ctxs y.ctx Ctx.reset).origin != (nth x.ctxs x.ctx Ctx.reset).origin then s1
          else if waitOver s1 y h then completeWord q h s1
          else
            setSq q { y with wait := some h, state := if y.state = .run then .wait else y.state,
                             tsafe := y.tsafe || (mTsafe w && !y.pendTrap.isEmpty) } s1

/-- The meaning of MICROWORD. -/
def execMicroword (q : Nat) (s : State) : Out := engineStep s (stepWord q s)

/-- CMT: the word at PC acts, when it is a CMT word (R301). (DESIGN CHOICE: log entry 8.) -/
def doCmt (q : Nat) (s : State) : State := if mCmt (storeWord s q (sq s q).pc) then stepWord q s else s

/-- The meaning of CMT. -/
def execCmt (q : Nat) (s : State) : Out := engineStep s (doCmt q s)

/-! ### Watchdog and machine checks (R309 to R311) -/

/-- The detail of a host read timeout: the endpoint and its error code. -/
def hostTimeoutDetail : Nat := 0x18000 / 0x400 * 65536 + 1

/-- WDOG: a context has run WDT cycles without a CMT word or IDLE, in a routine of words or in a command that its meaning carries out; a further WDT cycles are a
machine check (R309). (DEDUCED: log entry 50.) -/
def doWdog (q : Nat) (s : State) : State :=
  let x := sq s q
  let t := 64 * wdt s
  if !seqPresent s q || wdt s == 0 || x.state == .stopped || !runsLong s q || decide (nowT s < x.sinceCmt + t) then s
  else if !x.wdogHit then raiseTrap q .wdog 0 (setSq q { x with wdogHit := true } s)
  else if x.sinceCmt + 2 * t ≤ nowT s then machineCheck q 6 0 s
  else s

/-- The meaning of WDOG. -/
def execWdog (q : Nat) (s : State) : Out := engineStep s (doWdog q s)

/-- Whether R310 has the code. -/
def mcCode (c : Nat) : Bool := decide (1 ≤ c) && decide (c ≤ 7)

/-- MACHINE_CHECK: the sequencer stops (R310, R311); with cause PARITY the failing groups are those of the word at PC. -/
def doMachineCheck (q c : Nat) (s : State) : State :=
  if mcCode c then machineCheck q c (if c = 1 then parityFails (storeWord s q (sq s q).pc) else 0) s else s

/-- The meaning of MACHINE_CHECK. -/
def execMachineCheck (q cause : Nat) (s : State) : Out := engineStep s (doMachineCheck q cause s)

/-! ### Commands whose routines are words (R250, R297, R298) -/

/-- DSQ places a command in the queue of its home sequencer, which starts it when it is idle (R298). -/
def enqueueCmd (q op : Nat) (e : Entry) (o : Nat) (s : State) : State := settle q (placeCmd q op e o .words s)

/-- An open-area command runs on the JSQ of the quadrant that P6 names. (DEDUCED: log entry 20.) -/
def doOpenAreaCommand (r : Nat) (sub_ : BitVec 8) (e : Entry) : State → State :=
  let op := 0x200 + sub_.toNat
  let d := pf e.p6 1 0
  submit r op e { baseRow op with
    homes := [jsqOf d],
    bad := fun s => decide (quads s ≤ d),
    run := enqueueCmd (jsqOf d) op e }

/-- The meaning of OPEN_AREA_COMMAND. -/
def execOpenAreaCommand (r : Nat) (sub : BitVec 8) (e : Entry) (s : State) : Out := engineStep s (doOpenAreaCommand r sub e s)

/-- BAD_OPCODE: an entry whose opcode has no routine is refused (R250). An opcode beside R251 and the open area for which a patch has entered a routine runs its
words at the home that its dispatch entry names, as a short command (R246, R297); every other valid opcode is another row's concern. (DESIGN CHOICE: log
entry 50.) -/
def doBadOpcode (r : Nat) (op : BitVec 16) (e : Entry) (s : State) : State :=
  let n := op.toNat
  if !opValid s n then submit r n e (baseRow n) s
  else if opcodes.contains n || isOpenArea n then s
  else
    let h := fld (dispEntry s n) 26 22
    let q := if h = 29 then jsqOf (quietQuad s) else if h = 30 then jsqOf (streamQuad s (pf e.p0 7 0)) else h
    submit r n e { baseRow n with homes := [q], run := fun o t => enqueueCmd (homeIn t n e q) n e o t } s

/-- The meaning of BAD_OPCODE. -/
def execBadOpcode (r : Nat) (op : BitVec 16) (e : Entry) (s : State) : Out := engineStep s (doBadOpcode r op e s)

end Sys2Proof.Machine
end

