-- ==== Sys2Proof/Machine/Patch.lean ====
section
/-! DEFINITION. Patches and the open area (R314 to R317), and the checks of matcher and automaton settings (R105, R130). -/

namespace Sys2Proof.Machine

/-! ### Patch images -/

/-- The MAGIC of a patch image (R314). -/
def patchMagic : Nat := 0x4843544150444C56

/-- The header fields that KIND 1 and KIND 2 share. (DEDUCED: log entry 68.) -/
def patchHeaderBad (im : Image) (len : Nat) (s : State) : Bool :=
  let base := match s.stores.base with | some b => imLE b 10 2 | none => 0
  imLE im 0 8 != patchMagic || imLE im 9 3 != 0 || imLE im 12 2 != base || imLE im 24 8 != 0 || imLE im 32 8 != 0 || imLE im 40 8 != 0 ||
    imLE im 48 8 != 0 || imLE im 56 8 != 0 || imLE im 20 4 != len

def patchKind (im : Image) : Nat := imLE im 8 1
def patchLevel (im : Image) : Nat := imLE im 14 2
def patchCount (im : Image) : Nat := imLE im 16 4

/-- Entry i of a vendor patch: class, address, word, and the 4 bytes of a dispatch entry. -/
def pEntClass (im : Image) (i : Nat) : Nat := imLE im (64 + 24 * i) 1
def pEntAddr (im : Image) (i : Nat) : Nat := imLE im (64 + 24 * i + 2) 2
def pEntWord (im : Image) (i : Nat) : BitVec 144 := imWord im (64 + 24 * i + 4)
def pEntDisp (im : Image) (i : Nat) : W32 := BitVec.ofNat 32 (imLE im (64 + 24 * i + 4) 4)

/-- An entry breaks the rules of R314 by itself. -/
def patchEntryBad (im : Image) (i : Nat) : Bool :=
  let c := pEntClass im i
  let a := pEntAddr im i
  imLE im (64 + 24 * i + 1) 1 != 0 || imLE im (64 + 24 * i + 22) 2 != 0 ||
    (if c = 7 then decide (1024 ≤ a) || isOpenArea a || dispBad a (pEntDisp im i) || imLE im (64 + 24 * i + 8) 14 != 0
     else decide (7 < c) || decide (16384 ≤ a) || (c == 6 && decide (0x3000 ≤ a)))

/-- The first sequencer of a class (R286, R312). -/
def firstOfClass (c : Nat) : Nat := if c < 5 then c else if c = 5 then 8 else 9

/-- The words of class c as a patch leaves them. -/
def patchedWords (s : State) (im : Image) (c : Nat) : List (Nat × BitVec 144) :=
  let es := (List.range (patchCount im)).filter fun i => pEntClass im i == c
  (List.range (if c = 6 then 0x3000 else 0x4000)).map fun a =>
    (a, match es.reverse.find? fun i => pEntAddr im i == a with | some i => pEntWord im i | none => storeWord s (firstOfClass c) a)

/-- A vendor patch is refused with BAD_PARAM (R314). -/
def vendorBad (im : Image) (len : Nat) (s : State) : Bool :=
  let n := patchCount im
  let key := match s.stores.base with | some b => imSlice b 32 96 | none => Image.empty
  decide (n = 0) || decide (4096 < n) || len != 64 + 24 * n + 96 || decide (patchLevel im ≤ s.stores.patch) ||
    !signatureOk key (imSlice im 0 (len - 96)) (imSlice im (len - 96) 96) ||
    ((List.range n).any (patchEntryBad im)) ||
    ((List.range 7).any fun c => ((List.range n).any fun i => pEntClass im i == c) && wordsBad (patchedWords s im c))

/-- The words of an open-area image (R316). -/
def areaWords (im : Image) : List (Nat × BitVec 144) := (List.range 4096).map fun w => (0x3000 + w, imWord im (576 + 18 * w))

/-- An open-area image is refused with BAD_PARAM (R316). -/
def areaBad (im : Image) (len : Nat) : Bool :=
  len != 74308 || patchCount im != 0 || patchLevel im != 0 || imLE im 74304 4 != crc32c (imBytes (imSlice im 0 74304)) ||
    ((List.range 256).any fun i => let a := imLE im (64 + 2 * i) 2; a != 0 && !inOpen a) ||
    wordsBad (areaWords im) || (areaWords im).any fun x => mNac x.2 == 8 || mDsp x.2

/-- The refusals of PATCH_LOAD on the image that the host read returned. (DEDUCED, PRESUMED: log entries 12 and 20.) -/
def patchCheck (e : Entry) (d : HostRead) (s : State) : Option Refuse :=
  match d with
  | .data im0 =>
    if pn e.p1 = 0 then none
    else
      let len := pn e.p1
      let im := imSlice im0 0 len
      if patchHeaderBad im len s ||
          (if patchKind im = 1 then vendorBad im len s else if patchKind im = 2 then areaBad im len else true) then some (plainRefuse stBadParam)
      else none
  | _ => none

/-- PATCH_LOAD is refused while the engine is armed or any other command is open (R314). (DEDUCED: log entry 68.) -/
def patchBusy (e : Entry) (d : HostRead) (s : State) : Option Refuse :=
  if armed s || !s.cmds.isEmpty then some (plainRefuse stBusy) else patchCheck e d s

/-- Write one entry of a vendor patch into every present sequencer of its class, or into the dispatch table. -/
def applyEntry (im : Image) (s : State) (i : Nat) : State :=
  if pEntClass im i = 7 then { s with stores := { s.stores with disp := tblSet s.stores.disp (pEntAddr im i) (pEntDisp im i) } }
  else
    ((List.range (seqCount s)).filter fun q => storeClass q == pEntClass im i).foldl (fun z q => putStore q (pEntAddr im i) (pEntWord im i) z) s

/-- A vendor patch is applied. -/
def applyVendor (im : Image) (s : State) : State :=
  let s1 := (List.range (patchCount im)).foldl (applyEntry im) s
  setSource (srcSq 1 4) { s1 with stores := { s1.stores with patch := patchLevel im } }

/-- The present JSQs. -/
def jsqs (s : State) : List Nat := (List.range (quads s)).map jsqOf

/-- The open area is loaded (R316). -/
def applyArea (im : Image) (s : State) : State :=
  let s1 := (jsqs s).foldl (fun z q => (areaWords im).foldl (fun y x => putStore q x.1 x.2 y) z) s
  let tbl := (List.range 256).map fun i => (i, imLE im (64 + 2 * i) 2)
  (jsqs s).foldl (fun z q => setSource (srcSq q 5) z)
    { s1 with stores := { s1.stores with oaEntry := tbl, digest := BitVec.ofNat 32 (imLE im 74304 4) } }

/-- The effect of PATCH_LOAD on an image that passed its checks. -/
def runPatch (e : Entry) (im0 : Image) (o : Nat) (s : State) : State :=
  let im := imSlice im0 0 (pn e.p1)
  let s1 := if patchKind im = 1 then applyVendor im s else applyArea im s
  finishCmd o stDone (mcver s1) 0 0 s1

/-- The row of PATCH_LOAD. -/
def patchRow (e : Entry) (d : HostRead) : CmdRow :=
  { baseRow opPatchLoad with zero := pn e.p1 == 0, busy := patchBusy e d, run := withHostData d (runPatch e) }

/-- PATCH_LOAD reads the image. -/
def doPatchLoad (r : Nat) (e : Entry) : State → State := submitRead r opPatchLoad e (pn e.p0) (pn e.p1) (patchRow e)

/-- The meaning of PATCH_LOAD. -/
def execPatchLoad (r : Nat) (e : Entry) (s : State) : Out := engineStep s (doPatchLoad r e s)

/-- OPEN_AREA_LOAD: a PATCH_LOAD of an image of KIND 2. -/
def doOpenAreaLoad (r : Nat) (e : Entry) : State → State := submitRead r opPatchLoad e (pn e.p0) (pn e.p1) (patchRow e)

/-- The meaning of OPEN_AREA_LOAD. -/
def execOpenAreaLoad (r : Nat) (e : Entry) (s : State) : Out := engineStep s (doOpenAreaLoad r e s)

/-! ### Checks of settings (R105, R130) -/

/-- The byte of the plan image that holds a byte of an automaton's block. -/
def autoByte (im : Image) (a x : Nat) : Option Nat :=
  if x < 4 then some (secOff im 4 + 8448 * a + x)
  else if 0x10 ≤ x ∧ x < 0x28 then some (secOff im 4 + 8448 * a + x)
  else if 0x100 ≤ x ∧ x < 0x200 ∧ x % 0x40 < 0x18 then some (secOff im 5 + 128 * a + 32 * ((x - 0x100) / 0x40) + x % 0x40)
  else if 0x800 ≤ x ∧ x < 0x840 then some (secOff im 4 + 8448 * a + 0x40 + (x - 0x800))
  else if 0x1000 ≤ x ∧ x < 0x2000 then some (secOff im 3 + 4096 * a + (x - 0x1000))
  else if 0x2000 ≤ x ∧ x < 0x4000 then some (secOff im 4 + 8448 * a + 0x100 + (x - 0x2000))
  else if 0x4000 ≤ x ∧ x < 0x4800 then some (secOff im 6 + 2048 * a + (x - 0x4000))
  else if a = 0 ∧ 0x8000 ≤ x ∧ x < 0x8008 then some (secOff im 5 + 1536 + (x - 0x8000))
  else if a = 0 ∧ 0x8100 ≤ x ∧ x < 0x8300 ∧ x % 16 < 12 then some (secOff im 5 + 1024 + (x - 0x8100))
  else none

/-- The byte of the plan image that holds byte x of a block; none where the block holds no setting. -/
def unitByte (im : Image) (u : TableUnit) (x : Nat) : Option Nat :=
  match u with
  | .cluster c => if x < 0x4000 ∧ accCluster (x / 4 * 4) = .ro then some (secOff im 2 + 16384 * c + x) else none
  | .automaton a => autoByte im a x

/-- Flip bits of the eight bytes from block offset `off`. (DEDUCED: log entry 68.) -/
def flipUnit (im : Image) (u : TableUnit) (off flips : Nat) : Image :=
  (List.range 8).foldl (fun z i => match unitByte im u (off + i) with
    | some p => { z with bytes := memSet z.bytes p (memGet z.bytes p ^^^ BitVec.ofNat 8 (flips / 2 ^ (8 * i))) }
    | none => z) im

/-- The event sources, the location register, and whether the unit exists. -/
def unitCe (u : TableUnit) : Nat := match u with | .cluster c => srcCl c 0 | .automaton a => srcTa a 1
def unitUe (u : TableUnit) : Nat := match u with | .cluster c => srcCl c 1 | .automaton a => srcTa a 2
def unitLoc (u : TableUnit) : Nat := match u with | .cluster c => clBase c + 0x804 | .automaton a => taBase a + 0x44
def unitHere (s : State) (u : TableUnit) : Bool := match u with | .cluster c => decide (c < 4 * quads s) | .automaton a => decide (a < 8)

/-- A word of settings is read and checked: a correctable error is corrected in place, an uncorrectable word is reported and used as stored. (DEDUCED: log entry 68.) -/
def doSettingsCheck (u : TableUnit) (off : Nat) (ecc : Ecc) (s : State) : State :=
  let o := off / 8 * 8
  if !unitHere s u || (List.range 8).all fun i => (unitByte (plan s) u (o + i)).isNone then s
  else match ecc with
    | .good => s
    | .corrected _ => raise (unitCe u) o s
    | .uncorrectable f =>
      let s1 := if bit (reg s (unitLoc u)).toNat 31 then s else setReg (unitLoc u) (BitVec.ofNat 32 (2 ^ 31 + o)) s
      raise (unitUe u) o { s1 with plans := { s1.plans with active := s1.plans.active.map fun im => flipUnit im u o f } }

/-- The meaning of SETTINGS_WORD_CHECK. -/
def execSettingsWordCheck (u : TableUnit) (off : Nat) (ecc : Ecc) (s : State) : Out := engineStep s (doSettingsCheck u off ecc s)

end Sys2Proof.Machine
end

