-- ==== Sys2Proof/Machine/Power.lean ====
section
/-! DEFINITION. Power states, thermal sensing and the hardware trip (R363 to R377). -/

namespace Sys2Proof.Machine

/-! ### Lanes and subchannels (R363, R365) -/

/-- Every link of the part, cascade lanes after the lanes. -/
def allLinks (s : State) : List Nat := List.range (laneCount s) ++ [128, 129, 130, 131]

/-- The links that train or resume in the wave of quadrant d: its lanes, and with quadrant 0 the cascade lanes (R379). -/
def quadLinks (d : Nat) : List Nat := ((List.range 32).map fun i => 32 * d + i) ++ (if d = 0 then [128, 129, 130, 131] else [])

/-- Power down every lane that is not DISABLED: DOWN with CAUSE 0x0. -/
def lanesDown (s : State) : State :=
  (allLinks s).foldl (fun z n => if laneState z n = lnDisabled then z else laneOff n lnDown z) s

/-- Lanes in RUN enter STANDBY (R365). (DEDUCED: log entry 69.) -/
def lanesStandby (s : State) : State :=
  (allLinks s).foldl (fun z n => if laneState z n = lnRun then leaveRun n lnStandby 0 z else z) s

/-- The links in a state. -/
def linksIn (s : State) (st : Nat) : List Nat := (allLinks s).filter fun n => laneState s n == st

/-- The lanes of the lowest quadrant with a lane in STANDBY start the fast resume path (R54, R365). (DEDUCED: log entry 69.) -/
def resumeWave (s : State) : State :=
  match (List.range (quads s)).find? fun d => (quadLinks d).any fun n => laneState s n == lnStandby with
  | none => s
  | some d => ((quadLinks d).filter fun n => laneState s n == lnStandby).foldl (fun z n =>
      let z1 := setLaneState n lnResume 0 z
      setLane n { lane z1 n with lossAt := nowT z1, uncorr := 0, fecRun := 0 } z1) s

/-- Every subchannel of a READY channel is ordered into self-refresh (R185). -/
def allEnterSr (s : State) : State :=
  ((List.range (subCount s)).filter fun sc => chState s (sc / 2) == 3).foldl (fun z sc => enterSr sc z) s

/-- Every subchannel is ordered out of self-refresh. -/
def allLeaveSr (s : State) : State := (List.range (subCount s)).foldl (fun z sc => orderSrx sc z) s

/-- Every DIMM at the doubled refresh rate, or no longer (R374, R375). -/
def doubleRefresh (on : Bool) (s : State) : State := (List.range (subCount s)).foldl (fun z sc => setSub sc { sub z sc with dbl := on } z) s

/-! ### POWER_STATE (R364 to R366, R376) -/

/-- Whether the trip can end: a valid sensor, every valid sensor at 97.0 °C or less, no comparator at 115 °C (R376). -/
def tripEnds (s : State) : Bool :=
  let v := numsWhere 24 (sensorValid s)
  !v.isEmpty && (v.all fun i => decide (sensorTemp s i ≤ 1552)) && s.pwr.comps == 0

/-- The target of POWER_STATE. -/
def psTarget (e : Entry) : Nat := pf e.p0 1 0

/-- POWER_STATE is refused with BUSY_STATE (R364). (DEDUCED: log entry 69.) -/
def psBusy (e : Entry) (s : State) : Bool :=
  let t := psTarget e
  if tripped s then !(t == 0 && tripEnds s)
  else if t = pwrState s then false
  else (t != 0 && (armed s || s.cmds.any fun c => isLong c.opcode && !isJob c.opcode)) || (decide (2 ≤ t) && !s.jobs.isEmpty)

/-- What a transition from state f to state t does to lanes and DRAM (R365). (DEDUCED: log entry 69.) -/
def transit (f t : Nat) (s : State) : State :=
  if t = 1 ∧ f = 0 then lanesStandby s
  else if t < 2 ∧ f = 1 then resumeWave s
  else if t < 2 then allLeaveSr s
  else if f < 2 then allEnterSr (lanesDown s)
  else s

/-- The transition ordered first begins; one to the state that the engine is in ends at once. A trip in force ends with it (R376). (DEDUCED: log entry 69.) -/
def beginOrder (fuel : Nat) (s : State) : State :=
  match fuel, s.pwr.orders with
  | f + 1, (o, t) :: rest =>
    let s1 := if tripped s then setSource (srcPwr 5) (setRf 0x50000 25 25 0 (doubleRefresh false s)) else s
    if t = pwrState s ∧ !tripped s then
      beginOrder f (finishCmd o stDone (BitVec.ofNat 64 t) 0 0 { s1 with pwr := { s1.pwr with orders := rest } })
    else transit (pwrState s) t (setRf 0x50000 27 27 1 (setRf 0x50000 29 28 t { s1 with pwr := { s1.pwr with began := nowT s } }))
  | _, _ => s

/-- POWER_STATE. -/
def runPowerState (e : Entry) (o : Nat) (s : State) : State :=
  let s1 := { s with pwr := { s.pwr with orders := s.pwr.orders ++ [(o, psTarget e)] } }
  if s.pwr.orders.isEmpty then beginOrder 1 s1 else s1

/-- POWER_STATE: PSQ carries out one after the other. -/
def doPowerState (r : Nat) (e : Entry) : State → State :=
  submit r opPowerState e { baseRow opPowerState with busy := busyIf (psBusy e), run := runPowerState e }

/-- The meaning of POWER_STATE. -/
def execPowerState (r : Nat) (e : Entry) (s : State) : Out := engineStep s (doPowerState r e s)

/-- PSDONE: the transition ends; while quadrants are still to resume, the next wave starts. PS3 waits for the journal and for PCLK to stop (R363). (DEDUCED, DESIGN CHOICE: log entries 10 and 69.) -/
def doPsdone (s : State) : State :=
  match s.pwr.orders with
  | [] => s
  | (o, t) :: rest =>
    if t = 0 ∧ !(linksIn s lnResume).isEmpty then s
    else if t = 3 ∧ (!s.jr.wait.isEmpty ∨ s.tb.pclk ≠ 0) then s
    else if t = 0 ∧ !(linksIn s lnStandby).isEmpty then resumeWave s
    else
      let s0 := if t = 1 then lanesStandby s else s
      let s1 := setRf 0x50000 31 27 (t * 8) { s0 with pwr := { s0.pwr with orders := rest } }
      beginOrder rest.length (finishCmd o stDone (BitVec.ofNat 64 t) 0 0 (setSource (srcPwr 0) s1))

/-- The meaning of PSDONE. -/
def execPsdone (s : State) : Out := engineStep s (doPsdone s)

/-- The bound of a transition from state f to state t in µs (R365). -/
def psBound (f t : Nat) : Nat := if t = 3 then 10000 else if 2 ≤ f then 2000 else if t = 2 then 5000 else 1000

/-- A transition ends no later than its bound; one that resumes lanes goes on as soon as a wave has come through. (DESIGN CHOICE: log entry 69.) -/
def psTime (s : State) : State :=
  match s.pwr.orders with
  | [] => s
  | (_, t) :: _ => if (t = 0 ∧ pwrState s = 1) ∨ s.pwr.began + psBound (pwrState s) t * usTicks ≤ nowT s then doPsdone s else s

/-! ### Sensors (R368, R369, R371) -/

/-- The effect of THERMAL_PROFILE (R370, R371). -/
def runThermalProfile (o : Nat) (s : State) : State :=
  finishCmd o stDone (BitVec.ofNat 64 (credit s 310)) (BitVec.ofInt 64 (hottest s).2) (BitVec.ofNat 64 (b2n (warnOn s))) s

/-- THERMAL_PROFILE (R251, R370, R371). -/
def doThermalProfile (r : Nat) (e : Entry) : State → State :=
  submit r opThermalProfile e { baseRow opThermalProfile with
    run := runThermalProfile }

/-- The meaning of THERMAL_PROFILE. -/
def execThermalProfile (r : Nat) (e : Entry) (s : State) : Out := engineStep s (doThermalProfile r e s)

/-- THHOT from the readings held. (DEDUCED: log entry 70.) -/
def updateHot (s : State) : State :=
  setReg 0x50010 (BitVec.ofNat 32 ((hottest s).1 * 65536 + toField 16 (hottest s).2)) s

/-- THCREDIT from the readings held. -/
def updateCredit (s : State) : State := setReg 0x50014 (BitVec.ofNat 32 (credit s 310)) s

/-- The warning enters or leaves; `i` is the sensor whose conversion decides (R369, R371). (DEDUCED: log entry 70.) -/
def updateWarn (i : Nat) (s : State) : State :=
  let v := numsWhere 24 (sensorValid s)
  if !warnOn s then
    if v.isEmpty then raise (srcPwr 1) 0 (setRf 0x50000 26 26 1 s)
    else if v.any fun k => decide (1600 ≤ sensorTemp s k) then raise (srcPwr 1) i (raise (srcTh i 0) 0 (setRf 0x50000 26 26 1 s))
    else s
  else if !v.isEmpty && v.all fun k => decide (sensorTemp s k ≤ 1552) then
    raise (srcPwr 2) i (raise (srcTh i 1) 0 (setRf 0x50000 26 26 0 s))
  else s

/-- The critical condition of one sensor. (DEDUCED: log entry 70.) -/
def updateCrit (i : Nat) (s : State) : State :=
  let inCrit := bit s.pwr.crit i
  let t := sensorTemp s i
  if !inCrit && decide (1680 ≤ t) then raise (srcPwr 3) i (raise (srcTh i 2) 0 { s with pwr := { s.pwr with crit := s.pwr.crit ||| 2 ^ i } })
  else if inCrit && decide (t ≤ 1648) then { s with pwr := { s.pwr with crit := s.pwr.crit ^^^ 2 ^ i } }
  else s

/-- SENSOR_CONVERSION: a good reading, which also shows the trip comparator of its site below 115 °C, or a failed self-check. (DEDUCED: log entry 70.) -/
def doSensor (i : Nat) (temp16 : Option Int) (s : State) : State :=
  if 24 ≤ i then s
  else
    let o := 0x50100 + 4 * i
    match temp16 with
    | none => updateWarn i (updateHot (raise (srcTh i 3) 0 (setRf o 30 30 1 s)))
    | some t =>
      let s1 := setReg o (BitVec.ofNat 32 (2 ^ 31 + toField 16 t)) s
      let s2 := if t < 1840 ∧ bit s1.pwr.comps i then { s1 with pwr := { s1.pwr with comps := s1.pwr.comps ^^^ 2 ^ i } } else s1
      updateCrit i (updateWarn i (updateHot s2))

/-- The meaning of SENSOR_CONVERSION. -/
def execSensorConversion (i : Nat) (temp16 : Option Int) (s : State) : Out := engineStep s (doSensor i temp16 s)

/-- THERMAL_ESTIMATE (R370). -/
def doEstimate (s : State) : State := updateCredit (updateWarn 0 (updateHot s))

/-- The meaning of THERMAL_ESTIMATE. -/
def execThermalEstimate (s : State) : Out := engineStep s (doEstimate s)

/-- PEAKEXP: once in a peak capture (R372). (DESIGN CHOICE: log entry 8.) -/
def doPeakexp (s : State) : State :=
  if rf s 0x50000 24 24 == 1 && !s.pwr.peakDone && decide (pTpeak (plan s) ≤ pwrPeak s) then
    setSource (srcPwr 6) { s with pwr := { s.pwr with peakDone := true } }
  else s

/-- What the power unit does by itself: the transition in progress, PEAKEXP, and every 1 ms an estimate (R365, R370, R372). (DESIGN CHOICE: log entry 2.) -/
def powerTime (s : State) : State :=
  let s1 := doPeakexp (psTime s)
  if nowT s % (1000 * usTicks) = 0 then doEstimate s1 else s1

/-- The meaning of PEAKEXP. -/
def execPeakexp (s : State) : Out := engineStep s (doPeakexp s)

/-! ### The trip (R374, R377) -/

/-- An ARM that waits for T0 ends with a status, and no capture has begun. (DEDUCED: log entry 24.) -/
def endWaitingArm (status : Nat) (s : State) : State :=
  if s.cap.state = .waiting then
    let t := endOrbits { s with cap := unarm s.cap }
    finishCmd s.cap.origin status 0 0 0 t
  else s

/-- The engine ends every open command but an ARM whose capture ends by itself. (DEDUCED: log entry 33.) -/
def endCommands (status : Nat) (s : State) : State :=
  ((s.cmds.filter fun c => c.opcode != opArm).map fun c => c.origin).foldl (fun z o => killCmd o status z) s

/-- Channels in TRAINING take another state. (DEDUCED: log entry 46.) -/
def trainingTo (st : Nat) (s : State) : State :=
  (List.range (chCount s)).foldl (fun z ch => if chState z ch = 2 then setRf (chBase ch + 4) 31 28 st z else z) s

/-- The whole of R374 after TRIPPED is set. -/
def tripStop (s : State) : State :=
  let s1 := trigLow (hardStop .trip 5 s)
  let s2 := journalNow 4 (trainingTo 4 (endCommands stThermalTrip (endWaitingArm stThermalTrip s1)))
  setRf 0x50000 31 27 16 (lanesDown (allEnterSr (doubleRefresh true s2)))

/-- TRIP of the comparator of sensor i. (DEDUCED: log entry 69.) -/
def doTrip (i : Nat) (s : State) : State :=
  if 24 ≤ i then s
  else
    let s1 := { s with pwr := { s.pwr with comps := s.pwr.comps ||| 2 ^ i } }
    if tripped s then s1
    else
      let s2 := raise (srcPwr 4) i (setRf 0x50000 25 25 1 s1)
      if s.pwr.warm || (decide (2 ≤ pwrState s) && s.pwr.orders.isEmpty) then s2 else tripStop s2

/-- The meaning of TRIP. -/
def execTrip (i : Nat) (s : State) : Out := engineStep s (doTrip i s)

end Sys2Proof.Machine
end

