-- ==== Sys2Proof/Machine/Traps.lean ====
section
/-! DEFINITION. Traps of the control sequencers: when one is taken, what its handler does, and the return (R304 to R309, R318). -/

namespace Sys2Proof.Machine

/-- The pending cause of the highest priority. -/
def firstTrap (x : Seqr) : Option (TrapCause × Nat) :=
  x.pendTrap.foldl (fun m p => match m with
    | none => some p
    | some b => if trapPrio p.1 < trapPrio b.1 then some p else some b) none

/-- Whether a trap can be taken now: at a trap-safe point, in a word that waits with TSAFE = 1, or with no routine running (R305). -/
def trapReady (s : State) (q : Nat) : Bool :=
  let x := sq s q
  seqPresent s q && x.state != .stopped && x.inTrap.isNone &&
    (x.state == .idle || x.tsafe || (x.wait.isSome && mTsafe (storeWord s q x.pc)))

/-- The abort flag of a command: of the command itself, of its context, and in word 1 of the frame, whose check word follows (R307, R308). (DEDUCED: log entry 55.) -/
def setAbort (q o : Nat) (s : State) : State :=
  let s1 := match cmd? s o with | some c => setCmd { c with abort := true } s | none => s
  let x := sq s1 q
  let x1 := { x with ctxs := x.ctxs.map fun c => if c.origin = some o then { c with abort := true } else c }
  let s2 := setSq q x1 s1
  let mask := maskOfList (numsWhere 4 fun i => (nth x1.ctxs i Ctx.reset).abort)
  let k := seqBank q
  let words := (List.range 63).map fun i => (bankWord s2 k (frameWord q + i)).toNat
  let w1 := words.getD 1 0 % 2 ^ 12 + mask * 2 ^ 12
  let ws := words.set 1 w1
  let s3 := (bankOp true k (frameWord q + 1) (.write (BitVec.ofNat 64 w1)) s2).2
  (bankOp true k (frameWord q + 63) (.write (BitVec.ofNat 64 (crc32c (ws.flatMap fun v => leBytes 8 v)))) s3).2

/-- The effect of a short command at a sequencer that is not privileged (R286): LANE_SET, TIMEBASE_REALIGN, POWER_STATE and THERMAL_PROFILE. -/
def runShort (op : Nat) (e : Entry) (o : Nat) (s : State) : State :=
  if op = opLaneSet then runLaneSet e o s
  else if op = opTimebaseRealign then runRealign e o s
  else if op = opPowerState then runPowerState e o s
  else if op = opThermalProfile then runThermalProfile o s
  else finishCmd o stDone 0 0 0 s

/-- The preemption handler runs the short command that waits for it to its end (R299). -/
def runPreempting (q o : Nat) (s : State) : State :=
  match (sq s q).queue.find? fun c => c.origin == o, cmd? s o with
  | some c, some k =>
    runShort k.opcode (entryOfRegs c.opword c.params) o (setSq q { sq s q with queue := (sq s q).queue.filter fun y => y.origin != o } s)
  | _, _ => s

/-- What the base image's handler of a cause does (R227, R299, R308, R309, R318). (DEDUCED: log entries 53 and 55.) -/
def handle (q : Nat) (c : TrapCause) (detail : Nat) (s : State) : State :=
  let own := (nth (sq s q).ctxs (sq s q).ctx Ctx.reset).origin
  match c with
  | .abort => setAbort q detail s
  | .wdog => match own with | some o => setAbort q o s | none => s
  | .priv => match own with | some o => killCmd o stAborted s | none => s
  | .unit => if detail = hostTimeoutDetail then (match own with | some o => killCmd o stHostReadTimeout s | none => s) else s
  | .preempt => runPreempting q detail s

/-- TRAP: the frame is saved and the handler starts (R305). (DEDUCED, DESIGN CHOICE: log entries 8 and 55.) -/
def doTrap (q : Nat) (s : State) : State :=
  if !trapReady s q then s
  else match firstTrap (sq s q) with
    | none => s
    | some (c, d) =>
      let x := sq s q
      let s1 := setSq q { x with pendTrap := x.pendTrap.filter fun p => !(p.1 == c && p.2 == d) } s
      let s2 := enterTrap q c d s1
      let y := sq s2 q
      if y.state == .stopped then s2
      else
        let s3 := setSq q { y with state := .handler, inTrap := some c, resume := x.state, trapWait := x.wait, wait := none, pc := trapCode c,
                                   prePc := 0, words := y.words } s2
        handle q c d (flow q (trapCode c) 5 s3)

/-- The meaning of TRAP. -/
def execTrap (q : Nat) (s : State) : Out := engineStep s (doTrap q s)

/-- TRAPRET: the handler returns (R307). (DEDUCED: log entry 55.) -/
def doTrapret (q : Nat) (s : State) : State :=
  if seqPresent s q && (sq s q).state == .handler then trapReturn q s else s

/-- The meaning of TRAPRET. -/
def execTrapret (q : Nat) (s : State) : Out := engineStep s (doTrapret q s)

end Sys2Proof.Machine
end

