-- ==== Sys2Proof/Machine/Endpoint.lean ====
section
/-! DEFINITION. The PCI Express endpoint: completions and timeouts of the engine's reads (R225 to R228), Bus Master Enable (R229), the link
(R216), MSI-X (R231 to R235), D3hot (R214) and configuration requests (R213 to R217). -/

namespace Sys2Proof.Machine

/-! ### Reads of host memory -/

/-- The outstanding read with a tag. -/
def readOf (s : State) (tag : Nat) : Option HRead := s.pcie.reads.find? fun x => x.tag == tag

/-- A read is over: its tag is no longer outstanding, and a read that waits may take it. -/
def dropRead (tag : Nat) (s : State) : State :=
  let t := { s with pcie := { s.pcie with reads := s.pcie.reads.filter fun x => x.tag != tag } }
  pumpReads t.pcie.waitq.length t

/-- Whether a read belongs to the host move of sequencer q. -/
def ofSeq (q : Nat) (x : HRead) : Bool := match x.by_ with | .seq p _ _ => p == q | _ => false

/-- The other reads of the host move of sequencer q are abandoned; those not yet transmitted are not made (R227 item 3). -/
def abandonSeq (q : Nat) (s : State) : State :=
  { s with pcie := { s.pcie with reads := s.pcie.reads.map fun x => if ofSeq q x then { x with by_ := .abandoned } else x,
                                 waitq := s.pcie.waitq.filter fun x => !ofSeq q x } }

/-- The other reads of a transfer are abandoned, and the transfer is over (R227 item 3). -/
def dropXfer (w : XferFor) (s : State) : State :=
  { s with pcie := { s.pcie with reads := s.pcie.reads.map fun x => if x.by_ = .xfer w then { x with by_ := .abandoned } else x,
                                 waitq := s.pcie.waitq.filter fun x => x.by_ != .xfer w, xfers := s.pcie.xfers.filter fun x => x.whose != w } }

/-- The entry in examination of ring `r` goes on with what its transfer has brought (R224, R225, R227, R229). An entry whose ring is gone has no effect (R25).
(DEDUCED: log entry 20.) -/
def rerun (r op : Nat) (e : Entry) (d : HostRead) (s : State) : State :=
  if (ring? s r).isNone then s
  else if op = opPopulationSet then submitNow r op e (populationRow e d) s
  else if op = opPlanLoad then submitNow r op e (planLoadRow e d) s
  else if op = opPatchLoad then submitNow r op e (patchRow e d) s
  else if op = opCustodyGrant then submitNow r op e (grantRow e d) s
  else if op = opJobSearch then submitNow r op e (searchRow e d s) s
  else s

/-- A transfer ends without its data: an entry in examination goes on with what happened, a job ends with the status (R227, R229). -/
def failXfer (w : XferFor) (d : HostRead) (status : Nat) (s : State) : State :=
  match w with
  | .cmd r op e => rerun r op e d (dropXfer w s)
  | .job o => killCmd o status (dropXfer w s)

/-- The operation of a read fails at once, as under a timeout (R224, R227). (DEDUCED: log entry 53.) -/
def failRead (x : HRead) (c : HaltCause) (s : State) : State :=
  match x.by_ with
  | .fetch r => haltRing c r s
  | .seq q _ _ => flightDone q .host true (hostTimeoutDetail / 65536) (hostTimeoutDetail % 65536) (abandonSeq q s)
  | .xfer w => failXfer w .failed stHostReadTimeout s
  | .abandoned => s

/-- A fetch has read entries of a ring up to index k; the read of more, if more are pending, follows (R242). (DEDUCED: log entry 65.) -/
def fetched (r : Nat) (x : HRead) (s : State) : State :=
  match ring? s r with
  | none => s
  | some g =>
    if g.type == .sub && g.base ≤ x.addr && (x.addr - g.base) / 64 == g.got then
      fetch r (setRing r { g with got := (g.got + x.len / 64) % g.z } s)
    else s

/-- Bytes of a transfer arrive; with the last of them it is complete (R225). -/
def xferData (w : XferFor) (a : Nat) (bs : List Byte) (s : State) : State :=
  match s.pcie.xfers.find? fun x => x.whose == w with
  | none => s
  | some x =>
    let y := { x with got := memPut x.got (a - x.addr) bs }
    let s1 := { s with pcie := { s.pcie with xfers := s.pcie.xfers.map fun z => if z.whose = w then y else z } }
    if (s1.pcie.reads ++ s1.pcie.waitq).any fun z => z.by_ == .xfer w then s1
    else
      let s2 := { s1 with pcie := { s1.pcie with xfers := s1.pcie.xfers.filter fun z => z.whose != w } }
      match w with
      | .cmd r op e => rerun r op e (.data { len := y.len, bytes := y.got }) s2
      | .job o => jobInput o (memTake y.got 0 y.len) [] s2

/-- All data of a read has arrived. -/
def deliverHost (x : HRead) (bs : List Byte) (s : State) : State :=
  match x.by_ with
  | .fetch r => fetched r x s
  | .abandoned => s
  | .xfer w => xferData w x.addr bs s
  | .seq q k off =>
    let s1 := if moveOpen s q k off bs.length (.write 0) then moveWrite k off bs s else notOwned (.seq q) k (off / 8) s
    if (s1.pcie.reads ++ s1.pcie.waitq).any (ofSeq q) then s1 else flightDone q .host false 0 0 s1

/-- An unexpected completion (R228). -/
def unexpected (tag : Nat) (s : State) : State :=
  let quar := s.pcie.quar.any fun q => q.1 == tag
  let s1 := if bit (reg s 0x18030).toNat 31 then s else setReg 0x18030 (BitVec.ofNat 32 (2 ^ 31 + b2n quar * 2 ^ 30 + tag % 1024)) s
  raise (srcPe 2) tag (aerUncor 16 (count 0x18120 s1))

/-- COMPLETION with some bytes for a tag. -/
def doCompletion (tag : Nat) (bs : List Byte) (poisoned : Bool) (s : State) : State :=
  match readOf s tag with
  | none => if s.pcie.silent.contains tag then count 0x18128 s else unexpected tag s
  | some x =>
    let all := x.data ++ bs
    if x.by_ == .abandoned then
      if poisoned || decide (x.len ≤ all.length) then dropRead tag s
      else { s with pcie := { s.pcie with reads := s.pcie.reads.map fun y => if y.tag = tag then { y with data := all } else y } }
    else if poisoned then failRead x .poisonedFetch (dropRead tag (poisonedTlp s))
    else if all.length < x.len then
      { s with pcie := { s.pcie with reads := s.pcie.reads.map fun y => if y.tag = tag then { y with data := all } else y } }
    else deliverHost x (all.take x.len) (dropRead tag s)

/-- The meaning of COMPLETION. -/
def execCompletion (tag : Nat) (bytes : List Byte) (poisoned : Bool) (s : State) : Out := engineStep s (doCompletion tag bytes poisoned s)

/-- Whether a read's timeout has expired, to within 1 % (R226). (DEDUCED: log entry 65.) -/
def readExpired (s : State) (x : HRead) : Bool := decide (x.at_ + cplTimeout s * 99 / 100 ≤ nowT s)

/-- COMPLETION_TIMEOUT. An abandoned read is quarantined without a further report (R227 item 3). -/
def doCompletionTimeout (tag : Nat) (s : State) : State :=
  match readOf s tag with
  | none => s
  | some x =>
    if !readExpired s x then s
    else if x.by_ == .abandoned then dropRead tag (quarantine tag s)
    else failRead x .fetchTimeout (dropRead tag (readTimedOut tag x.addr s))

/-- The meaning of COMPLETION_TIMEOUT. -/
def execCompletionTimeout (tag : Nat) (s : State) : Out := engineStep s (doCompletionTimeout tag s)

/-- QUARANTINE_END: the tag becomes free (R228). -/
def doQuarantineEnd (tag : Nat) (s : State) : State :=
  if s.pcie.quar.any fun q => q.1 == tag && decide (q.2 ≤ nowT s) then
    let t := { s with pcie := { s.pcie with quar := s.pcie.quar.filter fun q => q.1 != tag, silent := s.pcie.silent.filter fun x => x != tag } }
    pumpReads t.pcie.waitq.length t
  else s

/-- The meaning of QUARANTINE_END. -/
def execQuarantineEnd (tag : Nat) (s : State) : Out := engineStep s (doQuarantineEnd tag s)

/-! ### MSI-X (R231 to R234) -/

/-- Send the messages that nothing holds any longer (R234). (DEDUCED: log entry 62.) -/
def releaseVecs (s : State) : State :=
  if s.pcie.msixEn then s.pcie.vecs.foldl (fun z p => if p.2.pend && !vecHeld z p.1 then dueVec p.1 z else z) s else s

/-- SOURCE_FIRE: the bit of a source changes from 0 to 1 (R232); an error bit is reported as every error is (R11, R403). (DEDUCED: log entry 62.) -/
def doSourceFire (src : Nat) (s : State) : State :=
  match srcReg src with
  | some (off, b) => if bit (reg s off).toNat b then s else raise src 0 s
  | none => s

/-- The meaning of SOURCE_FIRE. -/
def execSourceFire (src : Nat) (s : State) : Out := engineStep s (doSourceFire src s)

/-- COALESCING_TIME: TIME has passed since the first accumulated signal (R233). -/
def doCoalescing (v : Nat) (s : State) : State := if v < 2048 ∧ s.pcie.msixEn ∧ vecDue v s then dueVec v s else s

/-- The meaning of COALESCING_TIME. -/
def execCoalescingTime (vec : Nat) (s : State) : Out := engineStep s (doCoalescing vec s)

/-- Mask or unmask a vector or the function (R234). -/
def setMask (v : Option Nat) (on : Bool) (s : State) : State :=
  let t := match v with
    | some k => if k < 2048 then setVec k { vec s k with masked := on } s else s
    | none => { s with pcie := { s.pcie with fmask := on } }
  releaseVecs t

/-- A configuration write of the host: Request Retry Status until the engine is ready, then a completion without data and the effect (R217). -/
def cfgReq (f : State → State) (s : State) : State := if s.pcie.ready then post (.readData [] false) (f s) else post .retry s

/-- MSI_X_UNMASK: a vector's mask lies in BAR4, the function's in configuration space (R231, R234). -/
def doUnmask (v : Option Nat) (s : State) : State :=
  match v with | some k => hostMem (setMask (some k) false) s | none => cfgReq (setMask none false) s

/-- The meaning of MSI_X_UNMASK. -/
def execMsiXUnmask (v : Option Nat) (s : State) : Out := engineStep s (doUnmask v s)

/-- MSI-X Enable (R234): with 0 accumulated signals are discarded. (DEDUCED: log entry 62.) -/
def setMsix (on : Bool) (s : State) : State :=
  if on then releaseVecs { s with pcie := { s.pcie with msixEn := true } }
  else { s with pcie := { s.pcie with msixEn := false, vecs := s.pcie.vecs.map fun p => (p.1, { p.2 with acc := 0 }) } }

/-- The meaning of MSI_X_ENABLE_CLEAR. -/
def execMsiXEnableClear (s : State) : Out := engineStep s (cfgReq (setMsix false) s)

/-! ### Bus Master Enable and D3hot (R214, R229) -/

/-- The sequencers with a host move in flight. -/
def movingSeqs (s : State) : List Nat :=
  (List.range (seqCount s)).filter fun q => (s.pcie.reads ++ s.pcie.waitq).any (ofSeq q)

/-- The command of a sequencer's current context. -/
def ownCmd (s : State) (q : Nat) : Option Nat := (nth (sq s q).ctxs (sq s q).ctx Ctx.reset).origin

/-- An ending under R229: the command ends with BUS_MASTER_OFF, and its sequencer takes ABORT (R304). -/
def endOff (o : Nat) (s : State) : State :=
  match cmd? s o with
  | some c => raiseTrap c.home .abort o (killCmd o stBusMasterOff s)
  | none => s

/-- The operation of an abandoned host move fails with BUS_MASTER_OFF. -/
def moveOff (s : State) (q : Nat) : State :=
  let t := setSq q { sq s q with hostBusy := false } s
  match ownCmd s q with | some o => endOff o t | none => t

/-- The operation of an abandoned transfer fails with BUS_MASTER_OFF. -/
def xferOff (s : State) (w : XferFor) : State :=
  match w with
  | .cmd r op e => rerun r op e .busOff (dropXfer w s)
  | .job o => endOff o (dropXfer w s)

/-- Reads outstanding are abandoned and those that wait are not made; their operations fail. -/
def abandonAll (s : State) : State :=
  let qs := movingSeqs s
  let ws := s.pcie.xfers.map fun x => x.whose
  let t := { s with pcie := { s.pcie with reads := s.pcie.reads.map fun x => { x with by_ := .abandoned }, waitq := [] } }
  ws.foldl xferOff (qs.foldl moveOff t)

/-- The jobs that move data to or from host memory will end at their next commit point: their sequencers take ABORT (R229, R304). -/
def warnJobs (s : State) : State :=
  (s.jobs.filter needsHost).foldl (fun z j => raiseTrap (jsqOf j.quad) .abort j.origin z) s

/-- Bus Master Enable is cleared (R229). (DEDUCED: log entry 53.) -/
def clearBme (s : State) : State :=
  if !s.pcie.bme then s
  else
    let s1 := warnJobs (abandonAll { s with pcie := { s.pcie with bme := false, halted := true } })
    setSource (srcPe 5) (s1.rings.foldl (fun z p => haltRing .busMasterOff p.1 z) s1)

/-- The meaning of BUS_MASTER_ENABLE_CLEAR. -/
def execBusMasterEnableClear (s : State) : Out := engineStep s (cfgReq clearBme s)

/-- Requests to host memory may go again: held messages, reads that wait for a tag, and what the rings that are not halted have to post and to fetch. -/
def mayMaster (s : State) : State :=
  let u := releaseVecs s
  let t := pumpReads u.pcie.waitq.length u
  t.rings.foldl (fun z p => fetch p.1 (drainRing p.1 z)) t

/-- Bus Master Enable is set: held messages go, halted rings stay as they are (R229, R249). A ring created meanwhile was never halted. -/
def setBme (s : State) : State := if s.pcie.bme then s else mayMaster { s with pcie := { s.pcie with bme := true } }

/-- The meaning of BUS_MASTER_ENABLE_SET. -/
def execBusMasterEnableSet (s : State) : Out := engineStep s (cfgReq setBme s)

/-- D3hot. (DEDUCED: log entries 63 and 65.) -/
def enterD3 (s : State) : State := { s with pcie := { s.pcie with d3 := true } }

/-- The meaning of D3HOT. -/
def execD3hot (s : State) : Out := engineStep s (cfgReq enterD3 s)

/-- D0: requests and messages resume. -/
def leaveD3 (s : State) : State :=
  if s.pcie.d3 then mayMaster { s with pcie := { s.pcie with d3 := false } } else s

/-- The meaning of RETURN_TO_D0. -/
def execReturnToD0 (s : State) : Out := engineStep s (cfgReq leaveD3 s)

/-! ### The link (R216) -/

/-- Whether the link can train to a speed and width. FLIT mode is used at 64 GT/s. -/
def linkOk (speed width : Nat) (flit : Bool) : Bool :=
  decide (3 ≤ speed) && decide (speed ≤ 6) && [1, 2, 4, 8, 16].contains width && (flit || speed != 6)

/-- LINKCHG. The first link after a reset makes the engine ready when its other steps are done (R217). -/
def doLinkchg (speed width : Nat) (flit : Bool) (s : State) : State :=
  if !linkOk speed width flit then s
  else
    let changed := rf s 0x18004 31 29 != speed || rf s 0x18004 28 24 != width
    let s1 := updateReady (setReg 0x18008 (BitVec.ofNat 32 (uploadU speed width))
      (setReg 0x18004 (BitVec.ofNat 32 (speed * 2 ^ 29 + width * 2 ^ 24 + b2n flit * 2 ^ 23)) s))
    if !changed then s1
    else
      let s2 := setSource (srcPe 3) s1
      match s2.plans.active with
      | some im => if (linkFail s2 im).isSome then setSource (srcPe 4) s2 else s2
      | none => s2

/-- The meaning of LINKCHG. -/
def execLinkchg (speed width : Nat) (flit : Bool) (s : State) : Out := engineStep s (doLinkchg speed width flit s)

/-! ### AER (R224) -/

/-- AER_ERROR: an error of the base specification, by its bit in the status register. -/
def doAer (sev : AerSev) (b : Nat) (s : State) : State :=
  if 32 ≤ b then s else match sev with | .correctable => aerCor b s | .uncorrectable => aerUncor b s

/-- The meaning of AER_ERROR. -/
def execAerError (sev : AerSev) (b : Nat) (s : State) : Out := engineStep s (doAer sev b s)

/-! ### Configuration requests (R213 to R217, R231) -/

/-- A base address register: 64-bit memory, prefetchable for BAR2 alone (R218). -/
def barDword (s : State) (i : Nat) : W32 :=
  let size := if i < 2 then 2 ^ 26 else if i < 4 then 2 ^ 25 else 2 ^ 16
  let low := if i = 2 then 0xC#32 else 0x4#32
  if i % 2 = 0 then (tblGet s.pcie.bars i 0#32 &&& ~~~(BitVec.ofNat 32 (size - 1))) ||| low else tblGet s.pcie.bars i 0#32

/-- The type 0 header (R213, R218): doublewords 0x00 to 0x3C. (PRESUMED: log entry 4.) -/
def headerDword (s : State) (off : Nat) : W32 :=
  let p := s.pcie
  if off = 0x0 then 0x20481C7E#32
  else if off = 0x4 then cfgBits s 4 ||| BitVec.ofNat 32 (2 ^ 20 + 2 * b2n p.memSpace + 4 * b2n p.bme)
  else if off = 0x8 then 0x118000B0#32
  else if off = 0xC then cfgBits s 0xC
  else if 0x10 ≤ off ∧ off < 0x28 then barDword s ((off - 0x10) / 4)
  else if off = 0x2C then BitVec.ofNat 32 (p.ssid * 65536 + p.ssvid)
  else if off = 0x34 then 0x40#32
  else if off = 0x3C then cfgBits s 0x3C
  else 0#32

/-- Power Management, MSI-X and PCI Express capabilities (R214, R215, R216). (PRESUMED: log entry 4.) -/
def capDword (s : State) (off : Nat) : W32 :=
  let p := s.pcie
  let v (n : Nat) : W32 := BitVec.ofNat 32 n
  if off = 0x40 then 0x00035001#32
  else if off = 0x44 then v (8 + 3 * b2n p.d3)
  else if off = 0x50 then v (b2n p.msixEn * 2 ^ 31 + b2n p.fmask * 2 ^ 30 + 2047 * 2 ^ 16 + 0x7011)
  else if off = 0x54 then 0x4#32
  else if off = 0x58 then 0x8004#32
  else if off = 0x70 then 0x00020010#32
  else if off = 0x74 then 0x10008022#32
  else if off = 0x78 then
    cfgBits s 0x78 ||| v (b2n p.ro * 16 + Nat.log2 (p.mps / 128) * 32 + Nat.log2 (p.mrrs / 128) * 4096 + b2n (!p.reads.isEmpty) * 2 ^ 21)
  else if off = 0x7C then 0x00400106#32
  else if off = 0x80 then cfgBits s 0x80 ||| v (rf s 0x18004 31 29 * 2 ^ 16 + rf s 0x18004 28 24 * 2 ^ 20)
  else if off = 0x94 then 0x0003000F#32
  else if off = 0x98 then v (p.cto + b2n p.tenBit * 4096)
  else if off = 0x9C then 0x0000007E#32
  else if off = 0xA0 then cfgBits s 0xA0
  else 0#32

/-- The headers of the extended capabilities behind AER, as R214 links them. (PRESUMED: log entry 4.) -/
def extHeaders : Tbl W32 :=
  [(0x148, 0x15810003#32), (0x158, 0x18410019#32), (0x184, 0x19010025#32), (0x190, 0x1C010026#32), (0x1C0, 0x1F01002A#32),
   (0x1F0, 0x21010031#32), (0x210, 0x00010027#32)]

/-- Extended configuration space (R214, R224): AER, the Device Serial Number, and of the capabilities of the link their headers; what else they hold is the base
specification's (log entry 15). (PRESUMED, DESIGN CHOICE: log entries 4, 13 and 15.) -/
def extDword (s : State) (off : Nat) : W32 :=
  let p := s.pcie
  if off = 0x100 then 0x14820001#32
  else if off = 0x104 then BitVec.ofNat 32 p.aerUnc
  else if off = 0x108 then p.aerUncMask
  else if off = 0x10C then p.aerSev
  else if off = 0x110 then BitVec.ofNat 32 p.aerCor
  else if off = 0x114 then p.aerCorMask
  else if off = 0x118 then cfgBits s 0x118 ||| BitVec.ofNat 32 (p.aerFirst + 0xA0)
  else if 0x11C ≤ off ∧ off < 0x12C then nth p.aerHdr ((off - 0x11C) / 4) 0
  else if off < 0x148 then 0#32
  else match tblFind extHeaders off with
    | some h => h
    | none =>
      if off = 0x14C then p.serial.setWidth 32
      else if off = 0x150 then (p.serial >>> 32).setWidth 32
      else if off < 0x158 ∨ 0x240 ≤ off then 0#32
      else Config.baseSpecDword off

/-- A doubleword of configuration space (R213 to R215). -/
def cfgRead (s : State) (off : Nat) : W32 :=
  if off < 0x40 then headerDword s off else if off < 0x100 then capDword s off else extDword s off

/-- The bits of a doubleword that software writes and no other request names, and those that it clears by writing 1. (PRESUMED: log entry 4.) -/
def cfgRwMask (off : Nat) : W32 :=
  if off = 0x4 then 0x140#32 else if off = 0xC ∨ off = 0x3C then 0xFF#32 else if off = 0x78 then 0x90F#32 else if off = 0x80 then 0xC8#32
  else if off = 0xA0 then 0xF#32 else if off = 0x118 then 0x140#32 else 0#32
def cfgClearMask (off : Nat) : W32 := if off = 0x4 then 0xF9000000#32 else if off = 0x78 then 0xF0000#32 else 0#32

/-- A write of those bits. -/
def cfgOther (off : Nat) (v : W32) (s : State) : State :=
  let o := off / 4 * 4
  let m := cfgRwMask o
  let x := ((cfgBits s o &&& ~~~m) ||| (v &&& m)) &&& ~~~(v &&& cfgClearMask o)
  if m ||| cfgClearMask o = 0 then s else { s with pcie := { s.pcie with cfg := tblSet s.pcie.cfg o x } }

/-- A doubleword of BAR4 (R231): the table, the pending bits, and 0 in the rest. (DEDUCED: log entry 63.) -/
def tableRead (s : State) (off : Nat) : W32 :=
  if off < 0x8000 then
    let x := vec s (off / 16)
    BitVec.ofNat 32 (if off % 16 = 0 then x.addr else if off % 16 = 4 then x.addr / 2 ^ 32 else if off % 16 = 8 then x.data else b2n x.masked)
  else if off < 0x8100 then BitVec.ofNat 32 (maskOfList (numsWhere 32 fun i => (vec s (8 * (off - 0x8000) + i)).pend))
  else 0

/-- A write of one field. (PRESUMED: log entry 4.) -/
def cfgWrite (q : CfgReq) (s : State) : State :=
  let p := s.pcie
  match q with
  | .memSpace on => { s with pcie := { p with memSpace := on } }
  | .busMaster on => if on then setBme s else clearBme s
  | .maxPayload n => if [128, 256, 512].contains n then { s with pcie := { p with mps := n } } else s
  | .maxReadReq n => if [128, 256, 512, 1024, 2048, 4096].contains n then { s with pcie := { p with mrrs := n } } else s
  | .tenBitTags on => { s with pcie := { p with tenBit := on } }
  | .cplTimeout v => { s with pcie := { p with cto := v % 16 } }
  | .relaxedOrdering on => { s with pcie := { p with ro := on } }
  | .msixEnable on => setMsix on s
  | .functionMask on => setMask none on s
  | .powerD3hot on => if on then enterD3 s else leaveD3 s
  | .bar i v => if i < 6 then { s with pcie := { p with bars := tblSet p.bars i v } } else s
  | .aerStatus cor v =>
    let keep (x : Nat) : Nat := x &&& (2 ^ 32 - 1 - v.toNat)
    if cor then { s with pcie := { p with aerCor := keep p.aerCor } } else { s with pcie := { p with aerUnc := keep p.aerUnc } }
  | .aerMask cor v => if cor then { s with pcie := { p with aerCorMask := v } } else { s with pcie := { p with aerUncMask := v } }
  | .aerSeverity v => { s with pcie := { p with aerSev := v } }
  | .other off v => cfgOther off v s
  | .read _ | .vectorMask _ _ | .vectorEntry _ _ _ | .tableRead _ | .tablePoisoned _ => s

/-- CONFIGURATION_REQUEST: Request Retry Status until the engine is ready, then served; the accesses to BAR4 are memory requests (R217, R224, R231). -/
def doConfig (q : CfgReq) (s : State) : State :=
  match q with
  | .vectorMask v on => hostMem (setMask (some v) on) s
  | .vectorEntry v addr data => hostMem (fun t => if v < 2048 then setVec v { vec t v with addr := addr, data := data % 2 ^ 32 } t else t) s
  | .tableRead off => if !s.pcie.memSpace || decide (0x10000 ≤ off) then doUnsupported s else post (.readData (leBytes 4 (tableRead s off).toNat) false) s
  | .tablePoisoned off => hostMem (fun t => busError 5 4 off (poisonedTlp t)) s
  | .read off => if s.pcie.ready then post (.readData (leBytes 4 (cfgRead s (off / 4 * 4 % 4096)).toNat) false) s else post .retry s
  | c => cfgReq (cfgWrite c) s

/-- The meaning of CONFIGURATION_REQUEST. -/
def execConfigurationRequest (q : CfgReq) (s : State) : Out := engineStep s (doConfig q s)

end Sys2Proof.Machine
end

