-- ==== Sys2Proof/Machine/Observe.lean ====
section
/-! DEFINITION. Observation: TRACE_SET, the frames of the observation ports, and the JTAG port (R357 to R362). -/

namespace Sys2Proof.Machine

/-! ### Trace (R357 to R360) -/

/-- What TRACE_SET refuses with BAD_PARAM (R359, R3): a SIZELOG above 18, an absent sequencer, or a DRAM region that reaches the journal area,
lies beyond the population or overlaps a region of the active or the staged plan. (DEDUCED: log entry 59.) -/
def traceBad (e : Entry) (s : State) : Bool :=
  let a := 4096 * pf e.p2 27 0
  let n := traceBytes (pf e.p2 35 28)
  let hits (p : Option Image) : Bool := match p with | some im => regionHit im a n | none => false
  decide (18 < pf e.p2 35 28) || decide (2 ^ seqCount s ≤ pf e.p0 27 0) ||
    (bit (pn e.p2) 62 && (decide (journalBase s < a + n) || hits s.plans.active || hits s.plans.staged))

/-- The settings of TRACE_SET (R359); DRAM trace starts at BASE with FULL clear. (DEDUCED: log entry 71.) -/
def setTrace (e : Entry) (s : State) : State :=
  let s1 := { s with trace := { s.trace with flowMask := pf e.p0 27 0, evtEn := bit (pn e.p1) 0, stateMask := pf e.p1 15 8,
                                             base := pf e.p2 27 0, sizeLog := pf e.p2 35 28, wrap := bit (pn e.p2) 61,
                                             dramEn := bit (pn e.p2) 62, obsEn := bit (pn e.p2) 63 } }
  if bit (pn e.p2) 62 then setRf 0x40 30 30 0 (setTraceWp (4096 * pf e.p2 27 0) s1) else s1

/-- TRACE_SET. -/
def doTraceSet (r : Nat) (e : Entry) : State → State :=
  submit r opTraceSet e { baseRow opTraceSet with
    bad := traceBad e,
    run := fun o s => finishCmd o stDone 0 0 0 (setTrace e s) }

/-- The meaning of TRACE_SET. -/
def execTraceSet (r : Nat) (e : Entry) (s : State) : Out := engineStep s (doTraceSet r e s)

/-- The link number under which `sent` lists the frames of an observation port. (DESIGN CHOICE: log entry 6.) -/
def obsLink (port : Nat) : Nat := 132 + port

/-- The entries that wait for an observation port (R357). -/
def obsBuf (s : State) (port : Nat) : List W64 := if port = 0 then s.trace.buf0 else s.trace.buf1

/-- The payload of a trace frame: a TICK entry, up to 79 entries, EMPTY entries (R357, R358). -/
def obsPayload (s : State) (port : Nat) : Mem :=
  memPut [] 0 ((tickEntry s :: (obsBuf s port).take 79).flatMap fun e => leBytes 8 e.toNat)

/-- The codeword slot of an observation port that comes next, and the port after it (R34, R357). -/
def obsSlot (s : State) (port : Nat) : Nat := if port = 0 then s.trace.slot0 else s.trace.slot1
def obsNext (port : Nat) (s : State) : State :=
  let t := max (obsSlot s port) (225 * nowT s) + 2 * slotLen
  if port = 0 then { s with trace := { s.trace with slot0 := t } } else { s with trace := { s.trace with slot1 := t } }

/-- Whether that slot begins in this slice. -/
def obsOpen (s : State) (port : Nat) : Bool := decide (obsSlot s port < 225 * (nowT s + 32))

/-- One codeword slot of an observation port: nothing while its GLBCTL bit is 0 or a warm reset is in progress (R393), a frame of trace, or an IDLE frame (R357). SEQ counts CONTROL frames, and
the ports send none (R35). (DEDUCED: log entry 71.) -/
def doObsFrameSend (port : Nat) (s : State) : State :=
  if 2 ≤ port ∨ rf s 0xC port port = 0 ∨ s.pwr.warm ∨ !obsOpen s port then s
  else if (obsBuf s port).isEmpty then sendFrame (obsLink port) (.idle 0) (obsNext port s)
  else
    let s1 := sendFrame (obsLink port) (.sample 0 (obsPayload s port)) (obsNext port s)
    if port = 0 then { s1 with trace := { s1.trace with buf0 := s1.trace.buf0.drop 79 } }
    else { s1 with trace := { s1.trace with buf1 := s1.trace.buf1.drop 79 } }

/-- The slots of the observation ports that begin in this slice. -/
def obsTime (s : State) : State := doObsFrameSend 1 (doObsFrameSend 0 s)

/-- The meaning of OBS_FRAME_SEND. -/
def execObsFrameSend (port : Nat) (s : State) : Out := engineStep s (doObsFrameSend port s)

/-! ### JTAG (R361, R362) -/

/-- IDCODE (R361). -/
def idcodeValue : W32 := 0x1204858F#32

/-- What REGDATA returns: 0 for GW, WO and reserved offsets; no side effect (R362). -/
def jtagValue (s : State) (off : Nat) : W32 :=
  match accOf s off with
  | .reserved => 0
  | .wo => 0
  | .gw _ _ => 0
  | .mw => regVal s off &&& 0xFFFF#32
  | _ => match tblFind s.latch off with | some v => v | none => regVal s off

/-- Shift an instruction in; `out` is what the data register then shifts out. (DEDUCED, PRESUMED: log entries 4 and 72.) -/
def jtagLoad (code : BitVec 8) (out : Option W32) (s : State) : State := { s with jtag := { s.jtag with ir := code, out := out } }

/-- The meaning of IDCODE. -/
def execIdcode (s : State) : Out := .next (jtagLoad 0x01 (some idcodeValue) s)

/-- The meaning of REGADDR: the offset is loaded. -/
def execRegaddr (off : W32) (s : State) : Out := .next { s with jtag := { s.jtag with ir := 0x10, addr := off, out := none } }

/-- REGDATA; while the engine's function is undefined (R362), or a holding register with SNAPSTAT.VALID 0 (R355), so is the value returned. (DEDUCED, DESIGN CHOICE: log entries 7 and 72.) -/
def doRegdata (s : State) : State :=
  if s.jtag.testMode || (isHold s s.jtag.addr.toNat && rf s 0xC0004 31 31 == 0) then
    let p := takeFree s
    jtagLoad 0x11 (some (p.1.setWidth 32)) p.2
  else jtagLoad 0x11 (some (jtagValue s s.jtag.addr.toNat)) s

/-- The meaning of REGDATA. -/
def execRegdata (s : State) : Out := .next (doRegdata s)

/-- A test instruction comes into force when CAPS.BSCAN is 1; otherwise its code acts as BYPASS (R362). (DEDUCED: log entry 9.) -/
def testLoad (code : BitVec 8) (s : State) : State :=
  let s1 := jtagLoad code none s
  { s1 with jtag := { s1.jtag with testMode := s.jtag.testMode || s.bscan } }

/-- The meaning of EXTEST. (DEDUCED: log entry 9.) -/
def execExtest (s : State) : Out := .next (testLoad 0x00 s)

/-- The meaning of SAMPLE/PRELOAD: no effect on the engine. -/
def execSamplePreload (s : State) : Out := .next (jtagLoad 0x02 none s)

/-- The meaning of EXTEST_PULSE. (DEDUCED: log entry 9.) -/
def execExtestPulse (s : State) : Out := .next (testLoad 0x20 s)

/-- The meaning of EXTEST_TRAIN. (DEDUCED: log entry 9.) -/
def execExtestTrain (s : State) : Out := .next (testLoad 0x21 s)

/-- Whether a code is an instruction of R361 other than BYPASS. -/
def jtagListed (code : BitVec 8) : Bool := oneOf code.toNat [0x01, 0x10, 0x11, 0x00, 0x02, 0x20, 0x21]

/-- The meaning of BYPASS, which every unlisted code is (R361); a code that names another instruction spells no BYPASS. -/
def execBypass (code : BitVec 8) (s : State) : Out := .next (if jtagListed code then s else jtagLoad code none s)

end Sys2Proof.Machine
end

