-- ==== Sys2Proof/Machine/Resets.lean ====
section
/-! DEFINITION. Resets: the reset domains (R22, R23), FLR, PCIe hot reset and PERST# (R25, R230), WARM_RESET_N (R26, R27, R391) and
SYS_RESET_N (R28, R66, R313, R334, R390). -/

namespace Sys2Proof.Machine

/-! ### Reset domains (R22, R350) -/

/-- The offsets of BAR0 in RD-HOST, RD-CTRL and RD-CAP. -/
def hostOff (o : Nat) : Bool := (decide (0x10000 ≤ o) && decide (o < 0x40000)) || (decide (0x100000 ≤ o) && decide (o < 0x400000))
def ctrlOff (o : Nat) : Bool := (decide (0x60000 ≤ o) && decide (o < 0x80000)) || decide (0x1000000 ≤ o)
def capOff (o : Nat) : Bool := decide (0x400000 ≤ o) && decide (o < 0x1000000)

/-- Registers, counters and latched halves of a domain return to their reset values. -/
def dropRegs (p : Nat → Bool) (s : State) : State :=
  { s with regs := tblDrop s.regs p, ctrs := tblDrop s.ctrs p, latch := tblDrop s.latch p }

/-- Requests of a kind that wait for a slot are no longer made. -/
def dropReqs (p : DReq → Bool) (s : State) : State :=
  { s with dram := { s.dram with subs := s.dram.subs.map fun x => (x.1, { x.2 with reqs := x.2.reqs.filter fun r => !p r }) } }

/-- Whether a read of several granules is for the host: the aperture and the upload streams. -/
def forHost (b : ReadBy) : Bool := match b with | .aperture _ _ => true | .upload _ _ _ _ _ => true | _ => false

/-- Whether a request is part of one of these reads. -/
def partOf (ds : List DRead) (r : DReq) : Bool := match r.by_ with | .part id => ds.any fun d => d.id == id | _ => false

/-- Reads of several granules that `p` holds for are no longer wanted. -/
def dropReads (p : ReadBy → Bool) (s : State) : State :=
  dropReqs (partOf (s.dram.reads.filter fun d => p d.by_)) { s with dram := { s.dram with reads := s.dram.reads.filter fun d => !p d.by_ } }

/-! ### RD-HOST -/

/-- The trained link, which PESTAT and PEUCAP show, outlives a reset that does not take the link down. (DEDUCED: log entry 73.) -/
def keepLink (s t : State) : State := setReg 0x18008 (reg s 0x18008) (setReg 0x18004 (reg s 0x18004) t)

/-- The endpoint after a reset of RD-HOST: every tag outstanding is in quarantine for twice the engine timeout in force before (R230). (DEDUCED: log entry 73.) -/
def resetPcie (ready : Bool) (s : State) : State :=
  let tags := s.pcie.reads.map fun x => x.tag
  let t := tags.foldl (fun z x => quarantine x z) s
  { t with pcie := { Pcie.reset with ready := ready, quar := t.pcie.quar, silent := s.pcie.silent ++ tags, ssvid := s.pcie.ssvid,
                                     ssid := s.pcie.ssid, serial := s.pcie.serial } }

/-- Rings are cleared: no completion of a command accepted so far is posted (R25, R230). -/
def clearRings (s : State) : State :=
  { s with rings := [], cmds := s.cmds.map fun c => { c with lost := true }, jr := { s.jr with out := [] } }

/-- A reset of RD-HOST. Rings go first, so that nothing more is posted (R25); custody ends and a new nonce is drawn (R346). -/
def resetHost (ready linkStays : Bool) (s : State) : State :=
  let s1 := resetPcie ready (dropReads forHost (clearRings s))
  let s2 := dropRegs hostOff s1
  newNonce (endCustody (if linkStays then keepLink s s2 else s2))

/-- FLR, PCIe hot reset and PERST#: R229 applies to the commands in progress (R230), work goes on (R25), the journal tells of the reset
(R154). None has an effect during a warm reset (R24). (DEDUCED: log entry 73.) -/
def hostReset (kind : Nat) (linkStays : Bool) (s : State) : State :=
  if s.pwr.warm then s
  else
    let s1 := warnJobs (abandonAll (jcommit (.reset kind) (clearRings s)))
    setSource (srcPe 16) (resetHost (s.pcie.ready && linkStays) linkStays s1)

/-- The meaning of FLR: a configuration write, whose completion leaves before the reset (R217). (DEDUCED: log entry 73.) -/
def execFlr (s : State) : Out := engineStep s (if s.pcie.ready then hostReset 1 true (post (.readData [] false) s) else post .retry s)

/-- The meaning of PCIE_HOT_RESET: the link trains again. -/
def execPcieHotReset (s : State) : Out := engineStep s (hostReset 2 false s)

/-- The meaning of PERST#. (DEDUCED: log entry 73.) -/
def execPerst (s : State) : Out := engineStep s (hostReset 3 false s)

/-! ### RD-CTRL -/

/-- BANKOWN of a bank whose reset owner is the host: NEW and OWNER MHW, GUEST and PREV none (R4, R338). -/
def hostBank : W32 := 0x000FF0BB#32

/-- On an LC2048-HA the host owns S5, S6, S9 and S10 at reset (R4). -/
def bankOwners (s : State) : State :=
  match s.part with
  | .fa => s
  | .ha => [5, 6, 9, 10].foldl (fun z k => setReg (0x60000 + 4 * k) hostBank z) s

/-- The sequencers whose control store failed at boot do not start (R334). (DEDUCED: log entry 74.) -/
def failedStores (s : State) : List Nat := (List.range (seqCount s)).filter fun q => bit s.stores.csFail q

/-- The control stores that failed show in MARCHSTAT.CSFAIL, and their sequencers are STOPPED. (DEDUCED: log entry 74.) -/
def stopFailed (s : State) : State :=
  let qs := failedStores s
  qs.foldl (fun z q => setSq q { sq z q with state := .stopped } z) (if qs.isEmpty then s else setRf 0x60100 27 0 (maskOfList qs) s)

/-- A reset of RD-CTRL: sequencers, control stores, bank ownership, codec engines and the march engine, and the reads of DRAM that they wait for. Bank contents
stay. (DEDUCED: log entry 74.) -/
def resetCtrl (s : State) : State :=
  let s1 := dropReqs (fun r => r.data.isNone) (dropReads (fun _ => true) (dropRegs ctrlOff s))
  bankOwners { s1 with seqs := [], jobs := [], cxSteps := [],
                       stores := { base := none, words := [], disp := [], oaEntry := [], digest := 0, patch := 0, staged := [],
                                   flash := s.stores.flash, csFail := s.stores.csFail },
                       banks := { s1.banks with march := none, fix := [] },
                       guard := { s1.guard with csqArm := none } }

/-- The boot ROM loads the control stores from the flash (R313); the subsystem identity comes with the image (R213). -/
def bootLoad (s : State) : State :=
  let img := bootImage s.stores.flash
  let id (a d : Nat) : Nat := match img with | some im => if imLE im a 2 = 0 then d else imLE im a 2 | none => d
  stopFailed { s with stores := { s.stores with base := img }, pcie := { s.pcie with ssvid := id 20 0x1C7E, ssid := id 22 0x2048 } }

/-! ### RD-CAP -/

/-- A reset of RD-CAP: lanes, matchers, automata, writers and plan slots (R27). (DEDUCED: log entry 33.) -/
def resetCap (s : State) : State :=
  { dropRegs capOff s with lanes := [], train := none, plans := { staged := none, active := none, drfmP := [], admitting := none }, au := Autos.reset,
                           cap := Cap.reset, streams := [] }

/-! ### WARM_RESET_N (R26, R27, R391) -/

/-- Whether a low time of WARM_RESET_N is a warm reset (R391). (DESIGN CHOICE: log entry 16.) -/
def warmWidth (ns : Nat) : Bool := if ns < 200 then false else if 1000 ≤ ns then true else Config.warmTaken ns

/-- A subchannel is in self-refresh. -/
def sleepSub (sc : Nat) (s : State) : State := match (sub s sc).sr with | .asleep _ => s | _ => issueSre sc (nowT s) s

/-- The writes that wait are done, in the order received. (DEDUCED: log entry 73.) -/
def writesNow (s : State) : State :=
  let rs := (s.dram.subs.flatMap fun p => p.2.reqs).filter fun r => r.data.isSome
  rs.foldl (fun z r => writeDram r.addr (r.data.getD []) z) (dropReqs (fun r => r.data.isSome) s)

/-- A DRAM_TRAIN that had not ended leaves every populated channel UNTRAINED; otherwise the READY channels are in self-refresh at the end (R26, R27). -/
def warmDram (training : Bool) (s : State) : State :=
  if training then (List.range (chCount s)).foldl (fun z ch => if chState z ch = 0 then z else setRf (chBase ch + 4) 31 28 1 z) s
  else ((List.range (subCount s)).filter fun sc => chState s (sc / 2) == 3).foldl (fun z sc => sleepSub sc z) s

/-- WARM_RESET_N is sampled low. (DEDUCED: log entry 73.) -/
def doWarmReset (ns : Nat) (s : State) : State :=
  if s.pwr.warm || !warmWidth ns then s
  else
    let training := (openOp s opDramTrain).isSome
    let s1 := resetHost false true (jcommit (.reset 4) (clearRings s))
    let s2 := trigLow (hardStop .reset 6 s1)
    let s3 := writesNow (journalNow 4 (endCommands stAborted (endWaitingArm stAborted s2)))
    let s4 := resetCap (warmDram training (resetCtrl s3))
    setRf 0x50000 29 27 0
      { s4 with pwr := { s4.pwr with orders := [], warm := true, warmAt := nowT s, released := false }, snap := { s4.snap with waiters := [], owed := [] } }

/-- The meaning of WARM_RESET_N. (DESIGN CHOICE: log entry 16.) -/
def execWarmResetN (width : Nat) (s : State) : Out := engineStep s (doWarmReset width s)

/-- The journal entries from JSEQ `j` on as both copies hold them (R157). -/
def journalCopies (s : State) (j : Nat) : List (List Byte) := (jSpan s j).map fun a => dramTake s a 64

/-- The ring of accepted work is rebuilt from both journal copies while a journal is in force, else from the hold (R26, R157, R401). An entry that is valid in
neither copy ends it. -/
def rebuildJournal (s : State) : State :=
  if s.jr.inForce then
    let j := jOldest s
    let n := s.jr.next - j
    let es := readBack (keptOp s) j (journalCopies s j)
    let at_ (i : Nat) : Nat := (s.jr.pos + journalSize - (n - i)) % journalSize
    { s with jr := { s.jr with entries := ((es.zip (List.range es.length)).map fun p => (at_ p.2, p.1)).reverse, next := (j + es.length) % 2 ^ 48,
                               pos := at_ es.length } }
  else s

/-- The release takes effect: the boot image is loaded, READY channels leave self-refresh, and the engine is in PS0, or in PS2 when
tripped (R26, R363, R377). -/
def endWarm (s : State) : State :=
  let s1 := rebuildJournal (bootLoad { s with pwr := { s.pwr with warm := false, released := false } })
  updateReady (if tripped s then setRf 0x50000 31 27 16 (doubleRefresh true s1) else setRf 0x50000 31 27 0 (allLeaveSr s1))

/-- The 30 µs step of R26 has ended. -/
def warmOver (s : State) : Bool := decide (s.pwr.warmAt + 30 * usTicks ≤ nowT s)

/-- WARM_RESET_N is released; before the 30 µs step has ended the release waits for its end (R391). -/
def doWarmRelease (s : State) : State :=
  if !s.pwr.warm then s
  else if warmOver s then endWarm s
  else { s with pwr := { s.pwr with released := true } }

/-- A release that waited takes effect. -/
def warmTime (s : State) : State := if s.pwr.warm && s.pwr.released && warmOver s then endWarm s else s

/-- The meaning of WARM_RESET_RELEASE. -/
def execWarmResetRelease (s : State) : Out := engineStep s (doWarmRelease s)

/-! ### SYS_RESET_N (R23, R28, R66, R313, R334, R362, R376, R390) -/

/-- CAPS: the straps and the quadrants present (R5, R351). -/
def capsWord (p : Part) (refsel : Nat) (bscan : Bool) : W32 :=
  BitVec.ofNat 32 (refsel * 32 + b2n bscan * 16 + match p with | .fa => 0xF | .ha => 0x3)

/-- Every register at its reset value, those that the straps set among them (R66). -/
def strapRegs (p : Part) (refsel : Nat) (bscan : Bool) : Tbl W32 :=
  let a := TbSettings.ofStrap refsel
  let w (n : Nat) : W32 := BitVec.ofNat 32 n
  let t := tblSet (tblSet [] 0x8 (capsWord p refsel bscan)) 0x40000 (w (a.refsel * 2 ^ 26 + a.nint))
  if a.nfrac = 0 then t else tblSet (tblSet t 0x40004 (w a.nfrac)) 0x40008 (w a.nmod)

/-- Whether the instruction in force is a boundary-scan test (R362). (DEDUCED: log entry 72.) -/
def testCode (code : BitVec 8) : Bool := oneOf code.toNat [0x00, 0x20, 0x21]

/-- The engine at the rising edge of SYS_RESET_N. What is no state of the engine stays: what it has sent, the contents of the scratch banks,
the TAP, the trip comparators, the values drawn from outside. (DEDUCED, DESIGN CHOICE: log entries 3 and 5 and 72 and 74.) -/
def sysReset (refsel : BitVec 2) (bscan : Bool) (flash : Flash) (csBad : BitVec 28) (s : State) : State :=
  let r := refsel.toNat
  let z := State.reset
  let s1 := bankOwners
    { z with part := s.part, refstrap := r, bscan := bscan, regs := strapRegs s.part r bscan,
             tb := { z.tb with act := TbSettings.ofStrap r },
             pcie := { z.pcie with serial := s.pcie.serial }, sent := s.sent, posted := s.posted, fresh := s.fresh, pending := s.pending,
             guard := { z.guard with draws := s.guard.draws },
             banks := { s.banks with march := none, fix := [] },
             stores := { z.stores with flash := flash, csFail := csBad.toNat },
             pwr := { z.pwr with comps := s.pwr.comps },
             jtag := { s.jtag with testMode := bscan && testCode s.jtag.ir } }
  let s2 := bootLoad (newNonce s1)
  if (failedStores s2).isEmpty then s2 else raise (srcMarch 2) (maskOfList (failedStores s2)) s2

/-- A comparator that still reads 115 °C trips the engine again at once (R376). (DEDUCED: log entry 74.) -/
def tripAgain (s : State) : State :=
  match (List.range 24).find? fun i => bit s.pwr.comps i with
  | some i => doTrip i s
  | none => s

/-- The meaning of SYS_RESET_N: the one command that also ends the state of R362 and that of R71. -/
def execSysResetN (refsel : BitVec 2) (bscan : Bool) (flash : Flash) (csBad : BitVec 28) (s : State) : Out :=
  let t := sysReset refsel bscan flash csBad s
  .next (keepOutside t (tripAgain t))

end Sys2Proof.Machine
end

