-- ==== Sys2Proof/Machine/Dispatch.lean ====
section
/-! DEFINITION. The dispatch: one arm per command, each one direct call of its meaning. -/

namespace Sys2Proof.Machine

/-- The effect of a command on everything but the queue. -/
def exec (i : Instr) (s : State) : Host.Outcome State Fault Refusal :=
  match i with
  | .nop r e => Sys2Proof.Machine.execNop r e s
  | .identify r e => Sys2Proof.Machine.execIdentify r e s
  | .inventory r e => Sys2Proof.Machine.execInventory r e s
  | .populationSet r e => Sys2Proof.Machine.execPopulationSet r e s
  | .dramTrain r e => Sys2Proof.Machine.execDramTrain r e s
  | .dramTrainEnd ready bad => Sys2Proof.Machine.execDramTrainEnd ready bad s
  | .laneSet r e => Sys2Proof.Machine.execLaneSet r e s
  | .linkTrain r e => Sys2Proof.Machine.execLinkTrain r e s
  | .trainingStateExit lane => Sys2Proof.Machine.execTrainingStateExit lane s
  | .trainingTimeout lane => Sys2Proof.Machine.execTrainingTimeout lane s
  | .waveEnd => Sys2Proof.Machine.execWaveEnd s
  | .timebaseSet r e => Sys2Proof.Machine.execTimebaseSet r e s
  | .conjunction r e => Sys2Proof.Machine.execConjunction r e s
  | .syncOut => Sys2Proof.Machine.execSyncOut s
  | .syncIn toRef => Sys2Proof.Machine.execSyncIn toRef s
  | .cascadeHop d16 pos up => Sys2Proof.Machine.execCascadeHop d16 pos up s
  | .conjunctionTimeout cause => Sys2Proof.Machine.execConjunctionTimeout cause s
  | .timebaseRealign r e => Sys2Proof.Machine.execTimebaseRealign r e s
  | .step => Sys2Proof.Machine.execStep s
  | .planLoad r e => Sys2Proof.Machine.execPlanLoad r e s
  | .planAdmit r e => Sys2Proof.Machine.execPlanAdmit r e s
  | .planRelease r e => Sys2Proof.Machine.execPlanRelease r e s
  | .arm r e => Sys2Proof.Machine.execArm r e s
  | .captureBegin => Sys2Proof.Machine.execCaptureBegin s
  | .forceTrigger r e => Sys2Proof.Machine.execForceTrigger r e s
  | .stop r e => Sys2Proof.Machine.execStop r e s
  | .abortCommand r e => Sys2Proof.Machine.execAbortCommand r e s
  | .disarm r e => Sys2Proof.Machine.execDisarm r e s
  | .streamOpen r e => Sys2Proof.Machine.execStreamOpen r e s
  | .streamClose r e => Sys2Proof.Machine.execStreamClose r e s
  | .record ring => Sys2Proof.Machine.execRecord ring s
  | .jobSearch r e => Sys2Proof.Machine.execJobSearch r e s
  | .jobExtract r e => Sys2Proof.Machine.execJobExtract r e s
  | .jobCompress r e => Sys2Proof.Machine.execJobCompress r e s
  | .jobDecompress r e => Sys2Proof.Machine.execJobDecompress r e s
  | .jobVerify r e => Sys2Proof.Machine.execJobVerify r e s
  | .jobTurn q shadowOk => Sys2Proof.Machine.execJobTurn q shadowOk s
  | .resultBatch job => Sys2Proof.Machine.execResultBatch job s
  | .marchRun r e => Sys2Proof.Machine.execMarchRun r e s
  | .marchSlice bad bufBad => Sys2Proof.Machine.execMarchSlice bad bufBad s
  | .sliceAbort k w => Sys2Proof.Machine.execSliceAbort k w s
  | .scrubSet r e => Sys2Proof.Machine.execScrubSet r e s
  | .patrolScrub sc => Sys2Proof.Machine.execPatrolScrub sc s
  | .counterSnapshot r e => Sys2Proof.Machine.execCounterSnapshot r e s
  | .take v => Sys2Proof.Machine.execTake v s
  | .snapshotCopy => Sys2Proof.Machine.execSnapshotCopy s
  | .traceSet r e => Sys2Proof.Machine.execTraceSet r e s
  | .powerState r e => Sys2Proof.Machine.execPowerState r e s
  | .psdone => Sys2Proof.Machine.execPsdone s
  | .thermalProfile r e => Sys2Proof.Machine.execThermalProfile r e s
  | .patchLoad r e => Sys2Proof.Machine.execPatchLoad r e s
  | .openAreaLoad r e => Sys2Proof.Machine.execOpenAreaLoad r e s
  | .openAreaCommand r sub e => Sys2Proof.Machine.execOpenAreaCommand r sub e s
  | .custodyGrant r e => Sys2Proof.Machine.execCustodyGrant r e s
  | .custodyRelease r e => Sys2Proof.Machine.execCustodyRelease r e s
  | .ringCreate r e => Sys2Proof.Machine.execRingCreate r e s
  | .ringDestroy r e => Sys2Proof.Machine.execRingDestroy r e s
  | .ringResume r e => Sys2Proof.Machine.execRingResume r e s
  | .doorbell r v lower => Sys2Proof.Machine.execDoorbell r v lower s
  | .en v => Sys2Proof.Machine.execEn v s
  | .resume v => Sys2Proof.Machine.execResume v s
  | .sliceEvaluation trig flips => Sys2Proof.Machine.execSliceEvaluation trig flips s
  | .tallyCompletion a u => Sys2Proof.Machine.execTallyCompletion a u s
  | .timerExpiry n => Sys2Proof.Machine.execTimerExpiry n s
  | .trigOut => Sys2Proof.Machine.execTrigOut s
  | .trigOutFall => Sys2Proof.Machine.execTrigOutFall s
  | .cascadeFrameSend => Sys2Proof.Machine.execCascadeFrameSend s
  | .cascadeEvent => Sys2Proof.Machine.execCascadeEvent s
  | .sampleLeavesDelayLine st l stamp qe => Sys2Proof.Machine.execSampleLeavesDelayLine st l stamp qe s
  | .writerOverrunResume st => Sys2Proof.Machine.execWriterOverrunResume st s
  | .densityRecovery st => Sys2Proof.Machine.execDensityRecovery st s
  | .phaseClosure => Sys2Proof.Machine.execPhaseClosure s
  | .segmentEnd => Sys2Proof.Machine.execSegmentEnd s
  | .captureEnd => Sys2Proof.Machine.execCaptureEnd s
  | .sample lane f => Sys2Proof.Machine.execSample lane f s
  | .markFrame lane f => Sys2Proof.Machine.execMarkFrame lane f s
  | .echoSend lane => Sys2Proof.Machine.execEchoSend lane s
  | .echoReply lane f trx16 => Sys2Proof.Machine.execEchoReply lane f trx16 s
  | .formatAck lane f => Sys2Proof.Machine.execFormatAck lane f s
  | .txeqReq lane f => Sys2Proof.Machine.execTxeqReq lane f s
  | .txeqAck lane f => Sys2Proof.Machine.execTxeqAck lane f s
  | .passThroughFrame lane f => Sys2Proof.Machine.execPassThroughFrame lane f s
  | .txgo lane v => Sys2Proof.Machine.execTxgo lane v s
  | .mailboxSend lane => Sys2Proof.Machine.execMailboxSend lane s
  | .rxack lane v => Sys2Proof.Machine.execRxack lane v s
  | .uncorrectableCodeword lane => Sys2Proof.Machine.execUncorrectableCodeword lane s
  | .lossOfLock lane => Sys2Proof.Machine.execLossOfLock lane s
  | .resumed lane f => Sys2Proof.Machine.execResumed lane f s
  | .resumetimeout lane => Sys2Proof.Machine.execResumetimeout lane s
  | .lanecommit lane v => Sys2Proof.Machine.execLanecommit lane v s
  | .firstLock => Sys2Proof.Machine.execFirstLock s
  | .eclipse cause => Sys2Proof.Machine.execEclipse cause s
  | .referenceValid delta16 => Sys2Proof.Machine.execReferenceValid delta16 s
  | .offset delta16 => Sys2Proof.Machine.execOffset delta16 s
  | .locked residual16 => Sys2Proof.Machine.execLocked residual16 s
  | .tbcommit m v => Sys2Proof.Machine.execTbcommit m v s
  | .fswitch => Sys2Proof.Machine.execFswitch s
  | .flockloss => Sys2Proof.Machine.execFlockloss s
  | .relock => Sys2Proof.Machine.execRelock s
  | .fabricClockMachineCheck => Sys2Proof.Machine.execFabricClockMachineCheck s
  | .sysResetN refsel bscan flash csBad => Sys2Proof.Machine.execSysResetN refsel bscan flash csBad s
  | .warmResetN width => Sys2Proof.Machine.execWarmResetN width s
  | .warmResetRelease => Sys2Proof.Machine.execWarmResetRelease s
  | .flr => Sys2Proof.Machine.execFlr s
  | .pcieHotReset => Sys2Proof.Machine.execPcieHotReset s
  | .perst => Sys2Proof.Machine.execPerst s
  | .busMasterEnableClear => Sys2Proof.Machine.execBusMasterEnableClear s
  | .busMasterEnableSet => Sys2Proof.Machine.execBusMasterEnableSet s
  | .completion tag bytes poisoned => Sys2Proof.Machine.execCompletion tag bytes poisoned s
  | .completionTimeout tag => Sys2Proof.Machine.execCompletionTimeout tag s
  | .quarantineEnd tag => Sys2Proof.Machine.execQuarantineEnd tag s
  | .linkchg speed width flit => Sys2Proof.Machine.execLinkchg speed width flit s
  | .unsupportedRequest k => Sys2Proof.Machine.execUnsupportedRequest k s
  | .reservedOffsetRead off len => Sys2Proof.Machine.execReservedOffsetRead off len s
  | .scratchBankViewAccess q => Sys2Proof.Machine.execScratchBankViewAccess q s
  | .dramApertureRead x len => Sys2Proof.Machine.execDramApertureRead x len s
  | .evmapWrite src v => Sys2Proof.Machine.execEvmapWrite src v s
  | .vcoalWrite vec v => Sys2Proof.Machine.execVcoalWrite vec v s
  | .apbaseWrite hi v => Sys2Proof.Machine.execApbaseWrite hi v s
  | .sourceFire src => Sys2Proof.Machine.execSourceFire src s
  | .coalescingTime vec => Sys2Proof.Machine.execCoalescingTime vec s
  | .msiXUnmask vec => Sys2Proof.Machine.execMsiXUnmask vec s
  | .rcRead off => Sys2Proof.Machine.execRcRead off s
  | .loHalfRead off => Sys2Proof.Machine.execLoHalfRead off s
  | .guardkey m v => Sys2Proof.Machine.execGuardkey m v s
  | .guardedWrite m off v => Sys2Proof.Machine.execGuardedWrite m off v s
  | .dcommit m ch v => Sys2Proof.Machine.execDcommit m ch v s
  | .controlStoreWordWrite m q w v => Sys2Proof.Machine.execControlStoreWordWrite m q w v s
  | .obs0en v => Sys2Proof.Machine.execObs0en v s
  | .obs1en v => Sys2Proof.Machine.execObs1en v s
  | .registerWrite off len be v poisoned => Sys2Proof.Machine.execRegisterWrite off len be v poisoned s
  | .bankownWrite m k v => Sys2Proof.Machine.execBankownWrite m k v s
  | .handover k => Sys2Proof.Machine.execHandover k s
  | .bankRead m k w ecc => Sys2Proof.Machine.execBankRead m k w ecc s
  | .bankWrite m k w v other => Sys2Proof.Machine.execBankWrite m k w v other s
  | .fetchAdd m k w d other => Sys2Proof.Machine.execFetchAdd m k w d other s
  | .swap m k w v other => Sys2Proof.Machine.execSwap m k w v other s
  | .correctedWriteBack k w => Sys2Proof.Machine.execCorrectedWriteBack k w s
  | .microword q => Sys2Proof.Machine.execMicroword q s
  | .cmt q => Sys2Proof.Machine.execCmt q s
  | .trap q => Sys2Proof.Machine.execTrap q s
  | .trapret q => Sys2Proof.Machine.execTrapret q s
  | .wdog q => Sys2Proof.Machine.execWdog q s
  | .machineCheck q cause => Sys2Proof.Machine.execMachineCheck q cause s
  | .wr sc qe => Sys2Proof.Machine.execWr sc qe s
  | .free sc ecc qe => Sys2Proof.Machine.execFree sc ecc qe s
  | .ref sc => Sys2Proof.Machine.execRef sc s
  | .refsb sc => Sys2Proof.Machine.execRefsb sc s
  | .drfm sc => Sys2Proof.Machine.execDrfm sc s
  | .turn sc => Sys2Proof.Machine.execTurn sc s
  | .orbitBoundary sc => Sys2Proof.Machine.execOrbitBoundary sc s
  | .dimmThermalRead ch temp16 => Sys2Proof.Machine.execDimmThermalRead ch temp16 s
  | .idleScheduleRefresh sc => Sys2Proof.Machine.execIdleScheduleRefresh sc s
  | .agePromo sc => Sys2Proof.Machine.execAgePromo sc s
  | .srIdle sc => Sys2Proof.Machine.execSrIdle sc s
  | .selfRefreshExit sc => Sys2Proof.Machine.execSelfRefreshExit sc s
  | .sensorConversion n temp16 => Sys2Proof.Machine.execSensorConversion n temp16 s
  | .thermalEstimate => Sys2Proof.Machine.execThermalEstimate s
  | .peakexp => Sys2Proof.Machine.execPeakexp s
  | .trip n => Sys2Proof.Machine.execTrip n s
  | .idcode => Sys2Proof.Machine.execIdcode s
  | .regaddr off => Sys2Proof.Machine.execRegaddr off s
  | .regdata => Sys2Proof.Machine.execRegdata s
  | .extest => Sys2Proof.Machine.execExtest s
  | .samplePreload => Sys2Proof.Machine.execSamplePreload s
  | .extestPulse => Sys2Proof.Machine.execExtestPulse s
  | .extestTrain => Sys2Proof.Machine.execExtestTrain s
  | .bypass code => Sys2Proof.Machine.execBypass code s
  | .trainingLossOfLock lane => Sys2Proof.Machine.execTrainingLossOfLock lane s
  | .lanectlWrite lane v => Sys2Proof.Machine.execLanectlWrite lane v s
  | .idleFrame lane f => Sys2Proof.Machine.execIdleFrame lane f s
  | .reservedTypeFrame lane f => Sys2Proof.Machine.execReservedTypeFrame lane f s
  | .settingsWordCheck u off ecc => Sys2Proof.Machine.execSettingsWordCheck u off ecc s
  | .standbyPllRelock => Sys2Proof.Machine.execStandbyPllRelock s
  | .d3hot => Sys2Proof.Machine.execD3hot s
  | .returnToD0 => Sys2Proof.Machine.execReturnToD0 s
  | .msiXEnableClear => Sys2Proof.Machine.execMsiXEnableClear s
  | .configurationRequest q => Sys2Proof.Machine.execConfigurationRequest q s
  | .aerError sev bit => Sys2Proof.Machine.execAerError sev bit s
  | .badOpcode r opcode e => Sys2Proof.Machine.execBadOpcode r opcode e s
  | .marchTestEnd bad => Sys2Proof.Machine.execMarchTestEnd bad s
  | .prechargePowerDown sc => Sys2Proof.Machine.execPrechargePowerDown sc s
  | .obsFrameSend port => Sys2Proof.Machine.execObsFrameSend port s

end Sys2Proof.Machine
end

