-- ==== Sys2Proof/Machine/Idle.lean ====
section
/-! DEFINITION. Time: what a step does on an empty queue (log entry 2). What the spec gives a time and no row has done happens now: the timebase, the
links, the automata, the stream writers, the memory, the banks, coalesced messages, PLAN_ADMIT, power and reset, the observation ports and the snapshot; the cycle ledgers are entered (R356); then one slice of 32
ticks passes, and at a housekeeping edge the copies are taken (R19). -/

namespace Sys2Proof.Machine

/-- The LO half of counter j of a sequencer's ledger, and of a codec engine's (R353). -/
def seqLedger (q j : Nat) : Nat := sqBase q + 0x160 + 8 * j
def cxLedger (x j : Nat) : Nat := cxBase x + 0xD0 + 8 * j

/-- Enter one of the counters a to a + n - 1 of a ledger, which one being left open: the words of the base image's routines stand nowhere. (DESIGN CHOICE: log entry 7.) -/
def enterFree (base a n : Nat) (s : State) : State :=
  let p := takeFree s
  count (base + 8 * (a + p.1.toNat % n)) p.2

/-- Whether a command of the base image runs on a sequencer whose own words do not run. (DESIGN CHOICE: log entry 50.) -/
def runsNative (s : State) (q : Nat) : Bool := s.cmds.any fun c => c.opcode != opArm && runsOn s c q

/-- One cycle of a sequencer: the first counter of R356 whose condition holds. (DEDUCED: log entry 67.) -/
def enterCycle (s : State) (q : Nat) : State :=
  let x := sq s q
  if 0 < x.words then count (seqLedger q 0) (setSq q { x with words := x.words - 1 } s)
  else match x.state with
    | .stopped => count (seqLedger q 1) s
    | .idle => if runsNative s q then enterFree (seqLedger q 0) 0 5 s else count (seqLedger q 5) s
    | .wait =>
      let on := match x.wait with | some h => h.on | none => 0
      count (seqLedger q (if on = 1 then 2 else if on = 3 then 3 else if on = 5 then 5 else 4)) s
    | _ => count (seqLedger q 0) s

/-- One slot of a codec engine. (DEDUCED: log entry 67.) -/
def enterSlot (s : State) (x : Nat) : State :=
  let n := tblGet s.cxSteps x 0
  if 0 < n then count (cxLedger x 0) { s with cxSteps := tblSet s.cxSteps x (n - 1) }
  else if s.jobs.any fun j => j.quad == x && j.running then enterFree (cxLedger x 0) 1 4 s
  else count (cxLedger x 5) s

/-- The sequencers and codec engines that are clocked: none while RD-CTRL is in reset, and only the first four sequencers in PS2 and PS3
(R363). (DEDUCED: log entry 67.) -/
def clockedSeqs (s : State) : List Nat :=
  if s.pwr.warm then [] else (List.range (seqCount s)).filter fun q => decide (pwrState s < 2) || !gatedHome q
def clockedCodecs (s : State) : List Nat := if s.pwr.warm || decide (2 ≤ pwrState s) then [] else List.range (quads s)

/-- Slots of a codec engine in the slice that ends at elapsed tick t: 5 in every 16 fabric cycles. (DEDUCED: log entry 67.) -/
def slotsAt (t : Nat) : Nat := 5 * (t / 32) / 16 - 5 * (t / 32 - 1) / 16

/-- The ledgers of the slice that has passed: a sequencer cycle lasts two slices. (DEDUCED: log entry 67.) -/
def enterLedgers (s : State) : State :=
  let s1 := if s.tb.time % 64 = 0 then (clockedSeqs s).foldl enterCycle s else s
  if slotsAt s.tb.time = 0 then s1 else (clockedCodecs s1).foldl enterSlot s1

/-! ### The stream writers -/

/-- The last tick whose samples have passed the delay line and whose slice is evaluated, if any (R137). -/
def leftTo (s : State) : Option Nat :=
  match s.au.lastSlice with
  | some l => if s.tb.tick < 6144 then none else some (min (s.tb.tick - 6144) (l + 31))
  | none => none

/-- The samples that leave the delay line are taken, oldest first, and segments end behind their last one (R137, R142). A round ends the segment in
front; there is a round more than there are segments. -/
def takeLeaving (fuel b : Nat) (s : State) : State :=
  match fuel, headSeg s with
  | f + 1, some g =>
    let e := match g.e with | some e => min e b | none => b
    let t := doSegmentEnd (drainTo (waitingCount s e) e s)
    if t.cap.segs.length = s.cap.segs.length then t else takeLeaving f b t
  | _, _ => s

/-- What the stream writers do in the slice that passes (R135, R137, R138, R142, R152, R211). (DESIGN CHOICE: log entry 2.) -/
def writersTime (s : State) : State :=
  let s1 := doCaptureBegin s
  match capRunning s1, leftTo s1 with
  | true, some b =>
    let s2 := tryCommitAll (takeLeaving (s1.cap.segs.length + 1) b s1)
    let s3 := (activeStreams s2).foldl (fun z i => doDensityRecovery i (doOverrunResume i z)) s2
    doCaptureEnd (doPhaseClosure s3)
  | _, _ => s1

/-! ### Time passes -/

/-- The vectors whose coalescing time has passed send (R233). -/
def coalesceTime (s : State) : State := s.pcie.vecs.foldl (fun z p => if 0 < p.2.acc then doCoalescing p.1 z else z) s

/-- A snapshot is taken at its tick, and complete 1 µs later (R354). -/
def snapTime (s : State) : State :=
  let s1 := takeSnap s
  match s1.snap.taken with
  | some t => if t + usTicks ≤ s1.tb.tick then doSnapshotCopy s1 else s1
  | none => s1

/-- What has its time in the slice that begins now. (DESIGN CHOICE: log entry 2.) -/
def sliceEvents (s : State) : State :=
  let s1 := (links s).foldl (fun z n => linkTime n z) (timebaseTime s)
  obsTime (warmTime (powerTime (admitTime (coalesceTime (banksTime (dramTime (automataLate (writersTime (automataTime s1)))))))))

/-- At an edge of the housekeeping clock COMMITs of the timebase reach their domain, and the copies are taken (R19, R21). -/
def houseTime (s : State) : State := if nowT s % houseTicks = 0 then refreshCopies (settleCommits s.house.commits s) else s

/-- One slice of 32 ticks passes; the snapshot copies what was counted before it (R354). (DESIGN CHOICE: log entry 2.) -/
def timePass (s : State) : State := houseTime (snapTime (advanceSlice (enterLedgers (sliceEvents s))))

/-- A step on an empty queue. An engine that only SYS_RESET_N recovers still counts ticks: its timebase runs on (R64, R71). (DESIGN CHOICE: log entry 2.) -/
def idleStep (s : State) : Out := if s.tb.dead && !s.jtag.testMode then .next (advanceSlice s) else engineStep s (timePass s)

end Sys2Proof.Machine
end

