-- ==== Sys2Proof/WellFormed.lean ====
section
/-! DEFINITION. Well-formed commands: operands within the ranges that the rules give their fields, and byte memories in canonical form. -/

namespace Sys2Proof

/-- A byte string: no byte is listed at or beyond its length. -/
def Image.wf (im : Image) : Bool := im.bytes.wf && im.bytes.all fun c => decide (c.1 < im.len)

/-- A frame: 640 payload bytes (R35) in a codeword of 544 symbols (R34). -/
def RxFrame.wf (f : RxFrame) : Bool := f.payload.wf && (f.payload.all fun c => decide (c.1 < 640)) && decide (f.wrong ≤ 544)

/-- A ring is 0 to 65,535 (R239). -/
def ringOk (r : Nat) : Bool := decide (r < 65536)

/-- Lanes are 0 to 127, the cascade lanes K0 to K3 are 128 to 131 (R2, R63). -/
def laneOk (n : Nat) : Bool := decide (n < 132)

/-- Subchannels are 0 to 15, channels 0 to 7 (R158). -/
def subOk (n : Nat) : Bool := decide (n < 16)
def chanOk (n : Nat) : Bool := decide (n < 8)

/-- Banks are 0 to 11, their words 0 to 262,143 (R322). -/
def bankOk (k : Nat) : Bool := decide (k < 12)
def wordOk (k w : Nat) : Bool := bankOk k && decide (w < 262144)

/-- Sequencers are 0 to 27, codec engines 0 to 3 (R2). -/
def seqOk (q : Nat) : Bool := decide (q < 28)
def userOk (m : BankUser) : Bool := match m with | .host => true | .seq q => seqOk q | .codec x => decide (x < 4)

/-- A BAR0 offset (R218) of a 32-bit register. -/
def offOk (o : Nat) : Bool := decide (o < 2 ^ 26) && decide (o % 4 = 0)

/-- Words that fail a march read (R332). -/
def failsOk (l : List MarchFail) : Bool := l.all fun x => wordOk x.bank x.word

/-- A tag has 10 bits (R225). -/
def tagOk (t : Nat) : Bool := decide (t < 1024)

/-- Clusters are 0 to 15, automata 0 to 7. -/
def tableOk (u : TableUnit) : Bool := match u with | .cluster c => decide (c < 16) | .automaton a => decide (a < 8)

/-- A tick count has 64 bits (R64). -/
def tickOk (t : Nat) : Bool := decide (t < 2 ^ 64)

/-- A request to the scratch-bank view of BAR2 (R218, R220). -/
def ViewReq.wf (q : ViewReq) : Bool :=
  match q with
  | .read off len => decide (off + len ≤ 2 ^ 25)
  | .write off bytes _ => decide (off + bytes.length ≤ 2 ^ 25)

/-- A configuration request: offsets within configuration space and BAR4, vectors below 2,048 (R231). -/
def CfgReq.wf (q : CfgReq) : Bool :=
  match q with
  | .read off => decide (off < 4096)
  | .cplTimeout v => decide (v < 16)
  | .vectorMask v _ => decide (v < 2048)
  | .vectorEntry v addr data => decide (v < 2048) && decide (addr < 2 ^ 64) && decide (data < 2 ^ 32)
  | .bar i _ => decide (i < 6)
  | .tableRead off => decide (off < 65536)
  | .tablePoisoned off => decide (off < 65536)
  | .other off _ => decide (off < 4096)
  | _ => true

/-- Whether a command is well formed. -/
def Instr.wf (i : Instr) : Bool :=
  match i with
  | .nop r _ => ringOk r
  | .identify r _ => ringOk r
  | .inventory r _ => ringOk r
  | .populationSet r _ => ringOk r
  | .dramTrain r _ => ringOk r
  | .dramTrainEnd _ bad => failsOk bad
  | .laneSet r _ => ringOk r
  | .linkTrain r _ => ringOk r
  | .trainingStateExit n => laneOk n
  | .trainingTimeout n => laneOk n
  | .waveEnd => true
  | .timebaseSet r _ => ringOk r
  | .conjunction r _ => ringOk r
  | .syncOut => true
  | .syncIn _ => true
  | .cascadeHop _ pos up => decide (pos < 16) && tickOk up
  | .conjunctionTimeout c => decide (1 ≤ c) && decide (c ≤ 3)
  | .timebaseRealign r _ => ringOk r
  | .step => true
  | .planLoad r _ => ringOk r
  | .planAdmit r _ => ringOk r
  | .planRelease r _ => ringOk r
  | .arm r _ => ringOk r
  | .captureBegin => true
  | .forceTrigger r _ => ringOk r
  | .stop r _ => ringOk r
  | .abortCommand r _ => ringOk r
  | .disarm r _ => ringOk r
  | .streamOpen r _ => ringOk r
  | .streamClose r _ => ringOk r
  | .record r => ringOk r
  | .jobSearch r _ => ringOk r
  | .jobExtract r _ => ringOk r
  | .jobCompress r _ => ringOk r
  | .jobDecompress r _ => ringOk r
  | .jobVerify r _ => ringOk r
  | .jobTurn q _ => decide (q < 4)
  | .resultBatch _ => true
  | .marchRun r _ => ringOk r
  | .marchSlice bad f => failsOk bad && (match f with | some (i, _) => decide (i < 256) | none => true)
  | .sliceAbort k w => wordOk k w
  | .scrubSet r _ => ringOk r
  | .patrolScrub sc => subOk sc
  | .counterSnapshot r _ => ringOk r
  | .take _ => true
  | .snapshotCopy => true
  | .traceSet r _ => ringOk r
  | .powerState r _ => ringOk r
  | .psdone => true
  | .thermalProfile r _ => ringOk r
  | .patchLoad r _ => ringOk r
  | .openAreaLoad r _ => ringOk r
  | .openAreaCommand r _ _ => ringOk r
  | .custodyGrant r _ => ringOk r
  | .custodyRelease r _ => ringOk r
  | .ringCreate r _ => ringOk r
  | .ringDestroy r _ => ringOk r
  | .ringResume r _ => ringOk r
  | .doorbell r _ _ => ringOk r
  | .en _ => true
  | .resume _ => true
  | .sliceEvaluation trig flips => decide (trig.length ≤ 4) && flips.all fun x => decide (x.quad < 4) && decide (x.i < 32) && decide (x.line < 2708)
  | .tallyCompletion a u => decide (a < 8) && decide (u < 4)
  | .timerExpiry i => decide (i < 32)
  | .trigOut => true
  | .trigOutFall => true
  | .cascadeFrameSend => true
  | .cascadeEvent => true
  | .sampleLeavesDelayLine st l stamp _ => decide (st < 256) && decide (l < 8) && tickOk stamp
  | .writerOverrunResume st => decide (st < 256)
  | .densityRecovery st => decide (st < 256)
  | .phaseClosure => true
  | .segmentEnd => true
  | .captureEnd => true
  | .sample n f => laneOk n && f.wf
  | .markFrame n f => laneOk n && f.wf
  | .echoSend n => laneOk n
  | .echoReply n f _ => laneOk n && f.wf
  | .formatAck n f => laneOk n && f.wf
  | .txeqReq n f => laneOk n && f.wf
  | .txeqAck n f => laneOk n && f.wf
  | .passThroughFrame n f => laneOk n && f.wf
  | .txgo n _ => laneOk n
  | .mailboxSend n => laneOk n
  | .rxack n _ => laneOk n
  | .uncorrectableCodeword n => laneOk n
  | .lossOfLock n => laneOk n
  | .resumed n f => laneOk n && f.wf
  | .resumetimeout n => laneOk n
  | .lanecommit n _ => laneOk n
  | .firstLock => true
  | .eclipse _ => true
  | .referenceValid _ => true
  | .offset _ => true
  | .locked _ => true
  | .tbcommit _ _ => true
  | .fswitch => true
  | .flockloss => true
  | .relock => true
  | .fabricClockMachineCheck => true
  | .sysResetN _ _ f _ => f.slotA.wf && f.slotB.wf
  | .warmResetN _ => true
  | .warmResetRelease => true
  | .flr => true
  | .pcieHotReset => true
  | .perst => true
  | .busMasterEnableClear => true
  | .busMasterEnableSet => true
  | .completion t _ _ => tagOk t
  | .completionTimeout t => tagOk t
  | .quarantineEnd t => tagOk t
  | .linkchg sp w _ => decide (sp < 8) && decide (w < 32)
  | .unsupportedRequest _ => true
  | .reservedOffsetRead off len => decide (off + len ≤ 2 ^ 26)
  | .scratchBankViewAccess q => q.wf
  | .dramApertureRead x len => decide (x + len ≤ 2 ^ 23)
  | .evmapWrite src _ => decide (src < 1792)
  | .vcoalWrite v _ => decide (v < 2048)
  | .apbaseWrite _ _ => true
  | .sourceFire src => decide (src < 1792)
  | .coalescingTime v => decide (v < 2048)
  | .msiXUnmask v => (match v with | some k => decide (k < 2048) | none => true)
  | .rcRead off => offOk off
  | .loHalfRead off => offOk off
  | .guardkey _ _ => true
  | .guardedWrite _ off _ => offOk off
  | .dcommit _ ch _ => chanOk ch
  | .controlStoreWordWrite _ q w _ => seqOk q && decide (w < 16384)
  | .obs0en _ => true
  | .obs1en _ => true
  | .registerWrite off len _ _ _ => decide (off + len ≤ 2 ^ 26)
  | .bankownWrite m k _ => userOk m && bankOk k
  | .handover k => bankOk k
  | .bankRead m k w _ => userOk m && wordOk k w
  | .bankWrite m k w _ _ => userOk m && wordOk k w
  | .fetchAdd m k w _ _ => userOk m && wordOk k w
  | .swap m k w _ _ => userOk m && wordOk k w
  | .correctedWriteBack k w => wordOk k w
  | .microword q => seqOk q
  | .cmt q => seqOk q
  | .trap q => seqOk q
  | .trapret q => seqOk q
  | .wdog q => seqOk q
  | .machineCheck q c => seqOk q && decide (c < 256)
  | .wr sc _ => subOk sc
  | .free sc _ _ => subOk sc
  | .ref sc => subOk sc
  | .refsb sc => subOk sc
  | .drfm sc => subOk sc
  | .turn sc => subOk sc
  | .orbitBoundary sc => subOk sc
  | .dimmThermalRead ch _ => chanOk ch
  | .idleScheduleRefresh sc => subOk sc
  | .agePromo sc => subOk sc
  | .srIdle sc => subOk sc
  | .selfRefreshExit sc => subOk sc
  | .sensorConversion i _ => decide (i < 24)
  | .thermalEstimate => true
  | .peakexp => true
  | .trip i => decide (i < 24)
  | .idcode => true
  | .regaddr _ => true
  | .regdata => true
  | .extest => true
  | .samplePreload => true
  | .extestPulse => true
  | .extestTrain => true
  | .bypass _ => true
  | .trainingLossOfLock n => laneOk n
  | .lanectlWrite n _ => laneOk n
  | .idleFrame n f => laneOk n && f.wf
  | .reservedTypeFrame n f => laneOk n && f.wf
  | .settingsWordCheck u off _ => tableOk u && decide (off < 65536)
  | .standbyPllRelock => true
  | .d3hot => true
  | .returnToD0 => true
  | .msiXEnableClear => true
  | .configurationRequest q => q.wf
  | .aerError _ b => decide (b < 32)
  | .badOpcode r _ _ => ringOk r
  | .marchTestEnd bad => failsOk bad
  | .prechargePowerDown sc => subOk sc
  | .obsFrameSend p => decide (p < 2)

end Sys2Proof
end

