-- ==== Sys2Proof/Safety.lean ====
section
/-! DEFINITION. The terms in which claims speak: when the engine works, what a step leaves alone, when a command entry is accepted, and the
invariants. -/

namespace Sys2Proof.Machine

/-! ### When the engine works -/

/-- No boundary-scan test has been in force since SYS_RESET_N (R362), and the fabric clock is not lost for good (R71). -/
def Alive (s : State) : Prop := s.jtag.testMode = false ∧ s.tb.dead = false

/-- The step that a command makes from `s` answers a next state for which `p` holds. -/
def Answers (c : Instr) (s : State) (p : State → Prop) : Prop := ∃ t, exec c s = .next t ∧ p t

/-- The commands that reach the machine beside the engine: SYS_RESET_N and the TAP (R23, R361). -/
def outsideEngine (c : Instr) : Bool :=
  match c with
  | .sysResetN _ _ _ _ | .idcode | .regaddr _ | .regdata | .extest | .samplePreload | .extestPulse | .extestTrain | .bypass _ => true
  | _ => false

/-- `t` is `s` but for the TAP and the count of free values used (R361). -/
def tapOnly (s t : State) : Prop := t = { s with jtag := t.jtag, fresh := t.fresh }

/-- The invariant: the REFSEL straps are two bits (R390), and a boundary-scan test is in force only with BSCAN_EN sampled as 1 (R362). -/
def State.Inv (s : State) : Prop := s.refstrap < 4 ∧ (s.jtag.testMode = true → s.bscan = true)

/-! ### What a step may change, by layers

Each function blanks the fields that its layer of operations writes, so that `f t = f s` says that everything else is as before. -/

/-- A register that holds event bits (R236). -/
def isEventReg (off : Nat) : Bool :=
  (List.range 1792).any fun n => match srcReg n with | some (o, _) => o == off | none => false

/-- Registers that events and reports write: event bits, the configuration log, the bus error log and the error index. -/
def isLogReg (off : Nat) : Bool := isEventReg off || off == 0x1C || off == 0x18020 || off == 0x18024 || off == 0x30

/-- Blank what an event may write: event bits and their logs, the MSI-X counters, vectors, what is sent to the host, and the entries of the trace. -/
def State.quiet (s : State) : State :=
  { s with regs := s.regs.filter fun p => !isLogReg p.1, ctrs := s.ctrs.filter fun p => p.1 != msixSentOff && p.1 != msixMergedOff,
           posted := [], pcie := { s.pcie with vecs := [] },
           trace := { s.trace with bufDram := [], buf0 := [], buf1 := [], lostD := 0, lost0 := 0, lost1 := 0 } }

/-- Beside these registers and those of events and logs, every register reads in `t` as in `s`. -/
def keepsRegs (offs : List Nat) (s t : State) : Prop := ∀ off, isLogReg off = false → offs.contains off = false → reg t off = reg s off

/-- Blank also what a report of an error may write (R11, R149): every counter, the chip error log, the streams with the records on their way to
DRAM, and the end of the capture that a full stream orders. -/
def State.calm (s : State) : State :=
  let q := s.quiet
  { q with ctrs := [], errlog := [], streams := [], cap := { q.cap with endAt := none, segs := [], begun := 0 },
           au := { q.au with edges := [], hevs := [], casDue := [], inbound := [], shown := [], lastSlice := none },
           dram := { q.dram with cells := [] } }

/-- Blank also what the beginning and the end of a command write (R246, R298): rings, the list of open commands, the journal, the requests of its
entries at the memory controllers, the sequencers, and which jobs run. -/
def State.beside (s : State) : State :=
  let q := s.calm
  { q with rings := [], cmds := [], jr := State.reset.jr, seqs := [], jobs := q.jobs.map fun j => { j with running := false },
           dram := { q.dram with arr := 0, subs := [] } }

/-- A subchannel without what the arrival of a request changes: the requests, the time of the last one, power-down, and an entry of self-refresh that it aborts
(R185, R367). -/
def SubCh.still (x : SubCh) : SubCh :=
  { x with reqs := [], lastReq := 0, ppd := false, sr := match x.sr with | .entering _ => .awake | v => v }

/-- A sequencer without what the start and the end of a command set in it: contexts, its queue, and the registers from which a routine starts (R288, R298). -/
def Seqr.rest (x : Seqr) : Seqr :=
  { x with pc := 0, ctx := 0, w := [], ctxs := [], queue := [], pubs := [], sinceCmt := 0, wdogHit := false }

/-- Nothing changed beside what a command whose home is sequencer `q` writes as it begins and ends (R246, R288, R298). -/
def Beside (q : Nat) (s t : State) : Prop :=
  t.beside = s.beside ∧ (∀ sc, (sub t sc).still = (sub s sc).still) ∧ (sq t q).rest = (sq s q).rest ∧ ∀ k, k ≠ q → sq t k = sq s k

/-! ### Command entries (R246 to R250, R407) -/

/-- Between `s` and `t` the host was told of a completion with this tag, status and results: the entry was written to a completion ring, or
waits in the ring that serves ring `r`, or for the journal entries before it (R155, R243, R245, R248). -/
def Told (r : Nat) (tag : W32) (status : Nat) (final : Bool) (x0 x1 x2 : W64) (s t : State) : Prop :=
  (∃ l, t.posted = l ++ s.posted ∧ ∃ a ph, Posted.write a (entryBytes ph (.cpl tag status final x0 x1 x2)) false ∈ l) ∨
    (∃ c, ring? t (pairOf t r) = some c ∧ RingEntry.cpl tag status final x0 x1 x2 ∈ c.held) ∨
    ∃ o ∈ t.jr.out, o.ring = pairOf t r ∧ o.entry = .cpl tag status final x0 x1 x2

/-- A short command ended: its final completion is told, and the open commands are those of before (R246). -/
def Done (r : Nat) (tag : W32) (status : Nat) (x0 x1 x2 : W64) (s t : State) : Prop :=
  Told r tag status true x0 x1 x2 s t ∧ t.cmds = s.cmds

/-- A short command of ring `r` is open with this opcode and tag, behind the commands open before; its completion comes later (R246). -/
def Pends (r op : Nat) (tag : W32) (s t : State) : Prop :=
  ∃ c, t.cmds = s.cmds ++ [c] ∧ c.origin = s.jr.next ∧ c.ring = r ∧ c.opcode = op ∧ c.tag = tag ∧ c.abort = false ∧ c.lost = false

/-- A long command began: ACCEPTED is told with two results, and beside the commands open before there is one more, of ring `r` with this
opcode and tag (R246). -/
def Opened (r op : Nat) (tag : W32) (x0 x1 : W64) (s t : State) : Prop :=
  Told r tag stAccepted false x0 x1 0 s t ∧ ∃ c, t.cmds = s.cmds ++ [c] ∧ c.ring = r ∧ c.opcode = op ∧ c.tag = tag

/-- A job but for whether it runs. -/
def Job.still (j : Job) : Job := { j with running := false }

/-- A job began (R246, R262): ACCEPTED is told, the job is the youngest of the engine's jobs, with the parameters of the entry and its
quadrant, and nothing changed beside jobs, rings, journal, event bits, counters and what the home sequencer holds for the command. -/
def JobBegan (r op : Nat) (e : Entry) (k : JobKind) (d : Nat) (s t : State) : Prop :=
  Opened r op e.tag 0 0 s t ∧
    (∃ j, t.jobs.map Job.still = s.jobs.map Job.still ++ [j] ∧ j.origin = s.jr.next ∧ j.kind = k ∧ j.quad = d ∧ j.p = ePs e ∧ j.count = 0 ∧
      j.wrote = 0 ∧ j.inbuf = none ∧ j.waiting = false) ∧
    Beside (homeIn s op e (jsqOf d)) s { t with jobs := s.jobs }

/-- The command with this ORIGIN is open, no reset has cleared its ring since, and that ring and its completion ring exist: an ending of it can be told
(R25, R245). -/
def Tellable (s : State) (o : Nat) (k : Cmd) : Prop :=
  cmd? s o = some k ∧ k.lost = false ∧ ∃ i c, ring? s k.ring = some i ∧ ring? s i.pair = some c

/-- The open command `o`, which is `k`, ended: its final completion is told, and it is open no longer (R246). -/
def Ended (o : Nat) (k : Cmd) (status : Nat) (x0 x1 x2 : W64) (s t : State) : Prop :=
  Told k.ring k.tag status true x0 x1 x2 s t ∧ cmd? t o = none

/-- A short command reaches a sequencer that is not privileged and runs a long routine: it preempts that routine (R299). -/
def preempts (op home : Nat) (s : State) : Bool := !isLong op && decide (2 ≤ home) && runsLong s home

/-- Nothing of the engine names the JSEQ that the command's ACCEPT will have: neither an open command nor a context or a queue of a sequencer (R153, R246, R298). -/
def freshSeq (s : State) : Bool := (s.cmds.all fun c => c.origin != s.jr.next) && s.seqs.all fun p => !heldBy s.jr.next p.2

/-- The entry at the engine index of ring `r` is the next that the engine examines: `r` is a SUB ring of which the engine has read an entry that it has not examined
(R239, R242), its completion ring exists and holds nothing back (R243, R248), the engine is ready and in no warm reset (R26, R217), DSQ is not stopped (R311),
no short command of the ring is open and none of its commands waits for a context (R247, R298), the journal entries of its earlier commands are committed (R247),
and no transfer of host memory for one of its entries is under way (R225, R246). -/
def EntryNext (s : State) (r : Nat) : Prop :=
  ∃ x c, ring? s r = some x ∧ x.type = .sub ∧ x.eng ≠ x.got ∧ ring? s x.pair = some c ∧ c.held = [] ∧ s.pcie.ready = true ∧ s.pwr.warm = false ∧
    (sq s 0).state ≠ .stopped ∧ (∀ k ∈ s.cmds, k.ring = r → isLong k.opcode = true) ∧ dspHeld s r = false ∧ ringUncommitted s r = false ∧
    readingEntry s r = false

/-- No state of the engine that concerns commands alike refuses this one (R407): no trip but for a command that R375 allows; no home or helper stopped (R311), nor
clock-gated in PS2 and PS3, and neither LANE_SET nor LINK_TRAIN in PS1 (R366); no running PLAN_ADMIT that bars it (R200); no second command of an opcode of which
one alone may be open, and fewer than 256 jobs (R248). -/
def StateAdmits (s : State) (op : Nat) (homes : List Nat) : Prop :=
  (tripped s = true → tripAllows op = true) ∧ (∀ q ∈ homes, (sq s q).state ≠ .stopped) ∧ (2 ≤ pwrState s → ∀ q ∈ homes, gatedHome q = false) ∧
    (pwrState s = 1 → op ≠ opLaneSet ∧ op ≠ opLinkTrain) ∧ (admitting s = true → admitBars op = false) ∧
    (single op = true → ∀ k ∈ s.cmds, k.opcode ≠ op) ∧ (isJob op = true → s.jobs.length < 256)

/-- The conditions of the rules under which a command of ring `r` is accepted and carried out, on the state and the entry alone: the engine works (R71, R362); its
entry is the next to be examined (R246 to R249); the opcode has a routine (R250, R297); it comes from ring 0 where it must (R240); reserved fields are zero (R244); no
state of the engine refuses it (R407); its JSEQ is new (R153); and its home runs no long routine that it would preempt (R299). What a row checks of its own stands in
the statement about it. `homes` are the home and the helpers of R286 and R287. -/
def Granted (r op : Nat) (e : Entry) (homes : List Nat) (s : State) : Prop :=
  Alive s ∧ EntryNext s r ∧ opValid s op = true ∧ (ring0Only op = true → r = 0) ∧ entryClean op e = true ∧
    StateAdmits s op (rowHomes s op e homes) ∧ freshSeq s = true ∧ preempts op (homeIn s op e (homes.headD 0)) s = false

/-- A write of this master reaches the engine: the host's is a memory write, for which Memory Space Enable is 1 (R222). -/
def Reaches (m : Master) (s : State) : Prop := m = .host → s.pcie.memSpace = true

/-- A transfer of `len` bytes of host memory at `addr` begins for `w`, in reads that cover it, and beside reads of host memory, event bits and counters nothing changes
(R225). -/
def Fetches (w : XferFor) (addr len : Nat) (s t : State) : Prop :=
  t.pcie.xfers = s.pcie.xfers ++ [{ whose := w, addr := addr, len := len, got := [] }] ∧
    (∀ p ∈ xferPieces len s.pcie.mrrs addr len, ∃ x ∈ t.pcie.reads ++ t.pcie.waitq, x.addr = p.1 ∧ x.len = p.2 ∧ x.by_ = .xfer w) ∧
    ({ t with pcie := { t.pcie with xfers := s.pcie.xfers, reads := s.pcie.reads, waitq := s.pcie.waitq } } : State).quiet = s.quiet

/-- The completion of tag `tag` with the bytes `bs` brings the last data of the transfer `w`, whose bytes are then `im`; `u` is the state without that read and that
transfer (R225). -/
def Arrives (s : State) (tag : Nat) (bs : List Byte) (w : XferFor) (im : Image) (u : State) : Prop :=
  ∃ x y, readOf s tag = some x ∧ x.by_ = .xfer w ∧ x.len ≤ (x.data ++ bs).length ∧ (s.pcie.xfers.find? fun z => z.whose == w) = some y ∧
    (∀ z ∈ s.pcie.reads, z.tag ≠ tag → z.by_ ≠ .xfer w) ∧ (∀ z ∈ s.pcie.waitq, z.by_ ≠ .xfer w) ∧
    im = { len := y.len, bytes := memPut y.got (x.addr - y.addr) ((x.data ++ bs).take x.len) } ∧
    u = { dropRead tag s with pcie := { (dropRead tag s).pcie with xfers := s.pcie.xfers.filter fun z => z.whose != w } }

/-- A read of DRAM granules `gs` in class `cls` begins for `w`: each granule's request has joined its subchannel behind those before, and no subchannel changed
otherwise (R177). -/
def ReadsDram (cls : Nat) (gs : List Nat) (w : ReadBy) (s t : State) : Prop :=
  t.dram.reads = s.dram.reads ++ [{ id := s.dram.ids, grans := gs, left := gs.length, got := [], bad := [], by_ := w }] ∧
    (∀ g ∈ gs, ∃ q ∈ (sub t (subOf s g)).reqs, q.addr = g ∧ q.cls = cls ∧ q.data = none ∧ q.by_ = .part s.dram.ids) ∧
    (∀ sc, (sub t sc).still = (sub s sc).still) ∧ ∀ sc, ∃ l, (sub t sc).reqs = (sub s sc).reqs ++ l

/-- The state but for the reads of DRAM in progress and what requests change. -/
def State.noReads (s : State) : State := { s with dram := { s.dram with reads := [], ids := 0, arr := 0, subs := [] } }

/-- Blank also what a report to AER writes (R224). -/
def State.noAer (s : State) : State :=
  let q := s.calm
  { q with fresh := 0, pcie := { q.pcie with aerUnc := 0, aerCor := 0, aerFirst := 0, aerHdr := [], cfg := [] } }

/-- Nothing changed beside what the end of the command `o` writes (R246, R298): a sequencer is as before but for what it holds for commands, and as before where it
holds nothing for this one. -/
def BesideEnd (o : Nat) (s t : State) : Prop :=
  t.beside = s.beside ∧ (∀ sc, (sub t sc).still = (sub s sc).still) ∧
    ∀ q, (sq t q).rest = (sq s q).rest ∧ (heldBy o (sq s q) = false → sq t q = sq s q)

/-- Nothing changed beside the records that writers write, the reports they make, and the journal entries of COMMIT (R138 to R155). -/
def BesideWriter (s t : State) : Prop :=
  t.beside = s.beside ∧ t.cmds = s.cmds ∧ t.seqs = s.seqs ∧ t.jobs = s.jobs ∧ ∀ sc, (sub t sc).still = (sub s sc).still

/-- The home of a command (R286, R297). -/
def homeNow (s : State) (op : Nat) (e : Entry) : Nat := homeIn s op e (homeOf op)

/-! ### Frames (R35, R36, R62) -/

/-- A good frame on link `n` was heard and changed nothing beside counters, event bits, ATTN of a lane, and the run of uncorrectable codewords (R36, R53, R60, R62). -/
def Heard (n : Nat) (f : RxFrame) (s t : State) : Prop :=
  lane t n = { lane s n with uncorr := 0 } ∧ laneState t n = laneState s n ∧ (n < 128 → lnAttn t n = frAttn f) ∧ (∀ k, k ≠ n → lane t k = lane s k) ∧
    keepsRegs [laneBase n + 0x10] s t ∧ ({ t with regs := s.regs, lanes := s.lanes } : State).calm = s.calm

/-- A CONTROL frame with this CCODE and two bytes of data waits behind those that link `n` had to send (R38). -/
def Queued (n code : Nat) (s t : State) : Prop := ∃ b, (lane t n).txq = (lane s n).txq ++ [(code, b)]

/-! ### Orbit slots (R164 to R166) -/

/-- The slot that comes next on a READY subchannel in an orbit begins in the slice now and carries this action, and no change of table is due before it
(R164, R171). -/
def Slot (s : State) (sc code : Nat) : Prop :=
  subReady s sc = true ∧ orbOf s sc ≠ 0 ∧ ((sub s sc).slots % 4096 ≠ 0 ∨ orbOf s sc = if wantsHot s (sc / 2) then 2 else 1) ∧
    slotDue s sc = true ∧ oCode (slotEntry s sc) = code

/-- The argument of that action. -/
def slotArg (s : State) (sc : Nat) : Nat := oArg (slotEntry s sc)

/-- A FREE slot: in an orbit, or of the idle schedule out of self-refresh (R167, R177, R185). -/
def FreeNow (s : State) (sc : Nat) : Prop :=
  (subReady s sc = true ∧ orbOf s sc = 0 ∧ srWrites s sc = true ∧ slotDue s sc = true) ∨ Slot s sc 0

/-- The subchannel as a FREE slot finds it: a slot of the idle schedule begins no earlier than now (R167). -/
def atFree (s : State) (sc : Nat) : State := if orbOf s sc = 0 then slotNow sc s else s

/-- Whether that slot carries a write. -/
def freeWrites (s : State) (sc : Nat) : Bool := if orbOf s sc = 0 then idleWrite (slotNow sc s) sc else !readWindow s sc

/-- A subchannel one slot on, with the banks of a list closed and blocked for a time in ps from the slot on (R164, R168). -/
def Blocked (s t : State) (sc ps : Nat) (bs : List Nat) : Prop :=
  (sub t sc).slots = (sub s sc).slots + 1 ∧ (sub t sc).slotAt = (sub s sc).slotAt + memSlot ∧ (sub t sc).reqs = (sub s sc).reqs ∧
    (∀ c, c ≠ sc → sub t c = sub s c) ∧
    (∀ b ∈ bs, (dbank (sub t sc) b).row = none ∧ (dbank (sub t sc) b).blocked = (sub s sc).slotAt + memPs s ps) ∧
    ∀ b, b ∉ bs → dbank (sub t sc) b = dbank (sub s sc) b

end Sys2Proof.Machine
end

