-- ==== Sys2Proof/Certificates/Slice0/Obligations.lean ====
section
/-! DEFINITION. What is to be proved of the model: one named statement each, with the rules of the specification it rests on. -/

open Sys2Proof Sys2Proof.Machine

/-- A step runs the command at the front of the queue. For every command c, queue rest and state s whose queue is c followed by rest, step s
is exec c on s with the queue rest; and the queue of the state that exec sees holds only the rest. On an empty queue, by the model's choice
of log entry 2, a working engine does what falls due in the slice, enters its cycle ledgers, and lets one slice pass, with the snapshot and
the housekeeping edge behind it; an engine whose fabric clock is lost for good only lets the slice pass. A slice adds 32 ticks to the clock,
and to the tick counter modulo 2^64 unless the timebase is in INITIAL, where it stands still (R64), and changes nothing else. (R64, R65,
00_scope.md.) -/
def Obligations.StepServesTheQueue : Prop :=
  (∀ (c : Instr) (rest : List Instr) (s : State), s.pending = c :: rest →
      step s = exec c (s.withPending rest) ∧ (s.withPending rest).pending = rest) ∧
    (∀ s : State, Alive s → s.pending = [] →
      step s = .next (keepOutside s (houseTime (snapTime (advanceSlice (enterLedgers (sliceEvents s))))))) ∧
    (∀ s : State, s.jtag.testMode = false → s.tb.dead = true → s.pending = [] → step s = .next (advanceSlice s)) ∧
    ∀ s : State, (advanceSlice s).tb.time = s.tb.time + 32 ∧
      (advanceSlice s).tb.tick = (if tbState s = tbInitial then s.tb.tick else (s.tb.tick + 32) % 2 ^ 64) ∧
      ({ advanceSlice s with tb := { (advanceSlice s).tb with time := s.tb.time, tick := s.tb.tick } } : State) = s

/-- What reset leaves. After reset the timebase is in INITIAL with the counter at 0, every lane and cascade lane is DISABLED, every channel
is UNPOP, every bank belongs to the owner that BANKOWN gives it after reset, no ring exists, nothing is armed, both plan slots are empty,
and no command waits. (R64, R73, R338, R23, 03_timebase.md, 13_scratch_banks.md.) -/
def Obligations.ResetState : Prop :=
  tbState State.reset = tbInitial ∧ State.reset.tb.tick = 0 ∧
    (∀ n, n < 132 → laneState State.reset n = lnDisabled) ∧ (∀ ch, ch < 8 → chState State.reset ch = 0) ∧
    ((List.range 12).map (ownerOf State.reset) = [4, 5, 6, 0, 1, 2, 3, 7, 8, 9, 10, 11]) ∧ State.reset.rings = [] ∧ armed State.reset = false ∧
    State.reset.plans.active = none ∧ State.reset.plans.staged = none ∧ State.reset.pending = []

/-- The state after reset meets the invariant. The straps lie in their range and no boundary-scan test is in force without BSCAN_EN. (R390,
R362.) -/
def Obligations.ResetMeetsInvariant : Prop :=
  State.reset.Inv

/-- Every step keeps the invariant. From every state that meets the invariant (REFSEL straps of two bits, which follow the sampled pins; a
boundary-scan test in force only with BSCAN_EN sampled as 1), whatever command is at the front of the queue or none, a step that answers a
next state leads to a state that meets it. (R390, R362, R361.) -/
def Obligations.EveryStepKeepsInvariant : Prop :=
  ∀ s t : State, s.Inv → step s = .next t → t.Inv

/-- JTAG commands complete and change only the TAP. IDCODE, REGADDR, REGDATA, EXTEST, SAMPLE/PRELOAD, EXTEST_PULSE, EXTEST_TRAIN and BYPASS
answer a next state in every state, with the instruction register holding their code; beside the TAP and the count of free values used,
everything is as before. IDCODE shifts out 0x1204858F; REGADDR loads the offset; outside a test REGDATA shifts out what a read of the
register gives, 0 for GW, WO and reserved offsets (a holding register only while its snapshot is valid, R355); the three tests put the
engine under test exactly when BSCAN_EN was sampled as 1. (R355, R361, R362.) -/
def Obligations.JtagLeavesTheEngine : Prop :=
  ∀ s : State,
    (∃ t, exec .idcode s = .next t ∧ tapOnly s t ∧ t.jtag.ir = 0x01#8 ∧ t.jtag.out = some 0x1204858F#32 ∧ t.jtag.testMode = s.jtag.testMode) ∧
    (∀ off, ∃ t, exec (.regaddr off) s = .next t ∧ tapOnly s t ∧ t.jtag.ir = 0x10#8 ∧ t.jtag.addr = off ∧ t.jtag.testMode = s.jtag.testMode) ∧
    (∃ t, exec .regdata s = .next t ∧ tapOnly s t ∧ t.jtag.ir = 0x11#8 ∧ t.jtag.testMode = s.jtag.testMode ∧
      (s.jtag.testMode = false → (isHold s s.jtag.addr.toNat = true → rf s 0xC0004 31 31 = 1) → t.jtag.out = some (jtagValue s s.jtag.addr.toNat))) ∧
    (∃ t, exec .extest s = .next t ∧ tapOnly s t ∧ t.jtag.ir = 0x00#8 ∧ t.jtag.testMode = (s.jtag.testMode || s.bscan)) ∧
    (∃ t, exec .extestPulse s = .next t ∧ tapOnly s t ∧ t.jtag.ir = 0x20#8 ∧ t.jtag.testMode = (s.jtag.testMode || s.bscan)) ∧
    (∃ t, exec .extestTrain s = .next t ∧ tapOnly s t ∧ t.jtag.ir = 0x21#8 ∧ t.jtag.testMode = (s.jtag.testMode || s.bscan)) ∧
    (∃ t, exec .samplePreload s = .next t ∧ tapOnly s t ∧ t.jtag.ir = 0x02#8 ∧ t.jtag.testMode = s.jtag.testMode) ∧
    (∀ code, jtagListed code = false → ∃ t, exec (.bypass code) s = .next t ∧ tapOnly s t ∧ t.jtag.ir = code ∧ t.jtag.testMode = s.jtag.testMode)

/-- NOP, IDENTIFY, INVENTORY and THERMAL_PROFILE complete and change nothing. Under the conditions of R246 to R249, R298, R299 and R407 on
the state and the entry (Granted): NOP completes DONE; IDENTIFY completes DONE with CAPS and STEPID, MCVER and a JSEQ; INVENTORY writes
whole 64-byte entries to the buffer, at most its size, and completes DONE with their number, or, while a journal is in force, is first open
and reads both copies of the span from memory; THERMAL_PROFILE completes DONE with the credit at 310 W, the hottest reading and the warning.
None changes anything beside rings, journal, event bits, counters and what the home sequencer holds for the command. (R251, R254, R370,
R246, R247, R249, R298, R407.) -/
def Obligations.QueryCommandsComplete : Prop :=
  (∀ r e s, Granted r opNop e [homeOf opNop] s →
      ∃ t, exec (.nop r e) s = .next t ∧ Done r e.tag stDone 0 0 0 s t ∧ Beside (homeNow s opNop e) s t) ∧
    (∀ r e s, Granted r opIdentify e [homeOf opIdentify] s →
      ∃ t, exec (.identify r e) s = .next t ∧ Beside (homeNow s opIdentify e) s t ∧
        ∃ next, Done r e.tag stDone (BitVec.ofNat 64 ((reg s 0x8).toNat + (reg s 0x4).toNat * 2 ^ 32)) (mcver s) next s t) ∧
    (∀ r e s, Granted r opInventory e [homeOf opInventory] s → pn e.p1 ≠ 0 → pn e.p0 % 64 = 0 → pn e.p1 % 64 = 0 →
      64 * (1 + (pStreams (plan s)).length) ≤ pn e.p1 → s.pcie.bme = true → s.pcie.d3 = false →
      ∃ t, exec (.inventory r e) s = .next t ∧ Beside (homeNow s opInventory e) s { t with dram := { t.dram with ids := s.dram.ids, reads := s.dram.reads } } ∧
        ((∃ l out x1 x2, t.posted = l ++ s.posted ∧ .write (pn e.p0) out false ∈ l ∧ out.length % 64 = 0 ∧ out.length ≤ pn e.p1 ∧
          Done r e.tag stDone (BitVec.ofNat 64 (out.length / 64)) x1 x2 s t) ∨
          (s.jr.inForce = true ∧ ∃ c, t.cmds = s.cmds ++ [c] ∧ c.origin = s.jr.next ∧ c.tag = e.tag ∧ c.ring = r))) ∧
    (∀ r e s, Granted r opThermalProfile e [homeOf opThermalProfile] s →
      ∃ t, exec (.thermalProfile r e) s = .next t ∧ Beside (homeNow s opThermalProfile e) s t ∧
        Done r e.tag stDone (BitVec.ofNat 64 (credit s 310)) (BitVec.ofInt 64 (hottest s).2) (BitVec.ofNat 64 (b2n (warnOn s))) s t)

/-- A command with nothing to do completes DONE_ZERO. Under the conditions of R246 to R249, R298, R299 and R407 on the state and the entry
(Granted), with nothing to do, INVENTORY, PLAN_LOAD, POPULATION_SET, LANE_SET, LINK_TRAIN, PATCH_LOAD, OPEN_AREA_LOAD, CUSTODY_GRANT and
MARCH_RUN complete DONE_ZERO at once and change nothing beside rings, journal, event bits, counters and what the home sequencer holds for
the command. (R259, R246, R247, R249, R298, R407.) -/
def Obligations.EmptyWorkCompletesAtOnce : Prop :=
  (∀ r e s, Granted r opInventory e [homeOf opInventory] s → pn e.p0 % 64 = 0 → pn e.p1 = 0 →
      ∃ t, exec (.inventory r e) s = .next t ∧ Done r e.tag stDoneZero 0 0 0 s t ∧ Beside (homeNow s opInventory e) s t) ∧
    (∀ r e s, Granted r opPlanLoad e [homeOf opPlanLoad] s → pn e.p1 = 0 →
      ∃ t, exec (.planLoad r e) s = .next t ∧ Done r e.tag stDoneZero 0 0 0 s t ∧ Beside (homeNow s opPlanLoad e) s t) ∧
    (∀ r e s, Granted r opPopulationSet e [homeOf opPopulationSet] s → pn e.p1 = 0 →
      ∃ t, exec (.populationSet r e) s = .next t ∧ Done r e.tag stDoneZero 0 0 0 s t ∧ Beside (homeNow s opPopulationSet e) s t) ∧
    (∀ r e s, Granted r opLaneSet e [4] s → maskLanes e = [] → laneSetBad e s = false → armed s = false →
      ∃ t, exec (.laneSet r e) s = .next t ∧ Done r e.tag stDoneZero 0 0 0 s t ∧ Beside (homeNow s opLaneSet e) s t) ∧
    (∀ r e s, Granted r opLinkTrain e [4] s → maskLanes e = [] → maskCascade e = [] →
      ∃ t, exec (.linkTrain r e) s = .next t ∧ Done r e.tag stDoneZero 0 0 0 s t ∧ Beside (homeNow s opLinkTrain e) s t) ∧
    (∀ r e s, Granted r opPatchLoad e [homeOf opPatchLoad] s → pn e.p1 = 0 → armed s = false → s.cmds = [] →
      ∃ t, exec (.patchLoad r e) s = .next t ∧ Done r e.tag stDoneZero 0 0 0 s t ∧ Beside (homeNow s opPatchLoad e) s t) ∧
    (∀ r e s, Granted r opPatchLoad e [homeOf opPatchLoad] s → pn e.p1 = 0 → armed s = false → s.cmds = [] →
      ∃ t, exec (.openAreaLoad r e) s = .next t ∧ Done r e.tag stDoneZero 0 0 0 s t ∧ Beside (homeNow s opPatchLoad e) s t) ∧
    (∀ r e s, Granted r opCustodyGrant e [homeOf opCustodyGrant] s → pn e.p1 = 0 →
      ∃ t, exec (.custodyGrant r e) s = .next t ∧ Done r e.tag stDoneZero 0 0 0 s t ∧ Beside (homeNow s opCustodyGrant e) s t) ∧
    (∀ r e s, Granted r opMarchRun e [homeOf opMarchRun] s → marchBad e = false → marchZero e = true → (∀ k ∈ s.cmds, k.opcode ≠ opDramTrain) →
      ∃ t, exec (.marchRun r e) s = .next t ∧ Done r e.tag stDoneZero 0 0 0 s t ∧ Beside (homeNow s opMarchRun e) s t)

/-- A step takes one command off the queue, and only SYS_RESET_N samples the straps. Whatever the state and the command, a step that answers
a next state leaves the queue without its front command and otherwise as it was; and no command but SYS_RESET_N changes the ordering code or
the sampled straps. (R390, R1, 00_scope.md.) -/
def Obligations.StepKeepsQueueAndStraps : Prop :=
  (∀ s t : State, step s = .next t → t.pending = s.pending.tail) ∧
    ∀ (c : Instr) (s t : State), (∀ a b f m, c ≠ .sysResetN a b f m) → exec c s = .next t →
      t.part = s.part ∧ t.refstrap = s.refstrap ∧ t.bscan = s.bscan

/-- The engine stops only in a boundary-scan test, and does nothing once its fabric clock is lost for good. While no boundary-scan test is
in force every command, whatever its operands and whatever the state, answers a next state; while one has been in force since SYS_RESET_N,
every command but SYS_RESET_N and the JTAG commands stops with the fault functionUndefined. After the fabric clock machine check every
command but those leaves the whole state as it is. (R362, R71, 00_scope.md.) -/
def Obligations.EngineStopsOnlyInABoundaryScanTest : Prop :=
  ∀ (c : Instr) (s : State),
    (s.jtag.testMode = false → ∃ t, exec c s = .next t) ∧
    (s.jtag.testMode = true → outsideEngine c = false → exec c s = .fault .functionUndefined) ∧
    (s.jtag.testMode = false → s.tb.dead = true → outsideEngine c = false → exec c s = .next s)

/-- A refused entry is answered and has no other effect. Whatever the row, an examined entry that R407 refuses is answered with its status
and results in one final completion, opens no command, and changes nothing beside rings, journal, event bits and counters; so is one that
needs host memory when it is refused without it, before anything is read. An examined entry whose opcode has no routine completes with
BAD_OPCODE so, whatever its other fields. (R246, R250, R407.) -/
def Obligations.RefusedEntryHasNoOtherEffect : Prop :=
  (∀ (r op : Nat) (e : Entry) (k : CmdRow) (s : State) (v : Refuse), EntryNext s r → judge r op e k (passEntry r s) = some v →
      Told r e.tag v.status true v.x0 v.x1 v.x2 s (submit r op e k s) ∧ (submit r op e k s).cmds = s.cmds ∧
        (submit r op e k s).beside = s.beside ∧ (submit r op e k s).seqs = s.seqs ∧ ∀ sc, (sub (submit r op e k s) sc).still = (sub s sc).still) ∧
    (∀ (r op : Nat) (e : Entry) (a n : Nat) (k : HostRead → CmdRow) (s : State) (v : Refuse), EntryNext s r →
      judge r op e (k .pending) (passEntry r s) = some v → submitRead r op e a n k s = submit r op e (k .pending) s) ∧
    ∀ (r : Nat) (op : BitVec 16) (e : Entry) (s : State), Alive s → EntryNext s r → opValid s op.toNat = false →
      ∃ t, exec (.badOpcode r op e) s = .next t ∧ Told r e.tag stBadOpcode true 0 0 0 s t ∧ t.cmds = s.cmds ∧ t.beside = s.beside ∧ t.seqs = s.seqs ∧
        ∀ sc, (sub t sc).still = (sub s sc).still

/-- RING_CREATE, RING_DESTROY and RING_RESUME complete with their effect. Under the conditions of R246 to R249, R298, R299 and R407
(Granted) and with operands in range, RING_CREATE adds the ring context with its operands, index 0, phase 1 and running; RING_DESTROY
removes the ring; RING_RESUME leaves the ring it names, or with OPT every ring from 2 upward, no longer halted. All three complete DONE, no
other ring changes but the submitting ring and its completion ring (and, for RING_RESUME, the rings resumed), and nothing changes beside
rings, journal, event bits, counters and what the home sequencer holds for the command (and, for RING_RESUME, the reads of host memory).
(R240, R252, R246, R247, R249, R298, R407.) -/
def Obligations.RingContextsComplete : Prop :=
  (∀ r e s, Granted r opRingCreate e [homeOf opRingCreate] s → ringCreateBad e (passEntry r s) = false →
      ∃ t, exec (.ringCreate r e) s = .next t ∧ Done r e.tag stDone 0 0 0 s t ∧ Beside (homeNow s opRingCreate e) s t ∧
        (∃ x, ring? t (pf e.p0 15 0) = some x ∧ x.base = pn e.p1 ∧ x.z = pn e.p2 ∧ x.eng = 0 ∧ x.got = 0 ∧ x.host = 0 ∧ x.phase = true ∧ x.halted = none ∧
          x.held = [] ∧ x.bound = none ∧ x.type = (if pf e.p0 17 16 = 1 then .sub else if pf e.p0 17 16 = 2 then .cmp else .str) ∧
          (if x.type = .sub then x.pair = pf e.p3 15 0 else x.vector = pf e.p3 10 0 ∧ x.ien = bit (pn e.p3) 15)) ∧
        ∀ k, k ≠ pf e.p0 15 0 → k ≠ r → k ≠ pairOf s r → ring? t k = ring? s k) ∧
    (∀ r e s, Granted r opRingDestroy e [homeOf opRingDestroy] s → 2 ≤ pf e.p0 15 0 → (ring? s (pf e.p0 15 0)).isSome = true →
      ringDestroyBusy e (passEntry r s) = false → pairOf s r ≠ pf e.p0 15 0 →
      ∃ t, exec (.ringDestroy r e) s = .next t ∧ Done r e.tag stDone 0 0 0 s t ∧ Beside (homeNow s opRingDestroy e) s t ∧ ring? t (pf e.p0 15 0) = none ∧
        ∀ k, k ≠ pf e.p0 15 0 → k ≠ r → k ≠ pairOf s r → ring? t k = ring? s k) ∧
    (∀ r e s, Granted r opRingResume e [homeOf opRingResume] s → s.pcie.bme = true →
      (eOpt e = true ∨ 2 ≤ pf e.p0 15 0 ∧ (ring? s (pf e.p0 15 0)).isSome = true) →
      ∃ t, exec (.ringResume r e) s = .next t ∧ Done r e.tag stDone 0 0 0 s t ∧
        Beside (homeNow s opRingResume e) s { t with pcie := { t.pcie with reads := s.pcie.reads, waitq := s.pcie.waitq } } ∧
        ∀ k x, (eOpt e = true ∧ 2 ≤ k ∨ eOpt e = false ∧ k = pf e.p0 15 0) → ring? t k = some x → x.halted = none)

/-- STREAM_OPEN binds a stream, STREAM_CLOSE unbinds it and reports where it stood. Under the conditions of R246 to R249, R298, R299 and
R407 (Granted) and with operands in range, STREAM_OPEN binds the stream of P0 to the STR ring of P0 with the data buffer of P2 and P3 and
delivery beginning at SEQ P1 and offset 0; STREAM_CLOSE unbinds the ring and completes with the next SEQ that was not delivered, or 0 for a
ring with no stream. Nothing changes beside rings, journal, event bits, counters and what the home sequencer holds for the command. (R252,
R256, R257, R246, R247, R249, R298, R407.) -/
def Obligations.StreamBindingCompletes : Prop :=
  (∀ r e s, Granted r opStreamOpen e [homeOf opStreamOpen] s → streamOpenBad e (passEntry r s) = false →
      streamBound (passEntry r s) (pf e.p0 23 16) = false → pairOf s r ≠ pf e.p0 15 0 →
      ∃ t, exec (.streamOpen r e) s = .next t ∧ Done r e.tag stDone 0 0 0 s t ∧ Beside (homeNow s opStreamOpen e) s t ∧
        (∃ x, ring? t (pf e.p0 15 0) = some x ∧
          x.bound = some { stream := pf e.p0 23 16, buf := pn e.p2, size := pn e.p3, nextSeq := pn e.p1, off := 0, held := [], live := true,
                           reading := false, ready := none }) ∧
        ∀ k, k ≠ pf e.p0 15 0 → k ≠ r → k ≠ pairOf s r → ring? t k = ring? s k) ∧
    (∀ r e s x, Granted r opStreamClose e [homeOf opStreamClose] s → ring? (passEntry r s) (pf e.p0 15 0) = some x → x.type = .str →
      pairOf s r ≠ pf e.p0 15 0 →
      ∃ t, exec (.streamClose r e) s = .next t ∧ Beside (homeNow s opStreamClose e) s t ∧
        Done r e.tag stDone (BitVec.ofNat 64 (match x.bound with | some b => b.nextSeq | none => 0)) 0 0 s t ∧
        (∃ y, ring? t (pf e.p0 15 0) = some y ∧ y.bound = none) ∧
        ∀ k, k ≠ pf e.p0 15 0 → k ≠ r → k ≠ pairOf s r → ring? t k = ring? s k)

/-- A doorbell moves the host index of its ring. With Memory Space Enable 1, a doorbell write that includes the lower 4 bytes, with an index
below Z, makes the index the host index of the ring; with no ring or an index from Z upward it is dropped, the bus error counter and
PEEVT.BUSERR record it, and no ring changes; a write of the upper 4 bytes alone does nothing. No other ring changes, and nothing beside
rings, reads of host memory, event bits and counters. With Memory Space Enable 0 no ring changes. (R222, R241, R242, R243.) -/
def Obligations.DoorbellMovesTheHostIndex : Prop :=
  ∀ (r : Nat) (v : W64) (s : State), Alive s →
    (s.pcie.memSpace = false → ∀ b, ∃ t, exec (.doorbell r v b) s = .next t ∧ t.rings = s.rings ∧ t.noAer = s.noAer) ∧
    (s.pcie.memSpace = true → ∃ t, exec (.doorbell r v false) s = .next t ∧ t = s) ∧
    (s.pcie.memSpace = true → (ring? s r = none ∨ ∃ x, ring? s r = some x ∧ x.z ≤ pf v 15 0) →
      ∃ t, exec (.doorbell r v true) s = .next t ∧ t.rings = s.rings ∧ t.calm = s.calm ∧ bit (reg t 0x18000).toNat 0 = true) ∧
    ∀ x, s.pcie.memSpace = true → ring? s r = some x → pf v 15 0 < x.z →
      ∃ t, exec (.doorbell r v true) s = .next t ∧ (∃ y, ring? t r = some y ∧ y.host = pf v 15 0 ∧ y.type = x.type ∧ y.halted = x.halted) ∧
        (∀ k, k ≠ r → ring? t k = ring? s k) ∧
        ({ t with rings := s.rings, pcie := { t.pcie with reads := s.pcie.reads, waitq := s.pcie.waitq } } : State).quiet = s.quiet

/-- EN starts rings 0 and 1, RESUME resumes them. With Memory Space Enable 1: written with EN = 1 while EN is 0 and the sizes of ADMCFG are
in range, ADMCTL sets EN and makes ring 0 a SUB ring paired with ring 1 and ring 1 a CMP ring, with the addresses of ADMSQ and ADMCQ, the
sizes, vector and enable of ADMCFG, empty and running. Written with RESUME = 1 and EN unchanged under Bus Master Enable, it leaves rings 0
and 1 not halted. A write that clears EN, starts with a size out of range, or resumes without Bus Master Enable is dropped as a bus error
and changes no ring. (R222, R249, R260.) -/
def Obligations.AdmctlStartsAndResumesTheAdministrationRings : Prop :=
  ∀ (v : W32) (s : State), Alive s → s.pcie.memSpace = true →
    (bit (reg s 0x180014).toNat 0 = false → bit v.toNat 0 = true → bit v.toNat 1 = false →
      4 ≤ rf s 0x180010 4 0 → rf s 0x180010 4 0 ≤ 16 → 4 ≤ rf s 0x180010 12 8 → rf s 0x180010 12 8 ≤ 16 →
      ∃ t, exec (.en v) s = .next t ∧ reg t 0x180014 = 1 ∧
        ring? t 0 = some (newRing .sub ((reg s 0x180004).toNat * 2 ^ 32 + (reg s 0x180000).toNat) (2 ^ rf s 0x180010 4 0) 1 0 false) ∧
        ring? t 1 = some (newRing .cmp ((reg s 0x18000C).toNat * 2 ^ 32 + (reg s 0x180008).toNat) (2 ^ rf s 0x180010 12 8) 0 (rf s 0x180010 26 16)
          (bit (reg s 0x180010).toNat 31)) ∧
        (∀ k, 2 ≤ k → ring? t k = ring? s k) ∧ (∀ off, off ≠ 0x180014 → reg t off = reg s off) ∧
        ({ t with rings := s.rings, regs := s.regs } : State) = s) ∧
    (bit (reg s 0x180014).toNat 0 = bit v.toNat 0 → bit v.toNat 1 = true → s.pcie.bme = true →
      ∃ t, exec (.resume v) s = .next t ∧ (∀ k x, k < 2 → ring? t k = some x → x.halted = none) ∧ (∀ k, 2 ≤ k → ring? t k = ring? s k) ∧
        ({ t with rings := s.rings, pcie := { t.pcie with reads := s.pcie.reads, waitq := s.pcie.waitq } } : State).quiet = s.quiet) ∧
    ((bit (reg s 0x180014).toNat 0 = true ∧ bit v.toNat 0 = false) ∨
      (bit (reg s 0x180014).toNat 0 = false ∧ bit v.toNat 0 = true ∧ (rf s 0x180010 4 0 < 4 ∨ 16 < rf s 0x180010 4 0)) ∨
      (bit v.toNat 1 = true ∧ s.pcie.bme = false) →
      (∃ t, exec (.en v) s = .next t ∧ t.rings = s.rings ∧ t.calm = s.calm) ∧ ∃ t, exec (.resume v) s = .next t ∧ t.rings = s.rings ∧ t.calm = s.calm)

/-- RECORD delivers the next record, a SKIP entry or END. On an unbound ring, and while a read for the ring is in progress, RECORD does
nothing. With room in the ring, while the last committed record has been delivered and the capture has ended, END is written, CAPEVT0.STREND
is set and the stream is unbound. A run of overwritten records gives one SKIP entry from its first to its last SEQ, sets CAPEVT0.STRSKIP and
is passed. With the next committed record still in DRAM and room in the data buffer, its granules are read in SC2; once it has been read,
its bytes are written at the next free offset, or at 0 when they would not fit before the end, one RECORD entry announces it, and the next
SEQ and offset advance. Beside rings and, where a read begins, what requests change, nothing changes but event bits and counters. (R155,
R177, R257.) -/
def Obligations.RecordIsDelivered : Prop :=
  ∀ (k : Nat) (s : State) (x : Ring), Alive s → ring? s k = some x →
    (x.bound = none → ∃ t, exec (.record k) s = .next t ∧ t = s) ∧
    ∀ b, x.bound = some b → (b.reading = true → ∃ t, exec (.record k) s = .next t ∧ t = s) ∧
      (b.reading = false → x.type = .str → canWrite s x = true → b.live = true → s.cap.anyBegun = true →
      (committedTo s b.stream ≤ b.nextSeq → s.cap.state = .ended → s.cap.closing = false →
        ∃ t, exec (.record k) s = .next t ∧ (∃ l, t.posted = l ++ s.posted ∧ .write (x.base + 32 * x.eng) (entryBytes x.phase (.fin b.nextSeq)) false ∈ l) ∧
          (∃ y, ring? t k = some y ∧ y.bound = none ∧ y.eng = (x.eng + 1) % x.z) ∧ bit (reg t 0x180020).toNat 18 = true ∧
          ({ t with rings := s.rings } : State).quiet = s.quiet) ∧
      (∀ n, n = goneRun (strm s b.stream) (committedTo s b.stream - b.nextSeq) b.nextSeq (committedTo s b.stream) → 0 < n →
        b.nextSeq < committedTo s b.stream →
        ∃ t, exec (.record k) s = .next t ∧ (∃ l, t.posted = l ++ s.posted ∧ .write (x.base + 32 * x.eng) (entryBytes x.phase (.skip b.nextSeq (b.nextSeq + n - 1))) false ∈ l) ∧
          (∃ y, ring? t k = some y ∧ y.bound = some { b with nextSeq := b.nextSeq + n, ready := none } ∧ y.eng = (x.eng + 1) % x.z) ∧
          bit (reg t 0x180020).toNat 17 = true ∧ ({ t with rings := s.rings } : State).quiet = s.quiet) ∧
      ∀ m, b.nextSeq < committedTo s b.stream → recOf (strm s b.stream) b.nextSeq = some m → m.gone = false →
        ∀ off, off = (if b.size < b.off + 64 * m.len then 0 else b.off) → spaceTaken b off (64 * m.len) = false →
        (b.ready = none → ∃ t, exec (.record k) s = .next t ∧ ReadsDram 2 (gransOf m.addr (64 * m.len)) (.upload k b.stream b.nextSeq m.addr (64 * m.len)) s t ∧
          ring? t k = some { x with bound := some { b with reading := true } } ∧ (∀ j, j ≠ k → ring? t j = ring? s j) ∧
          ({ t with rings := s.rings } : State).calm.noReads = s.calm.noReads) ∧
        ∀ bs, b.ready = some bs → ∃ t, exec (.record k) s = .next t ∧ (∃ l, t.posted = l ++ s.posted ∧ .write (x.base + 32 * x.eng) (entryBytes x.phase (.record m.seq off m.len m.ts)) false ∈ l ∧
            .write (b.buf + off) bs s.pcie.ro ∈ l) ∧
          (∃ y c, ring? t k = some y ∧ y.bound = some c ∧ c.nextSeq = b.nextSeq + 1 ∧ c.off = off + 64 * m.len ∧ c.ready = none ∧
            y.eng = (x.eng + 1) % x.z) ∧ ({ t with rings := s.rings } : State).quiet = s.quiet)

/-- PLAN_LOAD, PLAN_ADMIT and PLAN_RELEASE complete with their effect. Under the conditions of R246 to R249, R298, R299 and R407 on the
state and the entry (Granted): PLAN_LOAD under Bus Master Enable reads its image from host memory; when the last of it has arrived, an image
that passes its checks stands in the staged slot and the command completes with its plan number, and one that fails is refused with the
status and results of its check and no other effect. PLAN_ADMIT of a staged image that passes every admission check runs, for a time of log
entry 77, with the slots as they were, and of one that fails is refused with those of the first check that fails; at its end the image is
the active plan, the staged slot is empty, CAPEVT0.PLANCHG is set, no capture is left, and the command completes. PLAN_RELEASE, with nothing
armed, empties the active slot, and with OPT the staged slot too. Beside the slots (for ADMIT and RELEASE also the stamps of samples, for
ADMIT also the capture and the trace switch) nothing changes but rings, journal, event bits, counters and what the home sequencer holds for
the command. (R197, R198, R199, R200, R225, R246, R247, R249, R298, R407.) -/
def Obligations.PlanCommandsComplete : Prop :=
  (∀ r e s, Granted r opPlanLoad e [homeOf opPlanLoad] s → pn e.p1 ≠ 0 → s.pcie.bme = true →
      ∃ t, exec (.planLoad r e) s = .next t ∧ Fetches (.cmd r opPlanLoad e) (pn e.p0) (pn e.p1) s t) ∧
    (∀ r e im s u tag bs, Arrives s tag bs (.cmd r opPlanLoad e) im u → Granted r opPlanLoad e [homeOf opPlanLoad] u → pn e.p1 ≠ 0 →
      ∃ t, exec (.completion tag bs false) s = .next t ∧ (planLoadCheck e (.data im) (passEntry r u) = none → t.plans = { s.plans with staged := some (imSlice im 0 (pn e.p1)) } ∧
          Done r e.tag stDone (BitVec.ofNat 64 (planId (imSlice im 0 (pn e.p1)))) 0 0 u t ∧
          Beside (homeNow u opPlanLoad e) u { t with plans := s.plans }) ∧
        ∀ v, planLoadCheck e (.data im) (passEntry r u) = some v →
          Done r e.tag v.status v.x0 v.x1 v.x2 u t ∧ t.plans = s.plans ∧ Beside (homeNow u opPlanLoad e) u t) ∧
    (∀ r e im s, Granted r opPlanAdmit e [homeOf opPlanAdmit] s → s.plans.staged = some im →
      ∃ t, exec (.planAdmit r e) s = .next t ∧ (admitFail (passEntry r s) = none → t.plans = { s.plans with admitting := some (s.jr.next, s.tb.time + admitTicks) } ∧
          Pends r opPlanAdmit e.tag s t ∧ Beside (homeNow s opPlanAdmit e) s { t with plans := s.plans }) ∧
        ∀ f, admitFail (passEntry r s) = some f →
          Done r e.tag f.refuse.status f.refuse.x0 f.refuse.x1 f.refuse.x2 s t ∧ t.plans = s.plans ∧ Beside (homeNow s opPlanAdmit e) s t) ∧
    (∀ s t o n im k, s.plans.admitting = some (o, n) → n ≤ s.tb.time → s.plans.staged = some im → Tellable s o k → t = admitTime s →
      t.plans.active = some im ∧ t.plans.staged = none ∧ t.plans.admitting = none ∧ t.cap.state = .none ∧ bit (reg t 0x180020).toNat 14 = true ∧
        Ended o k stDone (BitVec.ofNat 64 (planId im)) 0 0 s t ∧
        BesideEnd o s { t with plans := s.plans, cap := s.cap, lanes := s.lanes, trace := s.trace }) ∧
    (∀ r e s, Granted r opPlanRelease e [homeOf opPlanRelease] s → armed s = false →
      ∃ t, exec (.planRelease r e) s = .next t ∧ t.plans.active = none ∧ t.plans.staged = (if eOpt e then none else s.plans.staged) ∧
        t.plans.drfmP = s.plans.drfmP ∧ Done r e.tag stDone 0 0 0 s t ∧
        Beside (homeNow s opPlanRelease e) s { t with plans := s.plans, lanes := s.lanes })

/-- POPULATION_SET and SCRUB_SET set their channels. Under the conditions of R246 to R249, R298, R299 and R407 on the state and the entry
(Granted): POPULATION_SET of 128 bytes, with every channel UNPOP, UNTRAINED or FAILED and Bus Master Enable 1, reads its descriptor; when
the last of it has arrived and it passes its checks, every channel is UNTRAINED with the DDRFMCFG, DDRFMSEED, AGE and self-refresh settings
of the descriptor, and its timings are in force. SCRUB_SET sets start, end, period and enable of the channels of P0. Both complete DONE; no
other register changes but event bits and logs, and nothing else beside rings, journal, counters, the scrub of the channels named and what
the home sequencer holds for the command. (R160, R161, R184, R225, R251, R246, R247, R249, R298, R407.) -/
def Obligations.DramConfigurationCompletes : Prop :=
  (∀ r e s, Granted r opPopulationSet e [homeOf opPopulationSet] s → pn e.p1 = 128 → allIn s [0, 1, 4] = true → s.pcie.bme = true →
      ∃ t, exec (.populationSet r e) s = .next t ∧ Fetches (.cmd r opPopulationSet e) (pn e.p0) 128 s t) ∧
    (∀ r e im s u tag bs, Arrives s tag bs (.cmd r opPopulationSet e) im u → Granted r opPopulationSet e [homeOf opPopulationSet] u → pn e.p1 = 128 →
      popBad im = false → allIn s [0, 1, 4] = true →
      ∃ t, exec (.completion tag bs false) s = .next t ∧ Done r e.tag stDone 0 0 0 u t ∧ t.dram.times = popTimes im ∧
        (∀ ch, ch < chCount s → chState t ch = 1 ∧ rf t (chBase ch) 31 16 = imLE im 0 2 ∧ reg t (chBase ch + 0x10) = BitVec.ofNat 32 (imLE im 7 1) ∧
          reg t (chBase ch + 0x14) = BitVec.ofNat 32 (imLE im 8 4) ∧ reg t (chBase ch + 0x18) = BitVec.ofNat 32 (imLE im 12 2)) ∧
        keepsRegs ((List.range (chCount s)).flatMap fun ch => [0, 4, 0x10, 0x14, 0x18, 0x1C].map fun o => chBase ch + o) s t ∧
        Beside (homeNow u opPopulationSet e) u { t with regs := s.regs, dram := { t.dram with times := s.dram.times } }) ∧
    (∀ r e s, Granted r opScrubSet e [homeOf opScrubSet] s → pn e.p0 < 2 ^ chCount s → (pf e.p3 8 8 = 1 → pn e.p1 < pn e.p2 ∧ pf e.p3 7 0 ≠ 0) →
      ∃ t, exec (.scrubSet r e) s = .next t ∧ Done r e.tag stDone 0 0 0 s t ∧
        (∀ ch, ch < chCount s → bit (pn e.p0) ch = true →
          reg t (chBase ch + 0x28) = BitVec.ofNat 32 (pf e.p3 8 8 * 2 ^ 31 + pf e.p3 7 0) ∧ reg t (chBase ch + 0x2C) = BitVec.ofNat 32 (pn e.p1) ∧
          reg t (chBase ch + 0x30) = BitVec.ofNat 32 (pn e.p2)) ∧
        keepsRegs ((numsWhere (chCount s) (bit (pn e.p0))).flatMap fun ch => [0x28, 0x2C, 0x30].map fun o => chBase ch + o) s t ∧
        Beside (homeNow s opScrubSet e) s { t with regs := s.regs, dram := { t.dram with subs := s.dram.subs } })

/-- TRACE_SET sets the sources and destinations of the trace, and the observation ports send it. Under the conditions of R246 to R249, R298,
R299 and R407 on the state and the entry (Granted): TRACE_SET sets the flow, event and state sources, the DRAM region, its wrap rule and
both destinations; with the DRAM destination on, TRACEWP is the base of the region. It completes DONE and changes no other register but
event bits and logs, and nothing else beside rings, journal, counters and what the home sequencer holds for the command. OBS_FRAME_SEND does
nothing while the GLBCTL bit of its port is 0, and while a warm reset lasts; else, in a codeword slot that begins in the slice, it sends an
IDLE frame when no entry waits for the port, and otherwise one frame with a TICK entry and up to 79 entries, which leave the buffer. (R34,
R357, R359, R360, R393, R246, R247, R249, R298, R407.) -/
def Obligations.TraceSetCompletes : Prop :=
  (∀ r e s, Granted r opTraceSet e [homeOf opTraceSet] s → traceBad e (passEntry r s) = false →
    ∃ t, exec (.traceSet r e) s = .next t ∧ Done r e.tag stDone 0 0 0 s t ∧
      t.trace.flowMask = pf e.p0 27 0 ∧ t.trace.evtEn = bit (pn e.p1) 0 ∧ t.trace.stateMask = pf e.p1 15 8 ∧ t.trace.base = pf e.p2 27 0 ∧
      t.trace.sizeLog = pf e.p2 35 28 ∧ t.trace.wrap = bit (pn e.p2) 61 ∧ t.trace.dramEn = bit (pn e.p2) 62 ∧ t.trace.obsEn = bit (pn e.p2) 63 ∧
      (bit (pn e.p2) 62 = true → traceWp t = 4096 * pf e.p2 27 0 ∧ rf t 0x40 30 30 = 0) ∧ keepsRegs [0x40, 0x48, 0x4C] s t ∧
      Beside (homeNow s opTraceSet e) s { t with regs := s.regs, trace := s.trace }) ∧
    ∀ p s, Alive s → p < 2 → (rf s 0xC p p = 0 ∨ s.pwr.warm = true → ∃ t, exec (.obsFrameSend p) s = .next t ∧ t = s) ∧
      (rf s 0xC p p = 1 → s.pwr.warm = false → obsOpen s p = true →
        (obsBuf s p = [] → ∃ t, exec (.obsFrameSend p) s = .next t ∧ t.sent = (obsLink p, .idle 0) :: s.sent ∧
          ({ t with sent := s.sent, trace := { t.trace with slot0 := s.trace.slot0, slot1 := s.trace.slot1 } } : State) = s) ∧
        (obsBuf s p ≠ [] → ∃ t, exec (.obsFrameSend p) s = .next t ∧ t.sent = (obsLink p, .sample 0 (obsPayload s p)) :: s.sent ∧
          obsBuf t p = (obsBuf s p).drop 79 ∧ obsBuf t (1 - p) = obsBuf s (1 - p) ∧
          ({ t with sent := s.sent, trace := { t.trace with buf0 := s.trace.buf0, buf1 := s.trace.buf1, slot0 := s.trace.slot0,
                                                            slot1 := s.trace.slot1 } } : State) = s))

/-- LANE_SET configures the lanes of its mask. Under the conditions of R246 to R249, R298, R299 and R407 on the state and the entry
(Granted), with lanes to set, LANE_SET writes LANECFG and LANEDESC of each from P2 and LANECTL.EN from P3, and the staged format becomes the
active one. EN = 0 leaves a lane DISABLED; EN = 1 takes a DISABLED lane to DOWN, a lane in RUN whose format changes to CONFIRM, and leaves
every other state as it was. No other lane changes, no other register but event bits and logs, and nothing else beside frames sent, rings,
journal, counters and what the home sequencer holds for the command. (R58, R251, R252, R404, R246, R247, R249, R298, R407.) -/
def Obligations.LaneSetCompletes : Prop :=
  ∀ r e s, Granted r opLaneSet e (4 :: clqsOf (maskLanes e)) s → maskLanes e ≠ [] → laneSetBad e s = false → armed s = false →
    (∀ n ∈ maskLanes e, inTraining s n = false) →
    ∃ t, exec (.laneSet r e) s = .next t ∧ Done r e.tag stDone 0 0 0 s t ∧
      (∀ n ∈ maskLanes e, reg t (laneBase n) = BitVec.ofNat 32 (pf e.p2 31 0) ∧ reg t (laneBase n + 4) = BitVec.ofNat 32 (pf e.p2 63 32) ∧
        lnEn t n = bit (pn e.p3) 0 ∧ lnAfmt t n = lnFmt t n ∧ lnAdiv t n = lnDiv t n ∧
        laneState t n = (if bit (pn e.p3) 0 = false then lnDisabled
          else if laneState s n = lnDisabled then lnDown
          else if laneState s n = lnRun ∧ ¬ (lnAfmt s n = lnFmt t n ∧ lnAdiv s n = lnDiv t n) then lnConfirm
          else laneState s n)) ∧
      (∀ k, k ∉ maskLanes e → lane t k = lane s k) ∧
      keepsRegs ((maskLanes e).flatMap fun n => [0, 4, 8, 0x10].map fun o => laneBase n + o) s t ∧
      Beside (homeNow s opLaneSet e) s { t with regs := s.regs, lanes := s.lanes, sent := s.sent }

/-- TIMEBASE_SET and TBCOMMIT order the staged settings, which take effect at the second housekeeping edge. Under the conditions of R246 to
R249, R298, R299 and R407 on the state and the entry (Granted): TIMEBASE_SET writes TBCFG0 to TBPHASE and orders the COMMIT of their
settings for the second housekeeping edge; its completion comes then. A TBCOMMIT write of 1 by a privileged master with class CLK armed
orders the COMMIT of the settings staged, when they agree and no reconfiguration falls while armed, and uses the key up. When the COMMIT
takes effect, with no step ordered, its settings are in force; settings that reconfigure the reference path outside INITIAL take the
timebase to ECLIPSE with cause 3, and others leave its state as it is; a TIMEBASE_SET then completes DONE with TBSTAT. (R21, R68, R69, R74,
R251, R343, R344, R246, R247, R249, R298, R407.) -/
def Obligations.TimebaseSettingsTakeEffect : Prop :=
  (∀ r e s, Granted r opTimebaseSet e [homeOf opTimebaseSet] s → (∀ x ∈ tbWords e, x.2.1 &&& ~~~x.2.2 = 0) → tbAgrees (tbOfEntry e) = true →
      (armed s = true → tbReconf s (tbOfEntry e) = false) →
      ∃ t, exec (.timebaseSet r e) s = .next t ∧ Pends r opTimebaseSet e.tag s t ∧ (∀ x ∈ tbWords e, reg t x.1 = x.2.1) ∧
        t.house = { s.house with commits :=
          s.house.commits ++ [{ edge := secondEdge s, set := tbOfEntry e, judged := true, origin := some s.jr.next }] } ∧
        keepsRegs [0x40000, 0x40004, 0x40008, 0x4000C, 0x40010] s t ∧
        Beside (homeNow s opTimebaseSet e) s { t with regs := s.regs, house := s.house }) ∧
    (∀ m v s, Alive s → Reaches m s → privileged s m .clk = true → armOf s m = some .clk → bit v.toNat 0 = true → tbAgrees (tbStaged s) = true →
      (armed s = true ∨ admitting s = true → tbReconf s (tbStaged s) = false) →
      ∃ t, exec (.tbcommit m v) s = .next t ∧ armOf t m = none ∧ t.house = { s.house with commits :=
          s.house.commits ++ [{ edge := secondEdge s, set := tbStaged s, judged := s.house.commits.isEmpty, origin := none }] } ∧
        ({ t with house := s.house, guard := s.guard } : State) = s) ∧
    ∀ s t c, t = settleCommit c s → (c.judged = true ∨ tbVerdict c.set s = none) → s.tb.order = none →
      t.tb.act = c.set ∧ tbState t = (if tbReconf s c.set && tbState s != tbInitial then tbEclipse else tbState s) ∧
        (tbState t = tbEclipse → tbState s ≠ tbEclipse → rf t 0x4001C 25 24 = 3) ∧ keepsRegs [0x4001C, 0x40028] s t ∧
        (c.origin = none → ({ t with regs := s.regs, tb := s.tb } : State).calm = s.calm) ∧
        ∀ o k, c.origin = some o → Tellable s o k → Ended o k stDone ((reg t 0x4001C).setWidth 64) 0 0 s t ∧
          BesideEnd o s { t with regs := s.regs, tb := s.tb }

/-- CUSTODY_GRANT gives the host its classes, CUSTODY_RELEASE takes them back. Under the conditions of R246 to R249, R298, R299 and R407 on
the state and the entry (Granted): CUSTODY_GRANT of 128 bytes with no custody held and Bus Master Enable 1 reads its grant; when the last of
it has arrived, a grant that fails its checks is refused with their status and no other effect, and with one that passes GUARDSTAT.CUSTODY
and CLASSES are those of the grant, GLBEVT.CUSTODY is raised, a new nonce is drawn and the command completes DONE. CUSTODY_RELEASE leaves no
custody and the host disarmed, and keeps the nonce. Nothing else changes beside rings, journal, event bits, counters and what the home
sequencer holds for the command. (R225, R345, R346, R246, R247, R249, R298, R407.) -/
def Obligations.CustodyIsGrantedAndReleased : Prop :=
  (∀ r e s, Granted r opCustodyGrant e [homeOf opCustodyGrant] s → pn e.p1 = 128 → custody s = false → s.pcie.bme = true →
      ∃ t, exec (.custodyGrant r e) s = .next t ∧ Fetches (.cmd r opCustodyGrant e) (pn e.p0) 128 s t) ∧
    (∀ r e im s u tag bs, Arrives s tag bs (.cmd r opCustodyGrant e) im u → Granted r opCustodyGrant e [homeOf opCustodyGrant] u → pn e.p1 = 128 →
      custody s = false →
      ∃ t, exec (.completion tag bs false) s = .next t ∧ (grantCheck (.data im) s = none → Done r e.tag stDone 0 0 0 u t ∧ custody t = true ∧ rf t 0x14 20 16 = imLE im 24 1 ∧
          bit (reg t 0x18).toNat 2 = true ∧ nonceNow t = (Config.entropy s.guard.draws).toNat ∧
          t.guard = { s.guard with draws := s.guard.draws + 1 } ∧ keepsRegs [0x14, 0x20, 0x24] s t ∧
          Beside (homeNow u opCustodyGrant e) u { t with regs := s.regs, guard := s.guard }) ∧
        ∀ v, grantCheck (.data im) s = some v →
          Done r e.tag v.status v.x0 v.x1 v.x2 u t ∧ custody t = false ∧ Beside (homeNow u opCustodyGrant e) u t) ∧
    (∀ r e s, Granted r opCustodyRelease e [homeOf opCustodyRelease] s →
      ∃ t, exec (.custodyRelease r e) s = .next t ∧ Done r e.tag stDone 0 0 0 s t ∧ custody t = false ∧ nonceNow t = nonceNow s ∧
        (custody s = true → t.guard.hostArm = none ∧ bit (reg t 0x18).toNat 2 = true) ∧ t.guard.csqArm = s.guard.csqArm ∧ keepsRegs [0x14] s t ∧
        Beside (homeNow s opCustodyRelease e) s { t with regs := s.regs, guard := s.guard })

/-- PATCH_LOAD and OPEN_AREA_LOAD change the control stores. Under the conditions of R246 to R249, R298, R299 and R407 on the state and the
entry (Granted), with nothing armed, no other command open and Bus Master Enable 1, PATCH_LOAD and OPEN_AREA_LOAD read their image from host
memory. When the last of it has arrived, an image that fails its checks is refused with no other effect, and of those that pass a vendor
patch leaves every word and dispatch entry that it names as its last entry for that place gives it, in every present sequencer of the class,
and its level in force; an open-area image leaves its 4,096 words in every present JSQ, its entry table and its digest. Both complete with
MCVER, and change nothing else beside rings, journal, event bits, counters and what the home sequencer holds for the command. (R225, R314,
R315, R316, R246, R247, R249, R298, R407.) -/
def Obligations.PatchesAreLoaded : Prop :=
  (∀ r e s, Granted r opPatchLoad e [homeOf opPatchLoad] s → pn e.p1 ≠ 0 → armed s = false → s.cmds = [] → s.pcie.bme = true →
      (∃ t, exec (.patchLoad r e) s = .next t ∧ Fetches (.cmd r opPatchLoad e) (pn e.p0) (pn e.p1) s t) ∧
      ∃ t, exec (.openAreaLoad r e) s = .next t ∧ Fetches (.cmd r opPatchLoad e) (pn e.p0) (pn e.p1) s t) ∧
    ∀ r e im0 im s u tag bs, Arrives s tag bs (.cmd r opPatchLoad e) im0 u → Granted r opPatchLoad e [homeOf opPatchLoad] u → pn e.p1 ≠ 0 →
      armed s = false → s.cmds = [] → im = imSlice im0 0 (pn e.p1) →
      ∃ t, exec (.completion tag bs false) s = .next t ∧ (∀ v, patchCheck e (.data im0) s = some v →
          Done r e.tag v.status v.x0 v.x1 v.x2 u t ∧ t.stores = s.stores ∧ Beside (homeNow u opPatchLoad e) u t) ∧
        (patchCheck e (.data im0) s = none → Done r e.tag stDone (mcver t) 0 0 u t ∧
          Beside (homeNow u opPatchLoad e) u { t with stores := s.stores } ∧
          (patchKind im = 1 → t.stores.patch = patchLevel im ∧
            ∀ i, i < patchCount im → (∀ j, i < j → j < patchCount im → pEntClass im j = pEntClass im i → pEntAddr im j ≠ pEntAddr im i) →
              (pEntClass im i = 7 → dispEntry t (pEntAddr im i) = pEntDisp im i) ∧
              ∀ q, q < seqCount s → storeClass q = pEntClass im i → storeWord t q (pEntAddr im i) = pEntWord im i) ∧
          (patchKind im = 2 →
            (∀ d w, d < quads s → w < 4096 → storeWord t (jsqOf d) (0x3000 + w) = imWord im (576 + 18 * w)) ∧
            (∀ i, i < 256 → tblGet t.stores.oaEntry i 0 = imLE im (64 + 2 * i) 2) ∧ t.stores.digest = BitVec.ofNat 32 (imLE im 74304 4)))

/-- A microword computes, writes its destination and goes on. A sequencer that runs, with no trap due, meets a word of right parity and no
reserved code that makes no memory, unit, event, stack or commit operation and does not wait, and that does nothing R317 forbids if it
stands in the open area: flags and destination take the result of the ALU on the two sources, the loop counter what CNT orders, and the next
address is that of NAC. No other sequencer changes, and nothing else beside the trace and the count of free values. (R290, R291, R292, R293,
R296, R317.) -/
def Obligations.MicrowordRuns : Prop :=
  ∀ (q : Nat) (s : State) (x y z : Seqr) (w : BitVec 144) (a b : W64) (v : W64 × Bool × BitVec 4) (p why : Nat), Alive s → seqPresent s q = true →
    x = sq s q → x.state = .run → x.wait = none → trapDue x = false → w = storeWord s q x.pc → parityFails w = 0 → reservedCode w = false →
    (mDsp w = true → q = 0) → mMop w = 0 → xioOp w = 0 → mEvt w = 0 → mStk w = 0 → mCmt w = false → mWait w = 0 → mNac w ≤ 6 → x.prePc < 39 →
    a = source s x w (mAsrc w) → b = source s x w (mBsrc w) → v = alu (mAlu w) a b x.flags (Config.freeValue s.fresh) →
    y = applyCnt w v.1 (if v.2.1 then putDst (mDst w) v.1 { x with flags := v.2.2 } else { x with flags := v.2.2 }) →
    nextAddr s q y w a = some (p, z, why) →
    (isJsq q = true → inOpen x.pc = true → mRing w < 2 ∧ ∀ g, goesTo s y w a = some g → inOpen g = true) →
    ∃ t, exec (.microword q) s = .next t ∧ (sq t q).pc = p ∧ (sq t q).w = z.w ∧ (sq t q).flags = z.flags ∧ (sq t q).lc = z.lc ∧ (sq t q).mar = z.mar ∧
      (sq t q).mdr = z.mdr ∧ (sq t q).xdr = z.xdr ∧ (sq t q).lb = z.lb ∧ (sq t q).ctx = z.ctx ∧ (sq t q).stack = z.stack ∧ (sq t q).state = .run ∧
      (sq t q).words = x.words + 1 ∧ (∀ k, k ≠ q → sq t k = sq s k) ∧ t.fresh = s.fresh + 1 ∧
      ({ t with seqs := s.seqs, fresh := s.fresh } : State).quiet = s.quiet

/-- A CMT word commits the results of its command. A CMT word of a running routine of an open command that does nothing else and goes to the
next word commits W1 to W3 as the results of the command. With RING = 1 it ends the command with the status of IMM and those results; with
RING not 1 and the abort flag of the context 1 it ends it with ABORTED; otherwise the command stays open with them. With Bus Master Enable 0
and publications staged it discards them and ends the command with BUS_MASTER_OFF and the results of its context before. A CMT word outside
any command hands the staged publications to the endpoint, in order. (R300, R301, R303.) -/
def Obligations.CommitWordCommits : Prop :=
  ∀ (q : Nat) (s : State) (x : Seqr) (w : BitVec 144), Alive s → seqPresent s q = true →
    x = sq s q → x.state = .run → x.wait = none → trapDue x = false → w = storeWord s q x.pc → parityFails w = 0 → reservedCode w = false →
    (mDsp w = true → q = 0) → mMop w = 0 → xioOp w = 0 → mEvt w = 0 → mStk w = 0 → mCmt w = true → mWait w = 0 → mNac w = 0 → mCnt w = 0 → mAlu w = 0 →
    (isJsq q = true → inOpen x.pc = true → mRing w < 2) → mDst w = 0x20 → x.prePc < 39 →
    (∀ o k, (nth x.ctxs x.ctx Ctx.reset).origin = some o → Tellable s o k → x.pubs = [] →
      (mRing w = 1 → ∃ t, exec (.cmt q) s = .next t ∧ Ended o k (mImm w) (nth x.w 1 0) (nth x.w 2 0) (nth x.w 3 0) s t ∧
        BesideEnd o s { t with seqs := s.seqs, fresh := s.fresh }) ∧
      (mRing w ≠ 1 → (nth x.ctxs x.ctx Ctx.reset).abort = true → ∃ t, exec (.cmt q) s = .next t ∧ Ended o k stAborted (nth x.w 1 0) (nth x.w 2 0) (nth x.w 3 0) s t ∧ BesideEnd o s { t with seqs := s.seqs, fresh := s.fresh }) ∧
      (mRing w ≠ 1 → (nth x.ctxs x.ctx Ctx.reset).abort = false → ∃ t, exec (.cmt q) s = .next t ∧ (∃ d, cmd? t o = some d ∧ d.c0 = nth x.w 1 0 ∧ d.c1 = nth x.w 2 0 ∧ d.c2 = nth x.w 3 0 ∧ d.ring = k.ring ∧ d.tag = k.tag) ∧
        (sq t q).pc = (x.pc + 1) % 16384 ∧ (sq t q).state = .run ∧ (sq t q).w = x.w ∧ BesideEnd o s { t with seqs := s.seqs, fresh := s.fresh })) ∧
    (∀ o k, (nth x.ctxs x.ctx Ctx.reset).origin = some o → Tellable s o k → x.pubs ≠ [] → s.pcie.bme = false →
      ∃ t, exec (.cmt q) s = .next t ∧ Ended o k stBusMasterOff (nth x.ctxs x.ctx Ctx.reset).c0 (nth x.ctxs x.ctx Ctx.reset).c1 (nth x.ctxs x.ctx Ctx.reset).c2 s t ∧
        (sq t q).pubs = [] ∧ BesideEnd o s { t with seqs := s.seqs, fresh := s.fresh }) ∧
    ((nth x.ctxs x.ctx Ctx.reset).origin = none →
      ∃ t, exec (.cmt q) s = .next t ∧ (sq t q).pubs = [] ∧ (sq t q).pc = (x.pc + 1) % 16384 ∧
        (∃ l, t.posted = l ++ (x.pubs.map fun b => Posted.write b.addr b.bytes false).reverse ++ s.posted) ∧
        ({ t with seqs := s.seqs, fresh := s.fresh } : State).calm = s.calm)

/-- A trap saves its frame and starts the handler. At a trap-safe point, with the home bank its own, a sequencer takes the pending trap of
highest priority: the frame stands in the home bank, the cause is no longer pending, and the handler runs from the word of its cause, with
the state that it interrupts kept. A UNIT trap (other than a host read timeout) leaves the 64 words of the frame as they were saved and
changes no command. An ABORT trap sets the abort flag of the command it names, a WDOG trap that of the command it interrupts, in its
contexts and in word 1 of the frame. A PRIV trap ends the command it interrupts with ABORTED, a host read timeout with HOST_READ_TIMEOUT,
both with its committed results. A PREEMPT trap runs the LANE_SET or THERMAL_PROFILE that waits to its end. No other sequencer changes in
the first three. (R299, R304, R305, R306, R308, R309, R318.) -/
def Obligations.TrapIsTaken : Prop :=
  ∀ (q : Nat) (s : State) (c : TrapCause) (d : Nat), Alive s → trapReady s q = true → firstTrap (sq s q) = some (c, d) → frameOwned s q = true →
    s.banks.mem.wf = true →
    (c = .unit ∧ d ≠ hostTimeoutDetail ∨ c = .preempt ∧ (∀ k ∈ (sq s q).queue, k.origin ≠ d) →
      ∃ t, exec (.trap q) s = .next t ∧ (sq t q).state = .handler ∧ (sq t q).inTrap = some c ∧ (sq t q).resume = (sq s q).state ∧
        (sq t q).trapWait = (sq s q).wait ∧ (sq t q).pc = trapCode c ∧ (sq t q).pendTrap = (sq s q).pendTrap.filter (fun p => !(p.1 == c && p.2 == d)) ∧
        (∀ i, i < 64 → bankWord t (seqBank q) (frameWord q + i) = BitVec.ofNat 64 ((sealFrame (frameBody s q c d)).getD i 0)) ∧
        (∀ k, k ≠ q → sq t k = sq s k) ∧ t.cmds = s.cmds ∧
        ({ t with seqs := s.seqs, banks := s.banks, regs := s.regs } : State).calm = s.calm) ∧
    (∀ o k, c = .abort ∧ o = d ∨ c = .wdog ∧ (nth (sq s q).ctxs (sq s q).ctx Ctx.reset).origin = some o → cmd? s o = some k →
      ∃ t, exec (.trap q) s = .next t ∧ (∃ y, cmd? t o = some y ∧ y.abort = true) ∧ (sq t q).state = .handler ∧ (sq t q).inTrap = some c ∧
        (sq t q).ctxs = ((sq s q).ctxs.map fun y => if y.origin = some o then { y with abort := true } else y) ∧
        bits (bankWord t (seqBank q) (frameWord q + 1)).toNat 15 12 = maskOfList (numsWhere 4 fun i => (nth (sq t q).ctxs i Ctx.reset).abort) ∧
        (∀ i, i ≠ q → sq t i = sq s i) ∧
        ({ t with seqs := s.seqs, banks := s.banks, regs := s.regs, cmds := s.cmds } : State).calm = s.calm) ∧
    (∀ o k, (nth (sq s q).ctxs (sq s q).ctx Ctx.reset).origin = some o → Tellable s o k →
      (c = .priv → ∃ t, exec (.trap q) s = .next t ∧ Ended o k stAborted k.c0 k.c1 k.c2 s t ∧ (sq t q).state = .handler ∧ (sq t q).inTrap = some .priv) ∧
      (c = .unit ∧ d = hostTimeoutDetail →
        ∃ t, exec (.trap q) s = .next t ∧ Ended o k stHostReadTimeout k.c0 k.c1 k.c2 s t ∧ (sq t q).state = .handler ∧ (sq t q).inTrap = some .unit)) ∧
    (∀ o k x, c = .preempt → d = o → Tellable s o k → (sq s q).queue.find? (fun y => y.origin == o) = some x → k.opcode = opLaneSet ∨ k.opcode = opThermalProfile →
      ∃ t, exec (.trap q) s = .next t ∧ cmd? t o = none ∧ (sq t q).state = .handler ∧ (sq t q).inTrap = some .preempt)

/-- A trap and its return give the interrupted sequencer back as it was. For every running or waiting sequencer in a command, with its
fields in their ranges, that takes a trap in its own home bank whose handler does nothing to its command (a UNIT trap other than a host read
timeout, or a PREEMPT trap whose command waits no longer): the trap completes, and after it TRAPRET completes and leaves program counter,
context, flags, registers, loop counters, memory and unit data registers, stack, abort flags, state and the waiting word of the sequencer as
they were before the trap. A PREEMPT trap that runs a waiting LANE_SET or THERMAL_PROFILE gives back the same, the abort flag of the running
context among them. (R299, R305, R306, R307.) -/
def Obligations.TrapAndReturnRestoreTheSequencer : Prop :=
  ∀ (q : Nat) (s : State) (x : Seqr) (c : TrapCause) (d : Nat), Alive s → trapReady s q = true → x = sq s q → firstTrap x = some (c, d) →
    frameOwned s q = true → s.banks.mem.wf = true → (x.state = .run ∨ x.state = .wait) → x.hold = [] → x.pc < 16384 → x.ctx < 4 → x.ctxs.length = 4 →
    x.w.length = 32 → x.lc.length = 4 → (∀ v ∈ x.lc, v < 65536) → x.stack.length ≤ seqStack q → (∀ y ∈ x.ctxs, y.abort = true → y.origin.isSome = true) →
    (nth x.ctxs x.ctx Ctx.reset).origin.isSome = true →
    (c = .unit ∧ d ≠ hostTimeoutDetail ∨ c = .preempt ∧ (∀ k ∈ x.queue, k.origin ≠ d) →
      ∃ t, exec (.trap q) s = .next t ∧ (sq t q).state = .handler ∧
        ∃ u, exec (.trapret q) t = .next u ∧ (sq u q).pc = x.pc ∧ (sq u q).ctx = x.ctx ∧ (sq u q).ctxs = x.ctxs ∧ (sq u q).flags = x.flags ∧
          (sq u q).w = x.w ∧ (sq u q).lc = x.lc ∧ (sq u q).mar = x.mar ∧ (sq u q).mdr = x.mdr ∧ (sq u q).xdr = x.xdr ∧ (sq u q).stack = x.stack ∧
          (sq u q).lb = x.lb ∧ (sq u q).state = x.state ∧ (sq u q).wait = x.wait ∧ (sq u q).inTrap = none ∧ u.cmds = s.cmds) ∧
    (∀ k, c = .preempt → cmd? s d = some k → k.opcode = opLaneSet ∨ k.opcode = opThermalProfile → (∃ y ∈ x.queue, y.origin = d) →
      (nth x.ctxs x.ctx Ctx.reset).origin ≠ some d →
      ∃ t, exec (.trap q) s = .next t ∧ (sq t q).state = .handler ∧
        ∃ u, exec (.trapret q) t = .next u ∧ (sq u q).pc = x.pc ∧ (sq u q).ctx = x.ctx ∧ nth (sq u q).ctxs x.ctx Ctx.reset = nth x.ctxs x.ctx Ctx.reset ∧
          (sq u q).flags = x.flags ∧ (sq u q).w = x.w ∧ (sq u q).lc = x.lc ∧ (sq u q).mar = x.mar ∧ (sq u q).mdr = x.mdr ∧ (sq u q).xdr = x.xdr ∧
          (sq u q).stack = x.stack ∧ (sq u q).lb = x.lb ∧ (sq u q).state = x.state ∧ (sq u q).wait = x.wait ∧ (sq u q).inTrap = none)

/-- Bank accesses by a master that may make them. For a master that a port serves, in a present bank: BANK_WRITE stores its value; FETCH_ADD
and SWAP of a sequencer on a readable word return the old word in MDR and store the sum or the new value; BANK_READ gives a sequencer the
word in MDR and the host its 8 bytes. Each is counted in its counter, no byte outside the word changes, and nothing else but event bits and
counters. (R322, R327, R328, R329.) -/
def Obligations.BankAccessesReadAndWrite : Prop :=
  ∀ (m : BankUser) (k w : Nat) (v : W64) (s : State) (owner : Bool), Alive s → s.banks.mem.wf = true →
    (portFor s m k w (.write v) = some owner → ∃ t, exec (.bankWrite m k w v none) s = .next t ∧ bankWord t k w = v ∧ bankPoison t k w = false ∧
      (∀ a, a < 8 * wordKey k w ∨ 8 * wordKey k w + 8 ≤ a → memGet t.banks.mem a = memGet s.banks.mem a) ∧
      ({ t with banks := s.banks } : State).quiet = (count (bankCtr k (if owner then 1 else 3)) s).quiet) ∧
    (∀ q, m = .seq q → portFor s m k w (.fetchAdd v) = some owner → bankPoison s k w = false →
      ∃ t, exec (.fetchAdd m k w v none) s = .next t ∧ bankWord t k w = bankWord s k w + v ∧ (sq t q).mdr = bankWord s k w ∧
        (∀ a, a < 8 * wordKey k w ∨ 8 * wordKey k w + 8 ≤ a → memGet t.banks.mem a = memGet s.banks.mem a) ∧
        (∀ i, i ≠ q → sq t i = sq s i) ∧ ({ t with banks := s.banks, seqs := s.seqs } : State).quiet = (count (bankCtr k 4) s).quiet) ∧
    (∀ q, m = .seq q → portFor s m k w (.swap v) = some owner → bankPoison s k w = false →
      ∃ t, exec (.swap m k w v none) s = .next t ∧ bankWord t k w = v ∧ (sq t q).mdr = bankWord s k w ∧
        (∀ a, a < 8 * wordKey k w ∨ 8 * wordKey k w + 8 ≤ a → memGet t.banks.mem a = memGet s.banks.mem a) ∧
        (∀ i, i ≠ q → sq t i = sq s i) ∧ ({ t with banks := s.banks, seqs := s.seqs } : State).quiet = (count (bankCtr k 4) s).quiet) ∧
    (portFor s m k w .read = some owner → bankPoison s k w = false → ∃ t, exec (.bankRead m k w .good) s = .next t ∧ t.banks = s.banks ∧
      (∀ q, m = .seq q → (sq t q).mdr = bankWord s k w ∧ (sq t q).poison = false) ∧
      (m = .host → ∃ l, t.posted = .readData (leBytes 8 (bankWord s k w).toNat) false :: l) ∧
      ({ t with seqs := s.seqs } : State).quiet = (count (bankCtr k (if owner then 0 else 2)) s).quiet)

/-- A bank access that no port serves changes no bank. A read or write by a present master that the bank serves on no port stores nothing
and sets BNKEVT.NOTOWN; the host read is answered with Completer Abort, the host write is dropped as a bus error of KIND 4. (R220, R223,
R327.) -/
def Obligations.BankAccessWithoutOwnershipIsRefused : Prop :=
  ∀ (m : BankUser) (k w : Nat) (v : W64) (s : State), Alive s → k < 12 → w < bankWords → userPresent s m = true → (∀ x, m ≠ .codec x) →
    (portFor s m k w (.write v) = none → ∃ t, exec (.bankWrite m k w v none) s = .next t ∧ t.banks.mem = s.banks.mem ∧
      bit (reg t (0x60040 + 4 * k)).toNat 3 = true ∧ (m = .host → bit (reg t 0x18000).toNat 0 = true)) ∧
    (portFor s m k w .read = none → ∃ t, exec (.bankRead m k w .good) s = .next t ∧ t.banks.mem = s.banks.mem ∧
      bit (reg t (0x60040 + 4 * k)).toNat 3 = true ∧ (m = .host → ∃ l, t.posted = l ++ s.posted ∧ .completerAbort ∈ l))

/-- BANKOWN_WRITE orders a handover and HANDOVER completes it. A BANKOWN write that its rules admit sets the guest and the next owner, with
PEND when that is another than the owner now, and leaves the owner; HANDOVER of a bank with PEND makes the next owner the owner, clears PEND
and sets BNKEVT.HANDED; without PEND it does nothing. CORRECTED_WRITE_BACK leaves no write-back of its word due. No bank contents change.
(R325, R326, R331.) -/
def Obligations.BankOwnershipIsHandedOver : Prop :=
  ∀ (k : Nat) (s : State), Alive s → k < 12 →
    (∀ m v, userPresent s m = true → mayHand s m k = true → handBad s k (fld v 3 0) (fld v 15 12) = false →
      ∃ t, exec (.bankownWrite m k v) s = .next t ∧ guestOf t k = fld v 15 12 ∧ rf t (ownOff k) 3 0 = fld v 3 0 ∧ ownerOf t k = ownerOf s k ∧
        pendOf t k = decide (fld v 3 0 ≠ ownerOf s k) ∧ keepsRegs [ownOff k] s t ∧ ({ t with regs := s.regs } : State) = s) ∧
    (pendOf s k = true → ∃ t, exec (.handover k) s = .next t ∧ ownerOf t k = rf s (ownOff k) 3 0 ∧ pendOf t k = false ∧
      bit (reg t (0x60040 + 4 * k)).toNat 4 = true ∧ keepsRegs [ownOff k] s t ∧
      ({ t with regs := s.regs } : State).quiet = ({ count (bankCtr k 9) s with regs := s.regs } : State).quiet) ∧
    (pendOf s k = false → ∃ t, exec (.handover k) s = .next t ∧ t = s) ∧
    (∀ w, ∃ t, exec (.correctedWriteBack k w) s = .next t ∧ t.banks.fix.contains (wordKey k w) = false ∧ t.banks.mem = s.banks.mem ∧
      ({ t with banks := s.banks } : State) = s)

/-- The watchdog, a damaged frame and a machine check stop a sequencer. MACHINE_CHECK with a code of R310 on a present sequencer that is not
stopped leaves it STOPPED with nothing staged, pending or queued, its log valid with the code and the PC, and SQEVT.MCHK set; no command
that ran on it, but an ARM, is open any more. With any other code, on an absent or on a stopped sequencer, nothing happens. With WDT not 0,
a sequencer that runs a routine, of words or of a long command that its meaning carries out, and whose last commit point or start lies WDT
cycles back gets the WDOG trap pending, once; after a further WDT cycles it is stopped with code 6; before that time, and with no routine
running, nothing happens. TRAPRET in a handler whose home bank is not its own, or whose frame fails its check word, stops the sequencer with
code 5. (R306, R307, R309, R310, R311, R319.) -/
def Obligations.SequencerChecksStopIt : Prop :=
  ∀ (q : Nat) (s : State), Alive s →
    (∀ c, 1 ≤ c → c ≤ 7 → seqPresent s q = true → (sq s q).state ≠ .stopped →
      ∃ t, exec (.machineCheck q c) s = .next t ∧ (sq t q).state = .stopped ∧ (sq t q).pubs = [] ∧ (sq t q).pendTrap = [] ∧ (sq t q).queue = [] ∧
        bit (reg t (sqBase q + 8)).toNat 31 = true ∧ rf t (sqBase q + 8) 27 24 = c ∧ rf t (sqBase q + 8) 13 0 = (sq s q).pc % 16384 ∧
        bit (reg t (sqBase q + 4)).toNat 0 = true ∧
        ∀ d ∈ s.cmds, runsOn s d q = true → d.opcode ≠ opArm → ∀ k ∈ t.cmds, k.origin ≠ d.origin) ∧
    (∀ c, ¬ (1 ≤ c ∧ c ≤ 7) ∨ seqPresent s q = false ∨ (sq s q).state = .stopped → ∃ t, exec (.machineCheck q c) s = .next t ∧ t = s) ∧
    (runsLong s q = false → ∃ t, exec (.wdog q) s = .next t ∧ t = s) ∧
    (seqPresent s q = true → wdt s ≠ 0 → (sq s q).state ≠ .stopped → runsLong s q = true →
      (s.tb.time < (sq s q).sinceCmt + 64 * wdt s → ∃ t, exec (.wdog q) s = .next t ∧ t = s) ∧
      ((sq s q).sinceCmt + 64 * wdt s ≤ s.tb.time → (sq s q).wdogHit = false → (∀ p ∈ (sq s q).pendTrap, p.1 ≠ .wdog) →
        ∃ t, exec (.wdog q) s = .next t ∧ (sq t q).pendTrap = (sq s q).pendTrap ++ [(.wdog, 0)] ∧ (sq t q).wdogHit = true ∧
          (∀ k, k ≠ q → sq t k = sq s k) ∧ ({ t with seqs := s.seqs } : State) = s) ∧
      ((sq s q).sinceCmt + 128 * wdt s ≤ s.tb.time → (sq s q).wdogHit = true →
        ∃ t, exec (.wdog q) s = .next t ∧ (sq t q).state = .stopped ∧ rf t (sqBase q + 8) 27 24 = 6)) ∧
    (seqPresent s q = true → (sq s q).state = .handler →
      (frameOwned s q = false ∨ (∀ i, i < 64 → bankPoison s (seqBank q) (frameWord q + i) = false) ∧
        crc32c (((List.range 63).map fun i => (bankWord s (seqBank q) (frameWord q + i)).toNat).flatMap fun v => leBytes 8 v) ≠
          (bankWord s (seqBank q) (frameWord q + 63)).toNat % 2 ^ 32) →
      ∃ t, exec (.trapret q) s = .next t ∧ (sq t q).state = .stopped ∧ rf t (sqBase q + 8) 31 31 = 1 ∧ rf t (sqBase q + 8) 27 24 = 5)

/-- A cycle in which both ports write one word is a collision. For every access of a master that a port serves together with one that the
master of the other port makes to the same word in the same cycle: where both write, a fetch-add or swap counted as a write, the COLLIDE
counter of the bank has counted one more (to 0 with OVF from 2^48 - 1) and BNKEVTk.COLLIDE is set; where one of them reads, neither changes.
(R330.) -/
def Obligations.BothPortsWritingOneWordCollide : Prop :=
  ∀ (m u : BankUser) (k w : Nat) (v : W64) (op o2 : PortOp) (s : State) (owner : Bool), Alive s → k < 12 → w < bankWords → userPresent s m = true →
    portFor s m k w op = some owner → usesPort s (!owner) u k w o2 = true → o2 ≠ .read →
    (bankPoison s k w = false ∨ ∃ x, op = .write v ∧ o2 = .write x) →
    ∀ c, (c = .bankWrite m k w v (some (u, o2)) ∧ op = .write v) ∨ (m ≠ .host ∧ c = .fetchAdd m k w v (some (u, o2)) ∧ op = .fetchAdd v) ∨
        (m ≠ .host ∧ c = .swap m k w v (some (u, o2)) ∧ op = .swap v) →
    (∃ t, exec c s = .next t ∧ bit (reg t (0x60040 + 4 * k)).toNat 2 = true ∧
      tblGet t.ctrs (bankCtr k 5) { val := 0, ovf := false } =
        (if (tblGet s.ctrs (bankCtr k 5) { val := 0, ovf := false }).val + 1 = 2 ^ 48 then { val := 0, ovf := true }
          else { val := (tblGet s.ctrs (bankCtr k 5) { val := 0, ovf := false }).val + 1,
                 ovf := (tblGet s.ctrs (bankCtr k 5) { val := 0, ovf := false }).ovf })) ∧
    ∀ d, (d = .bankWrite m k w v (some (u, .read)) ∧ op = .write v) ∨ (m ≠ .host ∧ d = .fetchAdd m k w v (some (u, .read)) ∧ op = .fetchAdd v) ∨
        (m ≠ .host ∧ d = .swap m k w v (some (u, .read)) ∧ op = .swap v) →
      usesPort s (!owner) u k w .read = true →
      ∃ t, exec d s = .next t ∧ bit (reg t (0x60040 + 4 * k)).toNat 2 = bit (reg s (0x60040 + 4 * k)).toNat 2 ∧
        tblGet t.ctrs (bankCtr k 5) { val := 0, ovf := false } = tblGet s.ctrs (bankCtr k 5) { val := 0, ovf := false }

/-- Training goes from state to state, fails on its timeouts, and falls back on a loss of lock. A present link in SIGDET to TXEQ that meets
its exit condition (in FECLOCK, FEC lock) before its timeouts enters the next state; in ECHO with 64 replies it fails with cause 7, its
deskew as before, when the measured delay is beyond the limit of its latency class, and otherwise takes the measured delay and position and
enters CONFIRM in first training and RUN otherwise; in CONFIRM with the accepted ACK and the matching MARK it enters RUN and raises LINKUP,
or ECHO where it repeats training. A timeout that has run out leads to FAILED with the cause of the state; a loss of lock after CDR leads to
CDR. No other lane changes. (R34, R44, R47, R50, R51.) -/
def Obligations.LinkTrainingAdvances : Prop :=
  ∀ (n : Nat) (s : State), Alive s → linkPresent s n = true →
    (1 ≤ laneState s n → laneState s n ≤ 5 → trainingLate s n = false → (laneState s n = lnFeclock → 8 ≤ (lane s n).fecRun) →
      ∃ t, exec (.trainingStateExit n) s = .next t ∧ laneState t n = laneState s n + 1 ∧ lnCause t n = 0 ∧
      (∀ k, k ≠ n → lane t k = lane s k) ∧ keepsRegs [laneBase n + 0x10, laneBase n + 0x1C] s t ∧
      ({ t with regs := s.regs, lanes := s.lanes, fresh := s.fresh } : State) = s) ∧
    (laneState s n = lnEcho → (lane s n).echoes = 64 → trainingLate s n = false →
      (2048 * (latLimit (lnLatClass s n) : Int) < (lane s n).sumD32 → ∃ t, exec (.trainingStateExit n) s = .next t ∧ laneState t n = lnFailed ∧ lnCause t n = 7 ∧ bit (reg t (laneBase n + 0x14)).toNat 1 = true ∧ t.lanes = s.lanes ∧
        keepsRegs [laneBase n + 0x10] s t ∧ ({ t with regs := s.regs } : State).calm = s.calm) ∧
      ((lane s n).sumD32 ≤ 2048 * (latLimit (lnLatClass s n) : Int) → ∃ t, exec (.trainingStateExit n) s = .next t ∧ (lane t n).u2048 = (lane s n).sumU32 ∧ (lane t n).passedEcho = true ∧
        reg t (laneBase n + 0x20) = BitVec.ofNat 32 ((lane s n).sumD32 / 128).toNat ∧
        laneState t n = (if n < 128 ∧ (lane s n).retrain = false then lnConfirm else lnRun) ∧
        (∀ k, k ≠ n → lane t k = lane s k) ∧ keepsRegs [laneBase n + 0x10, laneBase n + 0x1C, laneBase n + 0x20] s t ∧
        ({ t with regs := s.regs, lanes := s.lanes } : State).quiet = s.quiet)) ∧
    (laneState s n = lnConfirm → (lane s n).ackOk = true → (lane s n).markOk = true → trainingLate s n = false →
      ∃ t, exec (.trainingStateExit n) s = .next t ∧ laneState t n = (if (lane s n).retrain then lnEcho else lnRun) ∧
      ((lane s n).retrain = false → bit (reg t (laneBase n + 0x14)).toNat 2 = true) ∧ (∀ k, k ≠ n → lane t k = lane s k) ∧
      keepsRegs [laneBase n + 0x10, laneBase n + 0x1C] s t ∧ ({ t with regs := s.regs, lanes := s.lanes } : State).quiet = s.quiet) ∧
    (inTraining s n = true → (tblGet (lane s n).stateAt (laneState s n) 0 + stateTimeout (laneState s n) * usTicks ≤ s.tb.time ∨
        (lane s n).trainStart + 60000 * usTicks ≤ s.tb.time) →
      ∃ t, exec (.trainingTimeout n) s = .next t ∧ laneState t n = lnFailed ∧ lnCause t n = (if laneState s n = lnConfirm then 8 else laneState s n) ∧
        bit (reg t (laneBase n + 0x14)).toNat 1 = true ∧ t.lanes = s.lanes ∧ keepsRegs [laneBase n + 0x10] s t ∧
        ({ t with regs := s.regs } : State).calm = s.calm) ∧
    (afterCdr s n = true → ∃ t, exec (.trainingLossOfLock n) s = .next t ∧ laneState t n = lnCdr ∧ bit (reg t (laneBase n + 0x14)).toNat 5 = true ∧
      (∀ k, k ≠ n → lane t k = lane s k) ∧ keepsRegs [laneBase n + 0x10] s t ∧ ({ t with regs := s.regs, lanes := s.lanes } : State).calm = s.calm)

/-- A wave ends when its lanes have left training; LINK_TRAIN ends with its last wave. With a lane of the wave still in training, or no
LINK_TRAIN, WAVE_END does nothing. After the last wave the command completes DONE with the lanes that FAILED, in X0, X1 and X2; with its
abort flag set it completes ABORTED with them after any wave; otherwise the next wave begins with its lanes in SIGDET. (R45, R308, R402.) -/
def Obligations.WavesOfTrainingEnd : Prop :=
  ∀ (s : State), Alive s →
    (s.train = none → ∃ t, exec .waveEnd s = .next t ∧ t = s) ∧
    ∀ w, s.train = some w →
      (w.cur.any (inTraining s) = true → ∃ t, exec .waveEnd s = .next t ∧ t = s) ∧
      ∀ k f, w.cur.any (inTraining s) = false → Tellable s w.origin k → f = w.failed ++ w.cur.filter (fun n => laneState s n == lnFailed) →
        (k.abort = false → w.waves = [] → ∃ t, exec .waveEnd s = .next t ∧ t.train = none ∧
          Ended w.origin k stDone (laneBitmap f 0 64) (laneBitmap f 64 64) (laneBitmap f 128 4) s t ∧ BesideEnd w.origin s { t with train := s.train }) ∧
        (k.abort = true → ∃ t, exec .waveEnd s = .next t ∧ t.train = none ∧
          Ended w.origin k stAborted (laneBitmap f 0 64) (laneBitmap f 64 64) (laneBitmap f 128 4) s t ∧ BesideEnd w.origin s { t with train := s.train }) ∧
        ∀ v rest, k.abort = false → w.waves = v :: rest → ∃ t, exec .waveEnd s = .next t ∧ t.train = some { origin := w.origin, waves := rest, cur := v, failed := f } ∧ (∀ n ∈ v, laneState t n = lnSigdet) ∧
          (∀ n, n ∉ v → lane t n = lane s n) ∧ BesideEnd w.origin s { t with train := s.train, regs := s.regs, lanes := s.lanes }

/-- Errors, loss of lock in RUN, and the fast resume. The first and second uncorrectable codeword in a row are counted and reported and
leave the state of the link; the third in RUN, and a CDR unlock in RUN, are a loss of lock: with AUTORES the lane enters RESUME, else DOWN
with cause 0xB and LINKDOWN; the third in a training state after CDR leads to CDR; while lock is sought one only ends the run of decodable
codewords. The first good SAMPLE frame in RESUME with FEC lock again, before the DOWN timeout, leads to RUN and raises RESUMED; the DOWN
timeout in RESUME leads to DOWN with cause 0xA and LINKDOWN. No other lane changes. (R34, R44, R53, R54, R56.) -/
def Obligations.LossOfLockAndFastResume : Prop :=
  ∀ (n : Nat) (s : State), Alive s → linkPresent s n = true →
    (rxLocked s n = true → (lane s n).uncorr < 2 → ∃ t, exec (.uncorrectableCodeword n) s = .next t ∧ laneState t n = laneState s n ∧
      (lane t n).uncorr = (lane s n).uncorr + 1 ∧ bit (reg t (laneBase n + 0x14)).toNat 0 = true ∧ (∀ k, k ≠ n → lane t k = lane s k) ∧
      keepsRegs [] s t ∧ ({ t with lanes := s.lanes } : State).calm = s.calm) ∧
    (rxLocked s n = true → afterCdr s n = true → (lane s n).uncorr = 2 → ∃ t, exec (.uncorrectableCodeword n) s = .next t ∧ laneState t n = lnCdr ∧
      bit (reg t (laneBase n + 0x14)).toNat 5 = true ∧ (∀ k, k ≠ n → lane t k = lane s k) ∧
      keepsRegs [laneBase n + 0x10] s t ∧ ({ t with regs := s.regs, lanes := s.lanes } : State).calm = s.calm) ∧
    (seeksLock s n = true → ∃ t, exec (.uncorrectableCodeword n) s = .next t ∧ lane t n = { lane s n with fecRun := 0 } ∧
      (∀ k, k ≠ n → lane t k = lane s k) ∧ ({ t with lanes := s.lanes } : State) = s) ∧
    (laneState s n = lnRun → ∃ t, exec (.lossOfLock n) s = .next t ∧ laneState t n = (if lnAutores s n then lnResume else lnDown) ∧ bit (reg t (laneBase n + 0x14)).toNat 5 = true ∧
      (lnAutores s n = true → (lane t n).lossAt = s.tb.time) ∧
      (lnAutores s n = false → lnCause t n = 0xB ∧ bit (reg t (laneBase n + 0x14)).toNat 3 = true) ∧
      (∀ k, k ≠ n → lane t k = lane s k) ∧ keepsRegs [laneBase n + 0x10] s t ∧ ({ t with regs := s.regs, lanes := s.lanes } : State).calm = s.calm) ∧
    (laneState s n = lnRun → (lane s n).uncorr = 2 → ∃ t, exec (.uncorrectableCodeword n) s = .next t ∧ laneState t n = (if lnAutores s n then lnResume else lnDown) ∧ bit (reg t (laneBase n + 0x14)).toNat 5 = true ∧
      (lnAutores s n = true → (lane t n).lossAt = s.tb.time) ∧
      (lnAutores s n = false → lnCause t n = 0xB ∧ bit (reg t (laneBase n + 0x14)).toNat 3 = true) ∧
      (∀ k, k ≠ n → lane t k = lane s k) ∧ keepsRegs [laneBase n + 0x10] s t ∧ ({ t with regs := s.regs, lanes := s.lanes } : State).calm = s.calm) ∧
    (∀ f, laneState s n = lnResume → rxLocked s n = true → resumeLate s n = false → frType f = tySample → f.wrong ≤ 15 →
      ∃ t, exec (.resumed n f) s = .next t ∧ laneState t n = lnRun ∧ bit (reg t (laneBase n + 0x14)).toNat 4 = true ∧
      (lane t n).lastSeq = some (frSeq f) ∧ (∀ k, k ≠ n → lane t k = lane s k) ∧ keepsRegs [laneBase n + 0x10, laneBase n + 0x1C] s t ∧
      (n < 130 → t.au.rxq = s.au.rxq) ∧ ({ t with regs := s.regs, lanes := s.lanes, au := s.au } : State).calm = s.calm) ∧
    (laneState s n = lnResume → (lane s n).lossAt + downTimeout (lnLatClass s n) * usTicks ≤ s.tb.time →
      ∃ t, exec (.resumetimeout n) s = .next t ∧ laneState t n = lnDown ∧ lnCause t n = 0xA ∧ bit (reg t (laneBase n + 0x14)).toNat 3 = true ∧
        t.lanes = s.lanes ∧ keepsRegs [laneBase n + 0x10] s t ∧ ({ t with regs := s.regs } : State).calm = s.calm)

/-- What a link does with each frame that it receives. On a link with FEC lock and a codeword of at most 15 wrong symbols: in RUN a SAMPLE
frame continues the positions of the lane behind the frames that its SEQ shows missing, and its words become samples with their stamps, on a
cascade lane its event entries wait to be applied; in a repeat of ECHO or CONFIRM its place is followed; a MARK in RUN that names another
position takes the lane DOWN with cause 9; in CONFIRM a MARK places the lane, and counts when it names the active format; a FORMAT_ACK of
status 0 for the active format counts, another status fails a lane that repeats CONFIRM; in ECHO a reply enters the sums, in RUN one that is
far off raises DSKDRIFT and moves nothing; a TXEQ_REQ in TXEQ sets the transmitter and is answered, an ACK there is followed by a further
request; a pass-through frame fills the empty receive buffer and is dropped by a full one; IDLE frames, frames of a reserved type, other
CONTROL frames and ACKs elsewhere change only counters, ATTN and the run of uncorrectable codewords. While lock is sought a decodable
codeword only counts toward it. No other lane changes. (R34, R36, R37, R38, R41, R44, R47, R51, R52, R61, R62, R123.) -/
def Obligations.ReceivedFramesAreUsed : Prop :=
  ∀ (n : Nat) (f : RxFrame) (s : State), Alive s → linkPresent s n = true → f.wrong ≤ 15 →
    (seeksLock s n = true →
      (frType f = tyIdle → ∃ t, exec (.idleFrame n f) s = .next t ∧ lane t n = { lane s n with fecRun := (lane s n).fecRun + 1 } ∧
        (∀ k, k ≠ n → lane t k = lane s k) ∧ ({ t with lanes := s.lanes } : State) = s) ∧
      (frType f = tySample → ∃ t, exec (.sample n f) s = .next t ∧ lane t n = { lane s n with fecRun := (lane s n).fecRun + 1 } ∧
        (∀ k, k ≠ n → lane t k = lane s k) ∧ ({ t with lanes := s.lanes } : State) = s)) ∧
    (rxLocked s n = true →
      (frType f = tyIdle → ∃ t, exec (.idleFrame n f) s = .next t ∧ Heard n f s t) ∧
      (isControl 4 f = true → laneState s n ≠ lnTxeq → ∃ t, exec (.txeqAck n f) s = .next t ∧ Heard n f s t) ∧
      (isControl 4 f = true → laneState s n = lnTxeq → ∃ t, exec (.txeqAck n f) s = .next t ∧ Queued n 3 s t ∧ t.fresh = s.fresh + 1 ∧
        ∀ k, k ≠ n → lane t k = lane s k) ∧
      (isControl 3 f = true → laneState s n ≠ lnTxeq → ∃ t, exec (.txeqReq n f) s = .next t ∧ Heard n f s t) ∧
      (isControl 3 f = true → laneState s n = lnTxeq → ∃ t, exec (.txeqReq n f) s = .next t ∧ Queued n 4 s t ∧
        (lane t n).txeq.preset = frData f 0 % 16 ∧ t.fresh = s.fresh + 1 ∧ ∀ k, k ≠ n → lane t k = lane s k) ∧
      (5 ≤ frType f → ∃ t, exec (.reservedTypeFrame n f) s = .next t ∧ lane t n = { lane s n with uncorr := 0 } ∧ (∀ k, k ≠ n → lane t k = lane s k) ∧
        keepsRegs [] s t ∧ ({ t with lanes := s.lanes } : State).quiet = (count (laneCtr n 9) (if 0 < f.wrong
          then countN f.wrong (laneCtr n 2) (count (laneCtr n 1) (count (laneCtr n 0) s)) else count (laneCtr n 0) s)).quiet) ∧
      (∀ p, frType f = tySample → laneState s n = lnRun → n < 128 → p = (lane s n).nextPos + missingBefore (lane s n) (frSeq f) * framePos s n →
        ∃ t, exec (.sample n f) s = .next t ∧ (lane t n).nextPos = p + framePos s n ∧ (lane t n).lastSeq = some (frSeq f) ∧
          (∃ l, (lane t n).samples = l ++ (frameSamples (posStamp s n) (lnAdiv s n) p (lane s n).rep (frameWords s n f.payload)).1) ∧
          laneState t n = lnRun ∧ (∀ k, k ≠ n → lane t k = lane s k) ∧ keepsRegs [laneBase n + 0x10, laneBase n + 0x1C] s t ∧
          ({ t with regs := s.regs, lanes := s.lanes } : State).calm = s.calm) ∧
      (frType f = tySample → laneState s n = lnRun → 128 ≤ n → ∃ t, exec (.sample n f) s = .next t ∧ (lane t n).lastSeq = some (frSeq f) ∧
        t.au = { s.au with rxq := s.au.rxq ++ if 130 ≤ n then frameEntries f.payload else [] } ∧ (∀ k, k ≠ n → lane t k = lane s k) ∧
        keepsRegs [] s t ∧ ({ t with lanes := s.lanes, au := s.au } : State).calm = s.calm) ∧
      (∀ p, frType f = tySample → laneState s n = lnEcho ∨ laneState s n = lnConfirm → (lane s n).placed = true →
        p = (lane s n).nextPos + missingBefore (lane s n) (frSeq f) * framePos s n →
        ∃ t, exec (.sample n f) s = .next t ∧ (lane t n).nextPos = p + framePos s n ∧ (lane t n).lastSeq = some (frSeq f) ∧
          (lane t n).samples = (lane s n).samples ∧ laneState t n = laneState s n ∧ ∀ k, k ≠ n → lane t k = lane s k) ∧
      (frType f = tyMark → laneState s n = lnRun → n < 128 → expectedPos s n (frSeq f) % 2 ^ 48 ≠ memLE f.payload 0 6 →
        ∃ t, exec (.markFrame n f) s = .next t ∧ laneState t n = lnDown ∧ lnCause t n = 9 ∧ bit (reg t (laneBase n + 0x14)).toNat 3 = true ∧
          ∀ j, j ≠ n → lane t j = lane s j) ∧
      (frType f = tyMark → laneState s n = lnRun → n < 128 → expectedPos s n (frSeq f) % 2 ^ 48 = memLE f.payload 0 6 →
        ∃ t, exec (.markFrame n f) s = .next t ∧ Heard n f s t) ∧
      (frType f = tyMark → laneState s n = lnConfirm → n < 128 → ∃ t, exec (.markFrame n f) s = .next t ∧ (lane t n).nextPos = memLE f.payload 0 6 ∧ (lane t n).placed = true ∧ (lane t n).lastSeq = some ((frSeq f + 4095) % 4096) ∧
        (lane t n).markOk = ((lane s n).markOk || decide ((memGet f.payload 6).toNat = lnAfmt s n ∧ (memGet f.payload 7).toNat = lnAdiv s n)) ∧
        laneState t n = lnConfirm ∧ ∀ j, j ≠ n → lane t j = lane s j) ∧
      (isControl 2 f = true → laneState s n = lnConfirm → frData f 0 = lnAfmt s n → frData f 1 = lnAdiv s n → frData f 2 = 0 →
        ∃ t, exec (.formatAck n f) s = .next t ∧ (lane t n).ackOk = true ∧ laneState t n = lnConfirm ∧ ∀ j, j ≠ n → lane t j = lane s j) ∧
      (isControl 2 f = true → laneState s n = lnConfirm → frData f 2 ≠ 0 → (lane s n).retrain = true → ∃ t, exec (.formatAck n f) s = .next t ∧ laneState t n = lnFailed ∧ lnCause t n = 8 ∧ bit (reg t (laneBase n + 0x14)).toNat 1 = true ∧ ∀ j, j ≠ n → lane t j = lane s j) ∧
      (isControl 2 f = true → laneState s n ≠ lnConfirm → ∃ t, exec (.formatAck n f) s = .next t ∧ Heard n f s t) ∧
      (∀ i x, frType f = tyEcho → x = echoOf f i → laneState s n = lnEcho → (lane s n).echoes < 64 → ∃ t, exec (.echoReply n f i) s = .next t ∧ (lane t n).echoes = (lane s n).echoes + 1 ∧ (lane t n).sumD32 = (lane s n).sumD32 + echoD32 x ∧
        (lane t n).sumU32 = (lane s n).sumU32 + echoU32 s n x ∧ ∀ j, j ≠ n → lane t j = lane s j) ∧
      (∀ i, frType f = tyEcho → laneState s n = lnRun → ∃ t, exec (.echoReply n f i) s = .next t ∧ Heard n f s t ∧
        (echoFar s n (echoOf f i) = true → bit (reg t (laneBase n + 0x14)).toNat 6 = true)) ∧
      (frType f = tyControl → 0x8000 ≤ frCcode f → n < 128 → rf s (laneBase n + 0x24) 30 30 = 0 → ∃ t, exec (.passThroughFrame n f) s = .next t ∧ (lane t n).rxBuf = payload640 f.payload ∧ rf t (laneBase n + 0x24) 30 30 = 1 ∧ (∀ j, j ≠ n → lane t j = lane s j) ∧
        keepsRegs [laneBase n + 0x10, laneBase n + 0x24] s t) ∧
      (frType f = tyControl → 0x8000 ≤ frCcode f → n < 128 → rf s (laneBase n + 0x24) 30 30 = 1 → ∃ t, exec (.passThroughFrame n f) s = .next t ∧ Heard n f s t) ∧
      (frType f = tyControl → frCcode f < 0x8000 → [2, 3, 4].contains (frCcode f) = false → ∃ t, exec (.passThroughFrame n f) s = .next t ∧ Heard n f s t))

/-- ECHO and mailbox frames, and the writes of LANEMBX, LANECOMMIT and LANECTL. ECHO_SEND with an ECHO due takes the codeword slot that
begins and sends the ECHO with the tick of the slot and its number; TXGO on an idle mailbox with a pass-through code orders its frame and
MAILBOX_SEND in RUN or CONFIRM, with nothing before it, sends it and clears TXGO; RXACK empties the receive buffer. With nothing armed and
no PLAN_ADMIT running, LANECOMMIT of an agreeing format makes the staged format active and one of a disagreeing format is refused with
CFGREJ, and LANECTL sets EN, taking a lane that it disables to DISABLED and a DISABLED lane that it enables to DOWN; armed, both are refused
with CFGREJ and a bus error. No other lane changes. (R13, R51, R58, R61, R347, R349, R404.) -/
def Obligations.LanesTransmitAndAreSet : Prop :=
  ∀ (n : Nat) (s : State), Alive s →
    (linkPresent s n = true → slotOpen s n = true → echoDue s n = true → ∃ t, exec (.echoSend n) s = .next t ∧ t.sent = (n, .echo (lane s n).ctrlSeq (slotTick s n) (lane s n).echoNum) :: s.sent ∧
      (lane t n).echoNum = ((lane s n).echoNum + 1) % 65536 ∧ (lane t n).txSlots = 0 ∧ (∀ k, k ≠ n → lane t k = lane s k) ∧
      ({ t with lanes := s.lanes, sent := s.sent } : State).quiet = (count (laneCtr n 10) s).quiet) ∧
    (∀ v, s.pcie.memSpace = true → n < laneCount s → bit v.toNat 31 = true → bit v.toNat 29 = false → rf s (laneBase n + 0x24) 31 31 = 0 →
      0x8000 ≤ memLE (lane s n).txBuf 0 2 → ∃ t, exec (.txgo n v) s = .next t ∧ rf t (laneBase n + 0x24) 31 31 = 1 ∧
        keepsRegs [laneBase n + 0x24] s t ∧ ({ t with regs := s.regs } : State) = s) ∧
    (∀ v, s.pcie.memSpace = true → n < laneCount s → bit v.toNat 31 = false → bit v.toNat 29 = true → ∃ t, exec (.rxack n v) s = .next t ∧ rf t (laneBase n + 0x24) 30 30 = 0 ∧ keepsRegs [laneBase n + 0x24] s t ∧ ({ t with regs := s.regs } : State) = s) ∧
    (n < laneCount s → rf s (laneBase n + 0x24) 31 31 = 1 → laneState s n = lnRun ∨ laneState s n = lnConfirm → slotOpen s n = true →
      echoDue s n = false → (lane s n).txq = [] → ∃ t, exec (.mailboxSend n) s = .next t ∧ t.sent = (n, .control (lane s n).ctrlSeq (memLE (lane s n).txBuf 0 2) (lane s n).txBuf) :: s.sent ∧ rf t (laneBase n + 0x24) 31 31 = 0 ∧
      (lane t n).ctrlSeq = ((lane s n).ctrlSeq + 1) % 4096 ∧ (∀ k, k ≠ n → lane t k = lane s k) ∧ keepsRegs [laneBase n + 0x24] s t ∧
      ({ t with regs := s.regs, lanes := s.lanes, sent := s.sent } : State) = s) ∧
    (∀ v, s.pcie.memSpace = true → n < laneCount s → bit v.toNat 0 = true → armed s = false → admitting s = false →
      fmtAgrees (reg s (laneBase n)) (reg s (laneBase n + 4)) = true →
      ∃ t, exec (.lanecommit n v) s = .next t ∧ lnAfmt t n = lnFmt s n ∧ lnAdiv t n = lnDiv s n ∧
        laneState t n = (if laneState s n = lnRun ∧ ¬ (lnAfmt s n = lnFmt s n ∧ lnAdiv s n = lnDiv s n) then lnConfirm else laneState s n) ∧
        (∀ k, k ≠ n → lane t k = lane s k) ∧ keepsRegs [laneBase n + 0x10] s t ∧ ({ t with regs := s.regs, lanes := s.lanes } : State) = s) ∧
    (∀ v, s.pcie.memSpace = true → n < laneCount s → bit v.toNat 0 = true → armed s = false → admitting s = false →
      fmtAgrees (reg s (laneBase n)) (reg s (laneBase n + 4)) = false →
      ∃ t, exec (.lanecommit n v) s = .next t ∧ bit (reg t 0x18).toNat 0 = true ∧ t.quiet = s.quiet) ∧
    (∀ v, s.pcie.memSpace = true → n < laneCount s → bit v.toNat 0 = true → armed s = true ∨ admitting s = true →
      ∃ t, exec (.lanecommit n v) s = .next t ∧ bit (reg t 0x18).toNat 0 = true ∧ bit (reg t 0x18000).toNat 0 = true ∧ t.calm = s.calm) ∧
    (∀ v, s.pcie.memSpace = true → linkPresent s n = true → armed s = false → ∃ t, exec (.lanectlWrite n v) s = .next t ∧ lnEn t n = bit v.toNat 0 ∧
      laneState t n = (if bit v.toNat 0 = false then lnDisabled else if laneState s n = lnDisabled then lnDown else laneState s n) ∧
      (∀ k, k ≠ n → lane t k = lane s k) ∧ keepsRegs [laneBase n + 8, laneBase n + 0x10] s t ∧
      ({ t with regs := s.regs, lanes := s.lanes } : State) = s) ∧
    (∀ v, s.pcie.memSpace = true → linkPresent s n = true → armed s = true → ∃ t, exec (.lanectlWrite n v) s = .next t ∧ bit (reg t 0x18).toNat 0 = true ∧ bit (reg t 0x18000).toNat 0 = true ∧ t.calm = s.calm)

/-- The timebase goes through its states. FIRST_LOCK in INITIAL leads to LOCKED with the counter at 0, REFOK, both fabric PLLs locked and
TBEVT.LOCKED; a loss of lock in LOCKED or REACQUIRE, or a missing reference there or in WAITHOST, with no step ordered, leads to ECLIPSE
with its cause, no REFOK and TBEVT.ECLIPSE, and a missing reference in ECLIPSE before WAITHOST begins the 1 ms anew; 1 ms of valid reference
in ECLIPSE leads to REACQUIRE with the offset in TBOFFSET and a slew of at most 10 ppm when the offset lies in the window, and else to
WAITHOST with its event; OFFSET renews TBOFFSET at each millisecond of WAITHOST; LOCKED in REACQUIRE, with a residual of at most 1/16 tick,
leads to LOCKED with no slew. Beside the timebase, its registers and the records of the streams only event bits, counters and logs change
(and, at FIRST_LOCK, whether the engine is ready). (R64, R66, R73, R74, R77, R405.) -/
def Obligations.TimebaseChangesState : Prop :=
  ∀ s : State, Alive s →
    (tbState s = tbInitial → ∃ t, exec .firstLock s = .next t ∧ tbState t = tbLocked ∧ t.tb.tick = 0 ∧ rf t 0x4001C 26 26 = 1 ∧ rf t 0x40044 1 0 = 3 ∧
      bit (reg t 0x40020).toNat 2 = true ∧ keepsRegs [0x4001C, 0x40044] s t ∧
      ({ t with regs := s.regs, tb := s.tb, pcie := { t.pcie with ready := s.pcie.ready } } : State).quiet = s.quiet) ∧
    (∀ c, tbState s = tbLocked ∨ tbState s = tbReacquire ∨ c = .refLoss ∧ tbState s = tbEclipse ∧ waitHost s = true → s.tb.order = none →
      ∃ t, exec (.eclipse c) s = .next t ∧ tbState t = tbEclipse ∧
      rf t 0x4001C 25 24 = eclipseCode c ∧ rf t 0x4001C 26 26 = 0 ∧ waitHost t = false ∧ t.tb.lastEclipse = s.tb.tick ∧ t.tb.eclipseAt = s.tb.time ∧
      bit (reg t 0x40020).toNat 0 = true ∧ keepsRegs [0x4001C, 0x40028] s t ∧ ({ t with regs := s.regs, tb := s.tb } : State).calm = s.calm) ∧
    (tbState s = tbEclipse → waitHost s = false → s.tb.order = none → ∃ t, exec (.eclipse .refLoss) s = .next t ∧ t = { s with tb := { s.tb with eclipseAt := s.tb.time } }) ∧
    (∀ d, tbState s = tbEclipse → waitHost s = false → s.tb.eclipseAt + 1000 * usTicks ≤ s.tb.time → (measured d s).natAbs < 2 ^ 31 →
      ∃ t, exec (.referenceValid d) s = .next t ∧ tbOffset t = measured d s ∧ rf t 0x4001C 26 26 = 1 ∧
        (inWindow (measured d s) s = true → tbState t = tbReacquire ∧ (ofField 16 (rf t 0x40028 15 0)).natAbs ≤ 1000) ∧
        (inWindow (measured d s) s = false → tbState t = tbEclipse ∧ waitHost t = true ∧ t.tb.offsetAt = s.tb.time ∧
          bit (reg t 0x40020).toNat 1 = true) ∧
        keepsRegs [0x4001C, 0x40024, 0x40028] s t ∧
        ({ t with regs := s.regs, fresh := s.fresh, tb := { t.tb with offsetAt := s.tb.offsetAt } } : State).calm = s.calm) ∧
    (∀ d, tbState s = tbEclipse → waitHost s = true → s.tb.offsetAt + 1000 * usTicks ≤ s.tb.time → (measured d s).natAbs < 2 ^ 31 →
      ∃ t, exec (.offset d) s = .next t ∧ tbOffset t = measured d s ∧ t.tb = { s.tb with offsetAt := s.tb.offsetAt + 1000 * usTicks } ∧
        keepsRegs [0x40024] s t ∧ ({ t with regs := s.regs, tb := s.tb } : State) = s) ∧
    (∀ d, tbState s = tbReacquire → d.natAbs ≤ 1 → ∃ t, exec (.locked d) s = .next t ∧ tbState t = tbLocked ∧ rf t 0x40028 15 0 = 0 ∧
      bit (reg t 0x40020).toNat 2 = true ∧ keepsRegs [0x4001C, 0x40028] s t ∧ ({ t with regs := s.regs, tb := s.tb } : State).calm = s.calm)

/-- The fabric PLLs switch over, lose lock and relock. When the active PLL loses lock, a locked standby takes over under AUTOSW with
TBEVT.FSWITCH; without one the fabric clock is lost from the slice of the counter on, with TBEVT.FLOCKLOSS. RELOCK ends the loss with the
failed PLL locked; STANDBY_PLL_RELOCK locks the standby. A loss of 20 µs with neither PLL locked ends the engine, which from then on does
nothing; with nothing armed and no journal write on its way nothing else changes. (R66, R70, R71.) -/
def Obligations.FabricClockIsLostAndFound : Prop :=
  ∀ s : State, Alive s →
    (canSwitch s = true → pllLocked s (pllAct s) = true → s.tb.fabLost = none → ∃ t, exec .fswitch s = .next t ∧ pllAct t = 1 - pllAct s ∧
      pllLocked t (pllAct s) = false ∧ pllLocked t (pllAct t) = true ∧ bit (reg t 0x40020).toNat 5 = true ∧ keepsRegs [0x40044] s t ∧
      ({ t with regs := s.regs } : State).calm = s.calm) ∧
    (canSwitch s = false → pllLocked s (pllAct s) = true → s.tb.fabLost = none → ∃ t, exec .flockloss s = .next t ∧ t.tb = { s.tb with fabLost := some (32 * (s.tb.tick / 32)), fabAt := s.tb.time } ∧ pllLocked t (pllAct s) = false ∧ pllAct t = pllAct s ∧
      bit (reg t 0x40020).toNat 6 = true ∧ keepsRegs [0x40044] s t ∧ ({ t with regs := s.regs, tb := s.tb } : State).calm = s.calm) ∧
    (∀ a, s.tb.fabLost = some a → ∃ t, exec .relock s = .next t ∧ t.tb = { s.tb with fabLost := none } ∧ pllLocked t (pllAct s) = true ∧
      keepsRegs [0x40044] s t ∧ ({ t with regs := s.regs, tb := s.tb, lanes := s.lanes, au := s.au } : State) = s) ∧
    (∃ t, exec .standbyPllRelock s = .next t ∧ pllLocked t (1 - pllAct s) = true ∧ pllAct t = pllAct s ∧
      keepsRegs [0x40044] s t ∧ ({ t with regs := s.regs } : State) = s) ∧
    (∀ a, s.tb.fabLost = some a → s.tb.fabAt + 1024000 ≤ s.tb.time → pllLocked s 0 = false → pllLocked s 1 = false →
      ∃ t, exec .fabricClockMachineCheck s = .next t ∧ t.tb.dead = true ∧
      (armed s = false → (∀ p ∈ s.dram.subs, ∀ r ∈ p.2.reqs, journalOf r = none) → t = { s with tb := { s.tb with dead := true } }))

/-- CONJUNCTION pulses, takes the counter at the edge and ends with its hop or timeout. Position 0 drives SYNC_OUT high 100 µs after
acceptance. The edge gives the counter the CONJ_T of the command (in LC0512 phase mode the value of R83) and writes the ring position; lanes
in RUN keep their state, and their samples from before are gone. Once step 5 has ended, in a ring of more than one, the hop of the right
position completes the command DONE (ABORTED under an abort) with both delays in the registers and results, and one of the wrong position
with CHECK_FAIL 2. CONJUNCTION_TIMEOUT completes it with CHECK_FAIL and its cause: 1 without an edge 100 ms after acceptance, 2 when the hop
may begin, 3 when 2 ms of the hop have passed. TBEVT.CONJ tells of each end. (R81, R82, R83, R402.) -/
def Obligations.ConjunctionRuns : Prop :=
  ∀ (s : State) (c : Conj), Alive s → s.tb.conj = some c →
    (c.p = 0 → c.phase = .armed → c.start + 100 * usTicks ≤ s.tb.time → ∃ t, exec .syncOut s = .next t ∧ t.tb.conj = some { c with phase := .pulsed } ∧
      syncOutPin t = true ∧ ({ t with tb := s.tb } : State) = s) ∧
    (c.p = 0 ∧ c.phase = .pulsed ∨ c.p ≠ 0 ∧ c.phase = .armed → c.p < 16 → 1 ≤ c.n → c.n ≤ 16 → ∀ x, ∃ t, exec (.syncIn x) s = .next t ∧ t.tb = { s.tb with tick := conjTick c x s, conj := some { c with phase := .aligned } } ∧
      (s.tb.act.mode = false → t.tb.tick = c.conjT) ∧ rf t 0x40050 31 28 = c.p ∧ ringSize t = c.n ∧
      (∀ n, lane t n = { lane s n with samples := [], miss := [] }) ∧ keepsRegs [0x40050] s t ∧
      ({ t with regs := s.regs, tb := s.tb, lanes := s.lanes } : State) = s) ∧
    ∀ k, Tellable s c.origin k →
      (c.phase = .aligned → 1 < c.n → c.hopAt.isSome = true →
        (∀ d16 up, ∃ t, exec (.cascadeHop d16 ((c.p + 1) % c.n) up) s = .next t ∧ t.tb.conj = none ∧
          Ended c.origin k (if k.abort then stAborted else stDone) ((BitVec.ofNat 32 (ceilDiv d16 16)).setWidth 64) ((BitVec.ofNat 32 up).setWidth 64) 0 s t ∧
          reg t 0x40054 = BitVec.ofNat 32 (ceilDiv d16 16) ∧ reg t 0x40058 = BitVec.ofNat 32 up ∧ (k.abort = false → rf t 0x4001C 22 22 = 1) ∧
          bit (reg t 0x40020).toNat 4 = true ∧ keepsRegs [0x4001C, 0x40054, 0x40058] s t ∧ BesideEnd c.origin s { t with regs := s.regs, tb := s.tb }) ∧
        (∀ d16 pos up, pos ≠ (c.p + 1) % c.n → ∃ t, exec (.cascadeHop d16 pos up) s = .next t ∧ t.tb.conj = none ∧
          Ended c.origin k stCheckFail 2 0 0 s t ∧ bit (reg t 0x40020).toNat 4 = true ∧ keepsRegs [] s t ∧ BesideEnd c.origin s { t with tb := s.tb })) ∧
      ∀ w, (w = 1 ∧ c.phase ≠ .aligned ∧ c.start + 100000 * usTicks ≤ s.tb.time ∨
          c.phase = .aligned ∧ 1 < c.n ∧ ∃ h, c.hopAt = some h ∧ (w = 2 ∨ w = 3 ∧ h + 2000 * usTicks ≤ s.tb.time)) →
        ∃ t, exec (.conjunctionTimeout w) s = .next t ∧ t.tb.conj = none ∧ Ended c.origin k stCheckFail (BitVec.ofNat 64 w) 0 0 s t ∧
          bit (reg t 0x40020).toNat 4 = true ∧ keepsRegs [] s t ∧ BesideEnd c.origin s { t with tb := s.tb }

/-- A step moves the counter at its slice boundary. TIMEBASE_REALIGN in WAITHOST, as a slew or with an offset that rounds to no slice, leads
to REACQUIRE at once with the slew of its rate and completes with the counter, 0 and the offset; as a step it is ordered, and its command
stays open. At the first slice boundary after the acceptance STEP adds whole slices to the counter, leads to REACQUIRE and completes the
command with the counter before, the step and the offset; settings that were committed meanwhile take effect behind it. At any other time
STEP does nothing. (R74, R78, R79, R246, R247, R249, R298, R407.) -/
def Obligations.RealignStepsTheCounter : Prop :=
  (∀ r e s, Granted r opTimebaseRealign e [homeOf opTimebaseRealign] s → (pn e.p0 = 1 ∨ pn e.p0 = 2 ∧ stepSize (tbOffset s) = 0) →
      1 ≤ pn e.p1 → pn e.p1 ≤ 100 → waitHost s = true → s.tb.order = none →
      ∃ t, exec (.timebaseRealign r e) s = .next t ∧ tbState t = tbReacquire ∧ waitHost t = false ∧
        ofField 16 (rf t 0x40028 15 0) = signOf (tbOffset s) * (100 * pn e.p1 : Nat) ∧
        Done r e.tag stDone (BitVec.ofNat 64 s.tb.tick) 0 (w64i (tbOffset s)) s t ∧ keepsRegs [0x4001C, 0x40028] s t ∧
        Beside (homeNow s opTimebaseRealign e) s { t with regs := s.regs }) ∧
    (∀ r e s, Granted r opTimebaseRealign e [homeOf opTimebaseRealign] s → pn e.p0 = 2 → stepSize (tbOffset s) ≠ 0 →
      (anyActive s = true → 0 < stepSize (tbOffset s)) → 1 ≤ pn e.p1 → pn e.p1 ≤ 100 → waitHost s = true → s.tb.order = none →
      ∃ t, exec (.timebaseRealign r e) s = .next t ∧ (∃ o, t.tb = { s.tb with order := some o } ∧ o.origin = s.jr.next ∧ o.accepted = s.tb.tick ∧
          o.ds = stepSize (tbOffset s) ∧ o.delta16 = tbOffset s ∧ o.rate = pn e.p1) ∧
        Pends r opTimebaseRealign e.tag s t ∧ Beside (homeNow s opTimebaseRealign e) s { t with tb := s.tb }) ∧
    (∀ s o k, Alive s → s.tb.order = some o → Tellable s o.origin k →
      (s.tb.tick ≠ 32 * (o.accepted / 32) + 32 → ∃ t, exec .step s = .next t ∧ t = s) ∧
      (s.tb.tick = 32 * (o.accepted / 32) + 32 → ∃ t, exec .step s = .next t ∧ t.tb.tick = (((s.tb.tick : Int) + o.ds) % (2 ^ 64 : Nat)).toNat ∧ t.tb.order = none ∧ t.tb.later = none ∧ t.tb.time = s.tb.time ∧
        (s.tb.later = none → tbState t = tbReacquire ∧ waitHost t = false) ∧ (∀ v, s.tb.later = some v → t.tb.act = v) ∧
        bit (reg t 0x40020).toNat 3 = true ∧ Ended o.origin k stDone (BitVec.ofNat 64 s.tb.tick) (w64i o.ds) (w64i o.delta16) s t ∧
        keepsRegs [0x4001C, 0x40028] s t))

/-- The automata evaluate their slice, and its consequences fall due. While no capture is evaluated, its next slice is not reached, or the
fabric clock is lost, SLICE_EVALUATION only samples the TRIG_IN balls of the slice, once. With a capture and the counter at or past the next
slice it evaluates that slice: 32 gates are on record for it, TASTAT and TATICK of each automaton show its state at the first tick of the
slice, and with no parity error on a line the slice is the last one evaluated. TALLY_COMPLETION completes a unit that has counted to its
threshold; TIMER_EXPIRY shows the line of a timer that has run out. SETTINGS_WORD_CHECK of a word of the active plan of which a present unit
holds a byte reports a corrected error, and an uncorrectable one with its place in the location register of the unit, which then works with
the word as stored. (R101, R106, R111, R112, R116, R129, R105, R130, R191.) -/
def Obligations.AutomataEvaluateASlice : Prop :=
  ∀ s : State, Alive s →
    (∀ g f, s.tb.fabLost.isSome = true ∨ evaluating s = false ∨ s.tb.tick < nextSlice s → ∃ t, exec (.sliceEvaluation g f) s = .next t ∧ t.au.trig = (if s.au.trig.any (fun p => p.1 == s.tb.time) then s.au.trig else ((s.tb.time, g) :: s.au.trig).take 8193) ∧
      ({ t with au := { t.au with trig := s.au.trig } } : State) = s) ∧
    (∀ g f, s.tb.fabLost = none → evaluating s = true → nextSlice s ≤ s.tb.tick → ∃ t, exec (.sliceEvaluation g f) s = .next t ∧ ((∀ x ∈ f, quads s ≤ x.quad) → t.au.lastSlice = some (nextSlice s)) ∧
      (∃ gs, t.au.gateHist = s.au.gateHist ++ [(nextSlice s, gs)] ∧ gs.length = 32) ∧
      t.au.trig = (if s.au.trig.any (fun p => p.1 == s.tb.time) then s.au.trig else ((s.tb.time, g) :: s.au.trig).take 8193) ∧
      (∀ a, a < 8 → rf t (taBase a + 4) 5 0 = (autoAt s.au.autos a).st % 64 ∧ reg t (taBase a + 8) = BitVec.ofNat 32 (nextSlice s) ∧
        reg t (taBase a + 0x0C) = BitVec.ofNat 32 (nextSlice s / 2 ^ 32)) ∧
      ({ t with regs := s.regs, lanes := s.lanes, au := s.au, fresh := s.fresh } : State).calm = s.calm) ∧
    (∀ a u, a < 8 → u < 4 → a < s.au.autos.length → u < (autoAt s.au.autos a).tallies.length → evaluating s = true → bit (pTlctl (plan s) a u) 13 = true →
      pTlThr (plan s) a u ≤ (tallyAt (autoAt s.au.autos a) u).count → ∃ t, exec (.tallyCompletion a u) s = .next t ∧ (tallyAt (autoAt t.au.autos a) u).done = true ∧ (∀ b, b ≠ a → autoAt t.au.autos b = autoAt s.au.autos b) ∧
        ({ t with au := { t.au with autos := s.au.autos } } : State) = s) ∧
    (∀ i, i < 32 → i < s.au.timers.length → evaluating s = true → timerLine (timerAt s.au.timers i) (epos s.cap (nextSlice s)) = true →
      ∃ t, exec (.timerExpiry i) s = .next t ∧ (timerAt t.au.timers i).line = true ∧ (∀ k, k ≠ i → timerAt t.au.timers k = timerAt s.au.timers k) ∧
        ({ t with au := { t.au with timers := s.au.timers } } : State) = s) ∧
    ∀ u off, (∃ t, exec (.settingsWordCheck u off .good) s = .next t ∧ t = s) ∧
      (unitHere s u = true → (∃ i, i < 8 ∧ (unitByte (plan s) u (off / 8 * 8 + i)).isSome = true) →
        (∀ d, ∃ t, exec (.settingsWordCheck u off (.corrected d)) s = .next t ∧ (∀ r b, srcReg (unitCe u) = some (r, b) → bit (reg t r).toNat b = true) ∧
          keepsRegs [] s t ∧ t.calm = s.calm) ∧
        ∀ f, ∃ t, exec (.settingsWordCheck u off (.uncorrectable f)) s = .next t ∧ (∀ r b, srcReg (unitUe u) = some (r, b) → bit (reg t r).toNat b = true) ∧
          bit (reg t (unitLoc u)).toNat 31 = true ∧ t.plans = { s.plans with active := s.plans.active.map fun im => flipUnit im u (off / 8 * 8) f } ∧
          (bit (reg s (unitLoc u)).toNat 31 = false → reg t (unitLoc u) = BitVec.ofNat 32 (2 ^ 31 + off / 8 * 8)) ∧
          keepsRegs [unitLoc u] s t ∧ ({ t with plans := s.plans, regs := s.regs } : State).calm = s.calm)

/-- TRIG_OUT pulses and cascade events. Every TRIG_OUT edge in the slice that passes begins a pulse and the pin is high; it falls in the
slice with the tick 2,560 ticks after the last pulse began. CASCADE_FRAME_SEND sends up to 80 pending entries on each of K0 and K1 in RUN
whose codeword slot begins with no ECHO due. The oldest entry received is dropped when the engine has used a copy of it before; otherwise it
waits to be applied when it is not late, and is passed on in a ring unless the next engine is its origin; a late one is reported by every
automaton that selects its line. (R13, R119, R122, R123, R124, R125, R126.) -/
def Obligations.TriggerOutputsAndCascade : Prop :=
  ∀ s : State, Alive s →
    (s.au.edges.any (fun u => decide (u < s.tb.tick + 32)) = true → ∃ t, exec .trigOut s = .next t ∧ t.au.trigOut = true ∧
      t.au.edges = s.au.edges.filter (fun u => decide (s.tb.tick + 32 ≤ u)) ∧
      t.au.pulses = s.au.pulses ++ s.au.edges.filter (fun u => decide (u < s.tb.tick + 32)) ∧ ({ t with au := s.au } : State) = s) ∧
    ((∀ u ∈ s.au.pulses, u + 2560 < s.tb.tick + 32) → ∃ t, exec .trigOutFall s = .next t ∧ t.au.trigOut = false ∧ t.au.pulses = [] ∧
      t.au.edges = s.au.edges ∧ ({ t with au := s.au } : State) = s) ∧
    (∀ a b, a = tblGet s.au.outbound 0 [] → b = tblGet s.au.outbound 1 [] → a ≠ [] → b ≠ [] → laneState s 128 = lnRun → laneState s 129 = lnRun →
      slotOpen s 128 = true → slotOpen s 129 = true → echoDue s 128 = false → echoDue s 129 = false → ∃ t, exec .cascadeFrameSend s = .next t ∧ t.sent = (129, .sample (tblGet s.au.casSeq 1 0) (casPayload (b.take 80))) :: (128, .sample (tblGet s.au.casSeq 0 0) (casPayload (a.take 80))) :: s.sent ∧
      tblGet t.au.outbound 0 [] = a.drop 80 ∧ tblGet t.au.outbound 1 [] = b.drop 80 ∧ (∀ n, n ≠ 128 → n ≠ 129 → lane t n = lane s n) ∧
      ({ t with au := { t.au with outbound := s.au.outbound, casSeq := s.au.casSeq }, sent := s.sent, lanes := s.lanes } : State) = s) ∧
    (∀ v rest e, s.au.rxq = v :: rest → e = entryEvent s.tb.tick v →
      (s.au.seen.contains e = true → ∃ t, exec .cascadeEvent s = .next t ∧ t = { s with au := { s.au with rxq := rest } }) ∧
      (s.au.seen.contains e = false → casTooLate s e = false → ∃ t, exec .cascadeEvent s = .next t ∧ t.au.inbound = s.au.inbound ++ [e] ∧ t.au.rxq = rest ∧
        t.au.seen.contains e = true ∧
        (∀ j, j < 2 → tblGet t.au.outbound j [] = tblGet s.au.outbound j [] ++
          if 1 < ringCount s ∧ e.origin ≠ (ringPos s + 1) % ringCount s then [e] else []) ∧ ({ t with au := s.au } : State) = s) ∧
      (s.au.seen.contains e = false → casTooLate s e = true → ∃ t, exec .cascadeEvent s = .next t ∧ t.au.rxq = rest ∧
        (∀ a k, a < 8 → k < 12 → pSel (plan s) a k = 2624 + e.line → bit (reg t (taBase a + 0x40)).toNat 6 = true) ∧
        keepsRegs [] s t ∧ ({ t with au := s.au } : State).calm = s.calm))

/-- Long commands begin: ACCEPTED is told and their work is under way. Under the conditions of R246 to R249, R298, R299 and R407 on the
state and the entry (Granted), with what R407 asks of each: ARM waits for its T0, with every subchannel at slot 0 of an orbit and no entry
of self-refresh left, and sets CAPEVT0.ARMED; LINK_TRAIN has the links of its first wave in SIGDET; DRAM_TRAIN has every channel in TRAINING
and the march engine running; CONJUNCTION is armed; MARCH_RUN has its test under way; JOB_SEARCH reads its predicate, and with the last of
it the job begins; the other jobs begin at once; an open-area command starts its routine on an idle JSQ with a free context, and waits in
the queue of one that runs. ACCEPTED carries the results of the command, and nothing else changes beside rings, journal, event bits,
counters and what the home sequencer holds for the command. (R43, R81, R187, R225, R252, R262, R333, R246, R247, R249, R298, R407.) -/
def Obligations.LongCommandsBegin : Prop :=
  (∀ r e s, Granted r opArm e [homeOf opArm] s → armBad e (passEntry r s) = false → armBusy (passEntry r s) = none →
      ∃ t, exec (.arm r e) s = .next t ∧ Opened r opArm e.tag (BitVec.ofNat 64 (armTick e s)) (BitVec.ofNat 64 (planId (plan s))) s t ∧
        t.cap.state = .waiting ∧ t.cap.t0 = armTick e s ∧ t.cap.count = pn e.p0 ∧ t.cap.origin = s.jr.next ∧ bit (reg t 0x180020).toNat 1 = true ∧
        (∀ sc, sc < subCount s → orbOf t sc ≠ 0 ∧ (sub t sc).slots = 0 ∧ (sub t sc).sr = wakeSr s (sub s sc)) ∧
        keepsRegs ((List.range (chCount s)).map fun ch => chBase ch + 4) s t ∧
        Beside (homeNow s opArm e) s { t with cap := s.cap, regs := s.regs, dram := { t.dram with subs := s.dram.subs } }) ∧
    (∀ r e s, Granted r opLinkTrain e (4 :: clqsOf (maskLanes e)) s → (maskLanes e ≠ [] ∨ maskCascade e ≠ []) →
      linkTrainBad e (passEntry r s) = false → linkTrainBusy e (passEntry r s) = false →
      ∃ t, exec (.linkTrain r e) s = .next t ∧ Opened r opLinkTrain e.tag 0 0 s t ∧
        (∃ w rest, wavesOf e = w :: rest ∧ t.train = some { origin := s.jr.next, waves := rest, cur := w, failed := [] } ∧
          (∀ n ∈ w, laneState t n = lnSigdet) ∧ (∀ n, n ∉ w → lane t n = lane s n) ∧ keepsRegs (w.map fun n => laneBase n + 0x10) s t) ∧
        Beside (homeIn s opLinkTrain e 4) s { t with train := s.train, regs := s.regs, lanes := s.lanes }) ∧
    (∀ r e s, Granted r opDramTrain e [8] s → allIn s [1, 4] = true → openOp s opMarchRun = none →
      (∀ d, d < quads s → sqStopped s (8 + 6 * d) = false) →
      ∃ t, exec (.dramTrain r e) s = .next t ∧ Opened r opDramTrain e.tag 0 0 s t ∧ t.dram.trainOrigin = some s.jr.next ∧
        (∀ ch, ch < chCount s → chState t ch = 2) ∧ rf t 0x60100 31 30 = 2 ∧
        keepsRegs (0x60100 :: (List.range (chCount s)).map fun ch => chBase ch + 4) s t ∧
        Beside (homeIn s opDramTrain e 8) s { t with regs := s.regs, dram := { t.dram with trainOrigin := s.dram.trainOrigin } }) ∧
    (∀ r e s, Granted r opConjunction e [homeOf opConjunction] s → 0 < pf e.p0 12 8 → pf e.p0 12 8 ≤ 16 → pf e.p0 3 0 < pf e.p0 12 8 →
      pn e.p1 % 32 = 0 → (s.tb.act.mode = true → pn e.p1 % refPeriod s.tb.act.refsel = 0) → conjBusy e (passEntry r s) = false →
      ∃ t, exec (.conjunction r e) s = .next t ∧ Opened r opConjunction e.tag 0 0 s t ∧
        t.tb = { s.tb with conj := some { p := pf e.p0 3 0, n := pf e.p0 12 8, conjT := pn e.p1, origin := s.jr.next, start := s.tb.time,
                                          phase := .armed, commits := 0, echoes := false, hopAt := none } } ∧
        Beside (homeNow s opConjunction e) s { t with tb := s.tb }) ∧
    (∀ r e s, Granted r opMarchRun e [homeOf opMarchRun] s → marchBad e = false → marchZero e = false → marchBusy e (passEntry r s) = false →
      ∃ t, exec (.marchRun r e) s = .next t ∧ Opened r opMarchRun e.tag 0 0 s t ∧
        (∃ m, t.banks = { s.banks with march := some m } ∧ m.origin = s.jr.next ∧ m.mask = pn e.p0 ∧ m.first = pn e.p2 ∧ m.count = pn e.p3 ∧
          m.destructive = (pn e.p1 == 1) ∧ m.failBanks = 0 ∧ m.aborts = 0) ∧
        rf t 0x60100 31 30 = (if pn e.p1 = 1 then 3 else 2) ∧ keepsRegs [0x60100] s t ∧
        Beside (homeNow s opMarchRun e) s { t with regs := s.regs, banks := s.banks }) ∧
    (∀ r e s, Granted r opJobSearch e [jsqOf (streamQuad s (pf e.p2 7 0))] s → searchBad e (passEntry r s) = false →
      s.cap.anyBegun = true → pn e.p1 ≠ 0 → (pf e.p6 31 0 ≠ 0 ∨ eUnlim e = true) → s.pcie.bme = true →
      ∃ t, exec (.jobSearch r e) s = .next t ∧ Fetches (.cmd r opJobSearch e) (pn e.p0) (pn e.p1) s t) ∧
    (∀ r e p s u tag bs, Arrives s tag bs (.cmd r opJobSearch e) p u → Granted r opJobSearch e [jsqOf (streamQuad u (pf e.p2 7 0))] u →
      searchBad e (passEntry r u) = false → s.cap.anyBegun = true → pn e.p1 ≠ 0 → (pf e.p6 31 0 ≠ 0 ∨ eUnlim e = true) → predBad p (pn e.p1) = false →
      ∃ t, exec (.completion tag bs false) s = .next t ∧ JobBegan r opJobSearch e .search (streamQuad u (pf e.p2 7 0)) u t) ∧
    (∀ r e s, Granted r opJobExtract e [jsqOf (streamQuad s (pf e.p0 7 0))] s → windowBad (passEntry r s) (pn e.p0) (pn e.p1) (pn e.p2) = false →
      pn e.p3 % 64 = 0 → s.cap.anyBegun = true → pn e.p4 ≠ 0 →
      ∃ t, exec (.jobExtract r e) s = .next t ∧ JobBegan r opJobExtract e .extract (streamQuad s (pf e.p0 7 0)) s t) ∧
    (∀ r e s, Granted r opJobCompress e [jsqOf (quietQuad s)] s → codecBad e (passEntry r s) = false → (pn e.p1 ≠ 0 ∨ pn e.p3 < 64) →
      ∃ t, exec (.jobCompress r e) s = .next t ∧ JobBegan r opJobCompress e .compress (quietQuad s) s t ∧
        ∃ c ∈ t.cmds, c.origin = s.jr.next ∧ c.c1 = BitVec.ofNat 64 (codedBound (pn e.p1))) ∧
    (∀ r e s, Granted r opJobDecompress e [jsqOf (quietQuad s)] s → 64 ≤ pn e.p1 → codecBad e (passEntry r s) = false →
      ∃ t, exec (.jobDecompress r e) s = .next t ∧ JobBegan r opJobDecompress e .decompress (quietQuad s) s t) ∧
    (∀ r e s, Granted r opJobVerify e [jsqOf (quietQuad s)] s → 64 ≤ pn e.p1 → codecBad e (passEntry r s) = false →
      ∃ t, exec (.jobVerify r e) s = .next t ∧ JobBegan r opJobVerify e .verify (quietQuad s) s t) ∧
    (∀ r (n : BitVec 8) e s q, q = jsqOf (pf e.p6 1 0) → Granted r (0x200 + n.toNat) e [q] s → pf e.p6 1 0 < quads s → (sq s q).ctxs.length = 4 →
      (∀ c ∈ (sq s q).ctxs, c.origin ≠ some s.jr.next) →
      ((sq s q).state = .idle → (sq s q).queue = [] → (∃ c ∈ (sq s q).ctxs, c.origin = none) →
        ∃ t, exec (.openAreaCommand r n e) s = .next t ∧ Opened r (0x200 + n.toNat) e.tag 0 0 s t ∧ (sq t q).state = .run ∧
          (sq t q).pc = tblGet s.stores.oaEntry n.toNat 0 ∧ nth (sq t q).w 0 0 = opWordOf (0x200 + n.toNat) e ∧
          (∀ i, i < 7 → nth (sq t q).w (8 + i) 0 = nth (ePs e) i 0) ∧ (∀ k, k ≠ q → sq t k = sq s k) ∧
          (∀ sc, (sub t sc).still = (sub s sc).still) ∧ t.beside = s.beside) ∧
      ((sq s q).state = .run ∨ (sq s q).state = .wait →
        ∃ t, exec (.openAreaCommand r n e) s = .next t ∧ Opened r (0x200 + n.toNat) e.tag 0 0 s t ∧ (sq t q).pc = (sq s q).pc ∧
          (∃ c ∈ (sq t q).queue, c.origin = s.jr.next ∧ c.kind = .words ∧ c.entryPc = tblGet s.stores.oaEntry n.toNat 0) ∧ Beside q s t))

/-- FORCE_TRIGGER, STOP, DISARM and the beginning of a capture. Under the conditions of R246 to R249, R298, R299 and R407 on the state and
the entry (Granted): FORCE_TRIGGER while the automata evaluate orders its action at the first tick of the next slice to be evaluated and
completes with it. STOP with OPT = 0 orders the end of the running capture at the next slice boundary, unless it ends sooner, and completes
with the boundary; STOP with OPT = 1, which is ABORT_COMMAND, raises the ABORT trap of the long command that it names, unless that one runs
on a sequencer that takes none or is stopped. DISARM ends the waiting ARM ABORTED with results 0, as if it had not been, and leaves every
subchannel on the idle schedule. CAPTURE_BEGIN with the counter at T0 starts the capture: one segment from T0, each stream of the plan
active at the base of its region, each automaton in its INIT state, CAPEVT0.BEGIN set; before T0 it does nothing. (R106, R120, R131, R135,
R142, R252, R304, R246, R247, R249, R298, R407.) -/
def Obligations.CaptureCommandsComplete : Prop :=
  (∀ r e s, Granted r opForceTrigger e [homeOf opForceTrigger] s → pn e.p0 ≠ 0 → pn e.p1 ≠ 0 →
      (∀ a, a < 8 → bit (pn e.p0) a = true → pAutoEn (plan s) a = true) → evaluating s = true →
      ∃ t, exec (.forceTrigger r e) s = .next t ∧ Done r e.tag stDone (BitVec.ofNat 64 (nextSlice s)) 0 0 s t ∧
        t.au.forced = s.au.forced ++ [{ mask := pn e.p0, index := pn e.p1, tick := nextSlice s }] ∧
        Beside (homeNow s opForceTrigger e) s { t with au := { t.au with forced := s.au.forced } }) ∧
    (∀ r e s, Granted r opStop e [homeOf opStop] s → eOpt e = false → captureOn s = true →
      ∃ t, exec (.stop r e) s = .next t ∧ Done r e.tag stDone (BitVec.ofNat 64 (nextBoundary s)) 0 0 s t ∧
        t.cap.endAt = (match s.cap.endAt with
          | some (l, w) => if l ≤ nextBoundary s - 1 then some (l, w) else some (nextBoundary s - 1, .stop)
          | none => some (nextBoundary s - 1, .stop)) ∧ Beside (homeNow s opStop e) s t) ∧
    (∀ r e s k, Granted r opStop e [homeOf opStop] s → eOpt e = true → abortTarget e s = some k →
      (∃ t, exec (.stop r e) s = .next t ∧ Done r e.tag stDone 0 0 0 s t ∧ t.beside = s.beside ∧ (∀ sc, (sub t sc).still = (sub s sc).still) ∧
        (∀ q, q ≠ k.home → (sq t q).rest = (sq s q).rest ∧ (q ≠ homeNow s opStop e → sq t q = sq s q)) ∧
        (2 ≤ k.home → seqPresent s k.home = true → sqStopped s k.home = false → (.abort, k.origin) ∈ (sq t k.home).pendTrap)) ∧
      (∃ t, exec (.abortCommand r e) s = .next t ∧ Done r e.tag stDone 0 0 0 s t ∧ t.beside = s.beside ∧ (∀ sc, (sub t sc).still = (sub s sc).still) ∧
        (∀ q, q ≠ k.home → (sq t q).rest = (sq s q).rest ∧ (q ≠ homeNow s opStop e → sq t q = sq s q)) ∧
        (2 ≤ k.home → seqPresent s k.home = true → sqStopped s k.home = false → (.abort, k.origin) ∈ (sq t k.home).pendTrap))) ∧
    (∀ r e s k, Granted r opDisarm e [homeOf opDisarm] s → s.cap.state = .waiting → Tellable s s.cap.origin k →
      ∃ t, exec (.disarm r e) s = .next t ∧ Told r e.tag stDone true 0 0 0 s t ∧ Ended s.cap.origin k stAborted 0 0 0 s t ∧
        t.cap = unarm s.cap ∧ (∀ sc, sc < subCount s → orbOf t sc = 0) ∧
        keepsRegs ((List.range (chCount s)).map fun ch => chBase ch + 4) s t ∧ (∀ q, (sq t q).rest = (sq s q).rest) ∧
        ({ t with cap := s.cap, regs := s.regs, dram := { t.dram with subs := s.dram.subs } } : State).beside = s.beside) ∧
    (∀ s, Alive s → (s.cap.state ≠ .waiting ∨ s.tb.tick < s.cap.t0 → ∃ t, exec .captureBegin s = .next t ∧ t = s) ∧
      (s.cap.state = .waiting → s.cap.t0 ≤ s.tb.tick → ∃ t, exec .captureBegin s = .next t ∧ t.cap.state = .running ∧
        t.cap.segs = [firstSeg s.cap.t0] ∧ t.cap.endAt = none ∧ t.cap.anyBegun = true ∧ bit (reg t 0x180020).toNat 2 = true ∧
        (∀ i ∈ pStreams (plan s), (strm t i).active = true ∧ (strm t i).c = pBase (plan s) i) ∧
        (tbState s ≠ tbEclipse → tbState s ≠ tbReacquire → ∀ i ∈ pStreams (plan s), (strm t i).recs = [] ∧ (strm t i).full = none) ∧
        t.au.autos.map (fun a => a.st) = (List.range 8).map (pInit (plan s)) ∧ t.au.forced = [] ∧ t.cmds = s.cmds ∧ t.seqs = s.seqs ∧
        keepsRegs [0x50000] s t ∧
        ({ t with cap := s.cap, au := s.au, lanes := s.lanes, regs := s.regs, pwr := s.pwr } : State).beside = s.beside))

/-- The writer takes samples, ends gaps, closes phases, and ends segments and the capture. A sample that may not leave the delay line yet
changes nothing; one that leaves is behind the writer of its stream, and, where it qualifies, the stream stores and an open DENSE or BLOCK
record has room, it is the last position of that record. WRITER_OVERRUN_RESUME and DENSITY_RECOVERY end the gap of a stream that may resume,
with its GAP event, and else do nothing. A phase closure that is due closes the open records of the stream and sets the next one 524,288
ticks on. SEGMENT_END ends the head segment once its last tick has left the delay line; CAPTURE_END ends the capture once its last tick has
passed with no segment left: no stream is active, and with everything in DRAM and no journal in force, ARM ends with its status, reason,
last tick and count of segments. While no capture is closing, only streams, records and, at the ends, the capture change, beside reports and
the journal. (R135, R136, R137, R138, R142, R151, R152, R155, R211, R252.) -/
def Obligations.WriterTakesSamplesAndResumes : Prop :=
  ∀ s : State, Alive s → s.cap.closing = false →
    (∀ i k t, leavesNow s i k t = false → ∃ u, exec (.sampleLeavesDelayLine i k t none) s = .next u ∧ u = s) ∧
    (∀ i k t, leavesNow s i k t = true → i < 256 → ∃ u, exec (.sampleLeavesDelayLine i k t none) s = .next u ∧ t < nextOf (strm u i) k ∧
      BesideWriter s u ∧ (∀ j, j ≠ i → (strm u j).op = (strm s j).op ∧ (strm u j).nextTick = (strm s j).nextTick) ∧
      ∀ v ws o n, v = reach i t s → k = 0 → pSfmt (plan s) i ≠ 2 → wordsAt s i 0 t = some ws → fullBy (strm v i) t = false →
        stalled (strm v i) = false → staleGroups v i t = false → qualifies v i t = true → openOf v i 0 = some o →
        n = ceilDiv (bitsLen (wordFields (stN (plan s) i) ws)) 8 → (overflows v i n = true → overAllowance v i t = false) →
        openSize (plan s) i { o with pos := (t, ws) :: o.pos } < 4096 → ∃ o', openOf u i 0 = some o' ∧ o'.pos = (t, ws) :: o.pos ∧ o'.ts = o.ts) ∧
    (∀ i, ((strm s i).overAt = none ∨ mayResume s i (resumeTick s i) = false → ∃ u, exec (.writerOverrunResume i) s = .next u ∧ u = s) ∧
      ∀ a, (strm s i).overAt = some a → mayResume s i (resumeTick s i) = true → ∃ u, exec (.writerOverrunResume i) s = .next u ∧ (strm u i).overAt = none ∧ BesideWriter s u ∧ (∀ j, j ≠ i → (strm u j).op = (strm s j).op ∧ (strm u j).nextTick = (strm s j).nextTick) ∧
        (a < resumeTick s i → (strm s i).full = none → nextEvent s i (resumeTick s i - 1) = none → freeMask s i (resumeTick s i - 1) ≠ 0 →
          bit (reg u 0x180020).toNat 9 = true)) ∧
    (∀ i, ((strm s i).dens = none ∨ mayResume s i (resumeTick s i) = false → ∃ u, exec (.densityRecovery i) s = .next u ∧ u = s) ∧
      ∀ a, (strm s i).dens = some a → mayResume s i (resumeTick s i) = true → ∃ u, exec (.densityRecovery i) s = .next u ∧ (strm u i).dens = none ∧ BesideWriter s u ∧ (∀ j, j ≠ i → (strm u j).op = (strm s j).op ∧ (strm u j).nextTick = (strm s j).nextTick) ∧
        (a < resumeTick s i → (strm s i).full = none → (strm s i).overAt = none → nextEvent s i (resumeTick s i) = none →
          freeMask s i (resumeTick s i - 1) ≠ 0 → bit (reg u 0x180020).toNat 8 = true)) ∧
    (∀ i m, activeStreams s = [i] → m = phaseOf s (strm s i) → phaseDue s i = true → nextEvent s i m = some (m, 3) →
      ∃ u, exec .phaseClosure s = .next u ∧ (strm u i).phase = m + 524288 ∧ (strm u i).op = [] ∧ BesideWriter s u) ∧
    ((∀ i ∈ activeStreams s, phaseDue s i = false) → ∃ u, exec .phaseClosure s = .next u ∧ (∀ j, (strm u j).op = (strm s j).op ∧ (strm u j).phase = (strm s j).phase) ∧ BesideWriter s u) ∧
    (∀ g e, headSeg s = some g → g.e = some e → capRunning s = true → e + 6144 ≤ s.tb.tick → evaluated s e = true →
      (∀ i ∈ activeStreams s, waitingSamples s i e = []) → ∃ u, exec .segmentEnd s = .next u ∧ u.cap.ended = s.cap.ended + 1 ∧
        bit (reg u 0x180020).toNat 5 = true ∧ BesideWriter s { u with cap := { u.cap with ended := s.cap.ended } }) ∧
    ((headSeg s = none ∨ capRunning s = false) → ∃ u, exec .segmentEnd s = .next u ∧ u = s) ∧
    (∀ l w, s.cap.endAt = some (l, w) → capRunning s = true → s.cap.segs = [] → l < s.tb.tick →
      ∃ u, exec .captureEnd s = .next u ∧ u.cap.state = .ended ∧ u.cap.lastTick = l ∧ u.cap.reason = some w ∧ (∀ i, (strm u i).active = false) ∧
        bit (reg u 0x180020).toNat 3 = true ∧ rf u 0x50000 24 24 = 0 ∧
        (∀ k, s.dram.rt = [] → (∀ c ∈ s.dram.cells, c.2 = []) → s.jr.inForce = false → s.jr.wait = [] → Tbl.wf s.streams = true →
          Tellable s s.cap.origin k → u.cap.closing = false ∧ (∀ sc, sc < subCount s → orbOf u sc = 0) ∧
          Ended s.cap.origin k (armStatus w) (BitVec.ofNat 64 (reasonCode w)) (BitVec.ofNat 64 l) (BitVec.ofNat 64 s.cap.ended) s u) ∧
        (∀ q, (sq u q).rest = (sq s q).rest) ∧
        ({ u with cap := s.cap, au := s.au, regs := s.regs, dram := { u.dram with subs := s.dram.subs } } : State).beside = s.beside) ∧
    (s.cap.endAt = none ∨ capRunning s = false ∨ s.cap.segs ≠ [] → ∃ u, exec .captureEnd s = .next u ∧ u = s)

/-- Snapshots and power states: ordered at once, complete later. Under the conditions of R246 to R249, R298, R299 and R407 on the state and
the entry (Granted): COUNTER_SNAPSHOT, and TAKE under Memory Space Enable, order a snapshot at the slice boundary 4,096 ticks on, rounded
up, or join the one that is pending; SNAPSHOT_COPY after Ts leaves VALID 1, Ts in SNAPTICK and SNAPDONE set, and completes each command that
ordered it with Ts. POWER_STATE to the state that the engine is in completes at once; to another it shows TRANS and TARGET, with every link
in RUN in STANDBY from PS0 to PS1, and every link that is not DISABLED DOWN and every READY subchannel on its way into self-refresh towards
PS2 or PS3. PSDONE ends the transition: STATE is the target, TRANS is 0, PWREVT.PSDONE is set and the command completes with the state; with
links still to resume it starts the next wave instead, while one resumes it does nothing, and PS3 waits for the journal and for PCLK to
stop. (R354, R355, R363, R364, R365, R381, R246, R247, R249, R298, R407.) -/
def Obligations.SnapshotsAndPowerStatesComplete : Prop :=
  (∀ r e s, Granted r opCounterSnapshot e [homeOf opCounterSnapshot] s →
      ∃ t, exec (.counterSnapshot r e) s = .next t ∧ Pends r opCounterSnapshot e.tag s t ∧
        t.snap = { s.snap with due := some (s.snap.due.getD (s.tb.time + (32 * ceilDiv (s.tb.tick + 4096) 32 - s.tb.tick))),
                               waiters := s.snap.waiters ++ [s.jr.next] } ∧
        Beside (homeNow s opCounterSnapshot e) s { t with snap := s.snap }) ∧
    (∀ (v : W32) s, Alive s → s.pcie.memSpace = true → ∃ t, exec (.take v) s = .next t ∧ t = if bit v.toNat 0 then
        { s with snap := { s.snap with due := some (s.snap.due.getD (s.tb.time + (32 * ceilDiv (s.tb.tick + 4096) 32 - s.tb.tick))) } } else s) ∧
    (∀ s, Alive s → (s.snap.taken = none → ∃ t, exec .snapshotCopy s = .next t ∧ t = s) ∧
      ∀ x, s.snap.taken = some x → (s.snap.owed.map fun p => p.1).Nodup → ∃ t, exec .snapshotCopy s = .next t ∧ t.snap = { s.snap with taken := none, owed := [] } ∧
        reg t 0xC0008 = BitVec.ofNat 32 x ∧ reg t 0xC000C = BitVec.ofNat 32 (x / 2 ^ 32) ∧ rf t 0xC0004 31 31 = 1 ∧ bit (reg t 0x18).toNat 3 = true ∧
        (∀ o y k, (o, y) ∈ s.snap.owed → Tellable s o k → Ended o k stDone (BitVec.ofNat 64 y) 0 0 s t) ∧ t.hold = s.hold ∧
        keepsRegs [0xC0004, 0xC0008, 0xC000C] s t ∧ (∀ q, (sq t q).rest = (sq s q).rest) ∧ (∀ sc, (sub t sc).still = (sub s sc).still) ∧
        ({ t with regs := s.regs, snap := s.snap } : State).beside = s.beside) ∧
    (∀ r e s, Granted r opPowerState e [homeOf opPowerState] s → psBusy e (passEntry r s) = false → s.pwr.orders = [] → tripped s = false →
      (psTarget e = pwrState s → ∃ t, exec (.powerState r e) s = .next t ∧ Done r e.tag stDone (BitVec.ofNat 64 (psTarget e)) 0 0 s t ∧ Beside (homeNow s opPowerState e) s t) ∧
      (psTarget e ≠ pwrState s → ∃ t, exec (.powerState r e) s = .next t ∧ t.pwr = { s.pwr with orders := [(s.jr.next, psTarget e)], began := s.tb.time } ∧
        Pends r opPowerState e.tag s t ∧ rf t 0x50000 27 27 = 1 ∧ rf t 0x50000 29 28 = psTarget e ∧ pwrState t = pwrState s ∧
        (psTarget e = 1 → pwrState s = 0 → ∀ n, linkPresent s n = true → laneState t n = if laneState s n = lnRun then lnStandby else laneState s n) ∧
        (2 ≤ psTarget e → pwrState s < 2 → (∀ n, linkPresent s n = true → laneState t n = if laneState s n = lnDisabled then lnDisabled else lnDown) ∧
          ∀ sc, sc < subCount s → chState s (sc / 2) = 3 → (sub t sc).sr ≠ .awake) ∧
        keepsRegs (0x50000 :: (allLinks s).map fun n => laneBase n + 0x10) s t ∧
        Beside (homeNow s opPowerState e) s { t with regs := s.regs, lanes := s.lanes, pwr := s.pwr, dram := { t.dram with subs := s.dram.subs } })) ∧
    (∀ s, Alive s → (s.pwr.orders = [] → ∃ t, exec .psdone s = .next t ∧ t = s) ∧
      ∀ o g, s.pwr.orders = [(o, g)] → g < 4 →
        (g = 0 → linksIn s lnResume ≠ [] → ∃ t, exec .psdone s = .next t ∧ t = s) ∧
        (g = 3 → s.jr.wait ≠ [] ∨ s.tb.pclk ≠ 0 → ∃ t, exec .psdone s = .next t ∧ t = s) ∧
        (g = 0 → linksIn s lnResume = [] → linksIn s lnStandby ≠ [] → ∃ t, exec .psdone s = .next t ∧ t.pwr.orders = s.pwr.orders ∧
          (∃ n, laneState s n = lnStandby ∧ laneState t n = lnResume) ∧ ({ t with regs := s.regs, lanes := s.lanes } : State) = s) ∧
        (∀ k, g ≠ 0 ∨ (linksIn s lnResume = [] ∧ linksIn s lnStandby = []) → (g = 3 → s.jr.wait = [] ∧ s.tb.pclk = 0) → Tellable s o k →
          ∃ t, exec .psdone s = .next t ∧ pwrState t = g ∧ rf t 0x50000 27 27 = 0 ∧ t.pwr.orders = [] ∧ bit (reg t 0x50004).toNat 0 = true ∧ Ended o k stDone (BitVec.ofNat 64 g) 0 0 s t ∧
          BesideEnd o s { t with regs := s.regs, lanes := s.lanes, pwr := s.pwr }))

/-- A turn of a job, and the results of a search. JOB_TURN gives the first job of the quadrant that may move its turn, and the job then
stands last: without the input it needs it begins to read it, from DRAM in the class of its kind or from host memory; with a record at hand
an extract copies it to its destination and counts it, and a search passes one that does not match; a compress job to host memory with a
block at hand writes one coded block and counts it; without Bus Master Enable a job that needs the host ends BUS_MASTER_OFF. RESULT_BATCH
with a batch that is full or 1 ms old writes the batch behind the results published before and then the header, and makes both committed
results. With no job that may move nothing happens. (R177, R225, R229, R262, R264, R266, R269, R270, R271, R280.) -/
def Obligations.JobsAdvance : Prop :=
  (∀ q b s, Alive s → (quads s ≤ q ∨ s.jobs.find? (mayTurn s q) = none ∨ 2 ≤ pwrState s → ∃ t, exec (.jobTurn q b) s = .next t ∧ t = s) ∧
      ∀ j js, q < quads s → (sq s (jsqOf q)).state ≠ .stopped → (sq s (jsqOf q)).state ≠ .handler → pwrState s < 2 → s.jobs.find? (mayTurn s q) = some j →
        js = s.jobs.filter (fun k => k.origin != j.origin) →
        (∀ k, needsHost j = true → s.pcie.bme = false → Tellable s j.origin k → ∃ t, exec (.jobTurn q b) s = .next t ∧ Ended j.origin k stBusMasterOff k.c0 k.c1 k.c2 s t ∧ ∀ x ∈ t.jobs, x.origin ≠ j.origin) ∧
        (∀ a n, s.pcie.bme = true → jobAborted s j = false → j.inbuf = none → nextInput j = some (a, n) →
          (inputDram j = true → ∃ t, exec (.jobTurn q b) s = .next t ∧ t.jobs = js ++ [{ j with waiting := true }] ∧
            ReadsDram (if j.kind = .extract then 2 else 3) (gransOf a n) (.job j.origin a n) s t ∧
            ({ t with jobs := s.jobs } : State).noReads.calm = s.noReads.calm) ∧
          (inputDram j = false → ∃ t, exec (.jobTurn q b) s = .next t ∧ t.jobs = js ++ [{ j with waiting := true }] ∧
            Fetches (.job j.origin) a n s { t with jobs := s.jobs })) ∧
        (∀ bs m n rest, j.kind = .extract → s.pcie.bme = true → j.todo = m :: n :: rest → j.inbuf = some bs → j.inbad = [] →
          j.wrote + 64 * m.len ≤ jp j 4 → (j.wrote + 64 * m.len) / 65536 = j.wrote / 65536 → ∃ t, exec (.jobTurn q b) s = .next t ∧ (∃ l, t.posted = l ++ s.posted ∧ .write (jp j 3 + j.wrote) bs s.pcie.ro ∈ l) ∧
            t.jobs = js ++ [{ j with todo := n :: rest, wrote := j.wrote + 64 * m.len, count := j.count + 1, inbuf := none }] ∧
            ({ t with jobs := s.jobs } : State).calm = s.calm) ∧
        (∀ bs m n rest, j.kind = .search → s.pcie.bme = true → j.todo = m :: n :: rest → j.inbuf = some bs → j.inbad = [] →
          matchOf (viewOf { s with jobs := js ++ [j] } j.plan (bits (jp j 2) 7 0) (jp j 3) (jp j 4) m bs) (clauses (termsOf j.pred) []) = none →
          ∃ t, exec (.jobTurn q b) s = .next t ∧ t.jobs = js ++ [{ j with todo := n :: rest, lastTs := m.ts, inbuf := none }] ∧
            t.cmds = s.cmds.map (fun c => if c.origin = j.origin then { c with c1 := BitVec.ofNat 64 m.ts } else c) ∧
            ({ t with jobs := s.jobs, cmds := s.cmds } : State).calm = s.calm) ∧
        (∀ raw out, j.kind = .compress → bit (jp j 4) 1 = false → s.pcie.bme = true → b = true → jobAborted s j = false →
          j.count + 1 < ceilDiv (jp j 1) 4096 → j.inbuf = some raw → j.inbad = [] → out = codeBlock raw false →
          j.wrote + out.length ≤ jp j 3 → ∃ t, exec (.jobTurn q b) s = .next t ∧ (∃ l, t.posted = l ++ s.posted ∧ .write (jp j 2 + j.wrote) out s.pcie.ro ∈ l) ∧
            t.jobs = js ++ [{ j with count := j.count + 1, wrote := j.wrote + out.length, crc := BitVec.ofNat 64 (crc64 j.crc.toNat raw), inbuf := none }] ∧
            ({ t with jobs := s.jobs, cxSteps := s.cxSteps } : State).calm = s.calm)) ∧
    (∀ o s j k, Alive s → s.jobs.find? (fun j => j.origin == o) = some j → j.kind = .search → j.batch ≠ [] → s.pcie.d3 = false → s.pcie.bme = true →
      (256 ≤ j.batch.length ∨ j.batchAt + msTicks ≤ s.tb.time) → cmd? s o = some k → k.abort = false →
      ∃ t, exec (.resultBatch o) s = .next t ∧ (∃ l, t.posted = l ++ s.posted ∧ .write (jp j 5 + 64 + 32 * j.published) j.batch.flatten s.pcie.ro ∈ l ∧
          .write (jp j 5) (leBytes 8 (j.published + j.batch.length) ++ leBytes 8 j.lastTs ++ leBytes 48 0) false ∈ l) ∧
        (∃ c, cmd? t o = some c ∧ c.c0 = BitVec.ofNat 64 (j.published + j.batch.length) ∧ c.c1 = BitVec.ofNat 64 j.lastTs) ∧
        t.jobs = s.jobs.map (fun x => if x.origin = o then { j with published := j.published + j.batch.length, batch := [] } else x) ∧
        BesideEnd o s { t with jobs := s.jobs })

/-- March slices, their aborts, and the ends of MARCH_RUN and DRAM_TRAIN. MARCH_SLICE tests the first slice of the list and passes it,
noting its failed words; after the last one MARCH_RUN completes with the failed banks, the first failure and the aborts. An access that
reaches the borrowed slice puts it behind the others, counted; at the 16th attempt it is left untested. MARCH_TEST_END of a destructive test
leaves every word of the range 0 with valid check bits and every bank with its PREV owner. DRAM_TRAIN_END leaves each channel READY or
FAILED and completes with the failed channels; with none failed the journal is in force, and DRAM outside its area is as before. Outside a
march, or with no DRAM_TRAIN, they do nothing. (R333, R335, R336, R187, R401.) -/
def Obligations.MarchAndTrainingEnd : Prop :=
  ∀ s : State, Alive s →
    (∀ bad f, s.banks.march = none → (∃ t, exec (.marchSlice bad f) s = .next t ∧ t = s) ∧ ∃ t, exec (.marchTestEnd bad) s = .next t ∧ t = s) ∧
    (∀ k w, s.banks.march = none → ∃ t, exec (.sliceAbort k w) s = .next t ∧ t = s) ∧
    (∀ m, s.banks.march = some m →
      (∀ bad k sl rest m1, m.todo = (k, sl) :: rest →
        m1 = noteFails (bad.filter fun x => x.bank == k && x.word / 256 == sl) { m with todo := rest } →
        (rest ≠ [] → ∃ t, exec (.marchSlice bad none) s = .next t ∧ t.banks = { s.banks with march := some m1 } ∧
          ({ t with banks := s.banks } : State).calm = s.calm) ∧
        (rest = [] → ∀ c, Tellable s m.origin c → c.abort = false → ∃ t, exec (.marchSlice bad none) s = .next t ∧ t.banks = { s.banks with march := none } ∧ rf t 0x60100 31 30 = 0 ∧ bit (reg t 0x60104).toNat 0 = true ∧ keepsRegs [0x60100] s t ∧
          Ended m.origin c stDone (BitVec.ofNat 64 m1.failBanks)
            (BitVec.ofNat 64 (match m1.firstFail with | some (b, off) => b * 2 ^ 32 + off | none => 0)) (BitVec.ofNat 64 m1.aborts) s t ∧
          BesideEnd m.origin s { t with banks := s.banks, regs := s.regs })) ∧
      (∀ k w sl rest n, m.todo = (k, sl) :: rest → k < 12 → w / 256 = sl → w < bankWords → n = tblGet m.tries (1024 * k + sl) 0 + 1 →
        (n < 16 → ∃ t, exec (.sliceAbort k w) s = .next t ∧ t.banks = { s.banks with
            march := some { m with aborts := m.aborts + 1, tries := tblSet m.tries (1024 * k + sl) n, todo := rest ++ [(k, sl)] } } ∧
          bit (reg t (0x60040 + 4 * k)).toNat 5 = true ∧ ({ t with banks := s.banks } : State).calm = s.calm) ∧
        (16 ≤ n → rest ≠ [] → ∃ t, exec (.sliceAbort k w) s = .next t ∧ t.banks = { s.banks with
            march := some { m with aborts := m.aborts + 1, tries := tblSet m.tries (1024 * k + sl) n, todo := rest } } ∧
          bit (reg t 0x60104).toNat 3 = true ∧ ({ t with banks := s.banks } : State).calm = s.calm)) ∧
      (∀ bad c, m.destructive = true → Tellable s m.origin c → c.abort = false → s.banks.mem.wf = true → ∃ t, exec (.marchTestEnd bad) s = .next t ∧ t.banks.march = none ∧ rf t 0x60100 31 30 = 0 ∧ (∃ x0 x1, Ended m.origin c stDone x0 x1 (BitVec.ofNat 64 m.aborts) s t) ∧
        (∀ k w, k ∈ marchBanks m.mask → m.first ≤ w → w < m.first + m.count → bankWord t k w = 0 ∧ bankPoison t k w = false) ∧
        (∀ k ∈ marchBanks m.mask, ownerOf t k = rf s (ownOff k) 19 16 ∧ pendOf t k = false) ∧
        keepsRegs (0x60100 :: (marchBanks m.mask).map ownOff) s t ∧ BesideEnd m.origin s { t with banks := s.banks, regs := s.regs })) ∧
    (∀ (ready : BitVec 8) bad, s.dram.trainOrigin = none → ∃ t, exec (.dramTrainEnd ready bad) s = .next t ∧ t = s) ∧
    (∀ (ready : BitVec 8) bad o c f, s.dram.trainOrigin = some o → Tellable s o c → c.abort = false →
      f = (List.range (chCount s)).filter (fun ch => !ready.getLsbD ch) → ∃ t, exec (.dramTrainEnd ready bad) s = .next t ∧ t.dram.trainOrigin = none ∧
        (∀ ch, ch < chCount s → chState t ch = if ready.getLsbD ch then 3 else 4) ∧ (f = [] → t.jr.inForce = true) ∧
        Ended o c (if f = [] then stDone else stCheckFail) (BitVec.ofNat 64 (maskOfList f)) 0 0 s t ∧ rf t 0x60100 31 30 = 0 ∧
        keepsRegs (0x60100 :: (List.range (chCount s)).map fun ch => chBase ch + 4) s t ∧
        (f ≠ [] → t.dram.mem = s.dram.mem ∧ t.dram.poison = s.dram.poison) ∧
        (s.dram.mem.wf = true → ∀ a, a < journalBase s ∨ journalBase s + 2 ^ 29 ≤ a → memGet t.dram.mem a = memGet s.dram.mem a) ∧
        BesideEnd o s { t with regs := s.regs, dram := { t.dram with trainOrigin := s.dram.trainOrigin, mem := s.dram.mem, poison := s.dram.poison } })

/-- GUARDKEY arms a class, and a guarded write uses the key up. For a write that reaches the engine: the key of a class arms it for a master
that is privileged for it and changes nothing else; any other value disarms the writer and is reported. A guarded write of a master with the
class armed takes effect and disarms it: a staged timebase field or a thermal setting holds the value, DCOMMIT hands the staged DREFCFG over
to the next refresh when it agrees and reports it when not, and a control-store word of an idle sequencer is stored, with no other word
changed, unless it holds a reserved code. Without the key, or without privilege, the write is dropped: the writer is disarmed,
GLBEVT.GUARDREJ and the bus error are set, and no register, store or DRAM setting changes. (R189, R222, R320, R343, R344, R347, R348.) -/
def Obligations.GuardedWritesNeedTheirKey : Prop :=
  ∀ (m : Master) (s : State), Alive s → Reaches m s →
    (∀ (v : W32) c, fld v 15 0 = gwKey c → privileged s m c = true → ∃ t, exec (.guardkey m v) s = .next t ∧ t = setArm m (some c) s ∧ armOf t m = some c) ∧
    (∀ (v : W32), (∀ c, fld v 15 0 = gwKey c → privileged s m c = false) → fld v 15 0 ≠ fuseKey → ∃ t, exec (.guardkey m v) s = .next t ∧ armOf t m = none ∧ bit (reg t 0x18).toNat 1 = true ∧ bit (reg t 0x18000).toNat 0 = true ∧ ({ t with guard := s.guard } : State).calm = s.calm) ∧
    (∀ off (v : W32) c mask, accOf s off = .gw c mask → privileged s m c = true → armOf s m = some c →
      off ∈ [0x40000, 0x40004, 0x40008, 0x4000C, 0x40010, 0x50008, 0x5000C] →
      ∃ t, exec (.guardedWrite m off v) s = .next t ∧ t = holdReg off (v &&& mask) (setArm m none s) ∧ reg t off = v &&& mask) ∧
    (∀ off (v : W32) c mask, accOf s off = .gw c mask → ¬ (privileged s m c = true ∧ armOf s m = some c) →
      ∃ t, exec (.guardedWrite m off v) s = .next t ∧ armOf t m = none ∧ bit (reg t 0x18).toNat 1 = true ∧ bit (reg t 0x18000).toNat 0 = true ∧
        t.stores = s.stores ∧ t.dram = s.dram ∧ t.tb = s.tb ∧ keepsRegs [] s t ∧ ({ t with guard := s.guard } : State).calm = s.calm) ∧
    (∀ ch (v : W32), ch < chCount s → privileged s m .mem = true → armOf s m = some .mem → bit v.toNat 0 = true → armed s = false →
      admitting s = false → tblGet s.dram.refPend ch [] = [] → ∃ t, exec (.dcommit m ch v) s = .next t ∧ armOf t m = none ∧
        (refAgrees (reg s (chBase ch + 0x20)) = true → tblGet t.dram.refPend ch [] = [reg s (chBase ch + 0x20)] ∧
          ({ t with guard := s.guard, dram := { t.dram with refPend := s.dram.refPend } } : State) = s) ∧
        (refAgrees (reg s (chBase ch + 0x20)) = false → tblGet t.dram.refPend ch [] = [] ∧ bit (reg t (chBase ch + 8)).toNat 5 = true ∧
          keepsRegs [] s t ∧ ({ t with guard := s.guard, dram := { t.dram with refPend := s.dram.refPend } } : State).calm = s.calm)) ∧
    (∀ q w (v : W32), q < seqCount s → w < 16384 → privileged s m .cst = true → armOf s m = some .cst → reservedCode (stagedWord s q w v) = false →
      fld (sqStat s q) 31 28 = 0 → (sq s q).queue = [] → ∃ t, exec (.controlStoreWordWrite m q w v) s = .next t ∧ armOf t m = none ∧
        storeWord t q w = stagedWord s q w v ∧ (∀ p x, x < 16384 → (p, x) ≠ (q, w) → storeWord t p x = storeWord s p x) ∧
        ({ t with guard := s.guard, stores := s.stores } : State) = s) ∧
    (∀ q w (v : W32), q < seqCount s → w < 16384 → privileged s m .cst = true → armOf s m = some .cst → reservedCode (stagedWord s q w v) = true →
      ∃ t, exec (.controlStoreWordWrite m q w v) s = .next t ∧ armOf t m = none ∧ t.stores = s.stores ∧ bit (reg t 0x18000).toNat 0 = true ∧ keepsRegs [] s t)

/-- A read of an RC register clears exactly the bits that it returned as set. RC_READ of an RC register answers with its value, in the
timebase and power blocks that of its copy, and afterwards exactly those of its RC bits that the value shows as set are clear in the source
domain, and in the copy; a bit that is set later is returned by a later read. No other register changes, and nothing else beside messages
that bits left set in the source domain send. (R20.) -/
def Obligations.RcReadClearsWhatItReturned : Prop :=
  ∀ (off : Nat) (mask : W32) (s : State), Alive s → s.pcie.memSpace = true → off < bar0Size → off % 4 = 0 → accOf s off = .rc mask →
    ctrAt s (off - 4) = none → isHold s off = false → latches s off = false → tblFind s.latch off = none →
    ∃ t, exec (.rcRead off) s = .next t ∧ (∃ l, t.posted = .readData (leBytes 4 (regVal s off).toNat) false :: (l ++ s.posted) ∧ (isCopy s off = false → l = [])) ∧
      (∀ b, b < 32 → bit (reg t off).toNat b = (bit (reg s off).toNat b && !(bit (regVal s off).toNat b && bit mask.toNat b))) ∧
      (isCopy s off = true → ∀ b, b < 32 →
        bit (regVal t off).toNat b = (bit (regVal s off).toNat b && !(bit (regVal s off).toNat b && bit mask.toNat b))) ∧
      keepsRegs [off] s t ∧ (isCopy s off = false → ({ t with regs := s.regs, posted := s.posted } : State) = s) ∧
      ({ t with regs := s.regs, house := s.house } : State).quiet = s.quiet ∧
      ∀ u b, Alive u → u.pcie.memSpace = true → accOf u off = .rc mask → ctrAt u (off - 4) = none → isHold u off = false → tblFind u.latch off = none →
        ctrAt u off = none → bit (regVal u off).toNat b = true →
        ∃ w, exec (.rcRead off) u = .next w ∧ ∃ (v : W32) (l : List Posted), w.posted = .readData (leBytes 4 v.toNat) false :: (l ++ u.posted) ∧ bit v.toNat b = true

/-- Register writes and reads of the host. With Memory Space Enable, a whole, aligned and unpoisoned write of 4 bytes to a plain RW register
stores its writable bits, and one of 8 bytes those of both words; one of a reserved offset, of an RO or RC register, a poisoned one, one of
another length, a misaligned one or one with a byte missing is dropped, with BUSERR and its counter, and changes no register but logs. A
read of a reserved offset, of a wrong size or alignment is answered with Completer Abort. LO_HALF_READ answers with the lower half of a
counter and latches its upper half. EVMAP_WRITE, VCOAL_WRITE, APBASE_WRITE and the enables of the observation ports store their fields and
change nothing else, while no source fires and no message falls due; a COUNT of 0 is dropped. (R219, R221, R223, R232, R233, R340, R342,
R351, R353.) -/
def Obligations.RegisterAccessesComplete : Prop :=
  ∀ s : State, Alive s → s.pcie.memSpace = true →
    (∀ v : W64, (∃ t, exec (.registerWrite 0x40018 4 15#8 v false) s = .next t ∧ t = holdReg 0x40018 (v.setWidth 32 &&& 0xFFFF#32) s) ∧
      ∃ t, exec (.registerWrite 0x18010 8 255#8 v false) s = .next t ∧ t = setReg 0x18014 ((v >>> 32).setWidth 32 &&& 0xFF#32) (setReg 0x18010 (v.setWidth 32 &&& 0xFFFFF000#32) s)) ∧
    (∀ off len be (v : W64) p, off + len ≤ bar0Size → (p = true ∨ (len ≠ 4 ∧ len ≠ 8) ∨ off % len ≠ 0) →
      ∃ t, exec (.registerWrite off len be v p) s = .next t ∧ bit (reg t 0x18000).toNat 0 = true ∧ keepsRegs [] s t ∧ t.noAer = s.noAer) ∧
    (∀ off (be : BitVec 8) (v : W64), off + 4 ≤ bar0Size → off % 4 = 0 →
      (accOf s off = .reserved ∨ be.setWidth 4 ≠ 15#4 ∨ accOf s off = .ro ∨ ∃ mask, accOf s off = .rc mask) →
      ∃ t, exec (.registerWrite off 4 be v false) s = .next t ∧ bit (reg t 0x18000).toNat 0 = true ∧ keepsRegs [] s t ∧ t.calm = s.calm) ∧
    (∀ off n, off < bar0Size → (accOf s off = .reserved ∨ (n ≠ 4 ∧ n ≠ 8) ∨ off % n ≠ 0) →
      ∃ t, exec (.reservedOffsetRead off n) s = .next t ∧ (∃ l, t.posted = l ++ s.posted ∧ .completerAbort ∈ l) ∧ bit (reg t 0x18000).toNat 10 = true ∧
        keepsRegs [] s t ∧ t.noAer = s.noAer) ∧
    (∀ off, isCtr s off = true → tblFind s.latch off = none →
      ∃ t, exec (.loHalfRead off) s = .next t ∧ t.posted = .readData (leBytes 4 ((tblGet s.ctrs off { val := 0, ovf := false }).val % 2 ^ 32)) false :: s.posted ∧
        tblFind t.latch (off + 4) = some (BitVec.ofNat 32 (b2n (tblGet s.ctrs off { val := 0, ovf := false }).ovf * 2 ^ 31 +
          (tblGet s.ctrs off { val := 0, ovf := false }).val / 2 ^ 32 % 65536)) ∧
        ({ t with latch := s.latch, posted := s.posted } : State) = s) ∧
    (∀ n (v : W32), n < 1792 → (bit v.toNat 31 = false ∨ ∃ o b, srcReg n = some (o, b) ∧ bit (reg s o).toNat b = false) →
      ∃ t, exec (.evmapWrite n v) s = .next t ∧ t = setReg (0x10000 + 4 * n) (v &&& 0x800007FF#32) s) ∧
    (∀ n (v : W32), n < 2048 → fld v 31 16 ≠ 0 → (vec s n).acc = 0 → ∃ t, exec (.vcoalWrite n v) s = .next t ∧ t = setReg (0x14000 + 4 * n) v s) ∧
    (∀ n (v : W32), n < 2048 → fld v 31 16 = 0 → ∃ t, exec (.vcoalWrite n v) s = .next t ∧ bit (reg t 0x18000).toNat 14 = true ∧
      bit (reg t 0x18000).toNat 0 = true ∧ keepsRegs [] s t ∧ t.calm = s.calm) ∧
    (∀ v : W32, (∃ t, exec (.apbaseWrite false v) s = .next t ∧ t = setReg 0x18010 (v &&& 0xFFFFF000#32) s) ∧
      ∃ t, exec (.apbaseWrite true v) s = .next t ∧ t = setReg 0x18014 (v &&& 0xFF#32) s) ∧
    ∀ v : W32,
      (∃ t, exec (.obs0en v) s = .next t ∧ (∀ i, i < 2 → bit (reg t 0xC).toNat i = bit (if bit v.toNat (16 + i) then v else reg s 0xC).toNat i) ∧
        (∀ off, off ≠ 0xC → reg t off = reg s off) ∧ ({ t with regs := s.regs } : State) = s) ∧
      ∃ t, exec (.obs1en v) s = .next t ∧ (∀ i, i < 2 → bit (reg t 0xC).toNat i = bit (if bit v.toNat (16 + i) then v else reg s 0xC).toNat i) ∧
        (∀ off, off ≠ 0xC → reg t off = reg s off) ∧ ({ t with regs := s.regs } : State) = s

/-- The scratch-bank view, the DRAM aperture, and requests that are refused. A read of the view in words that the host may read answers with
their bytes; a write stores its bytes, and every other byte of every bank is as before; without ownership the read is answered with
Completer Abort and the write dropped as a bus error, with the banks unchanged. An aperture read in the population puts an SC2 request of
each of its granules into its subchannel; one beyond the top is answered with Completer Abort; a write of the aperture is a bus error. A
request of R222, or a memory request without Memory Space Enable, is answered with Unsupported Request, and a Message is only reported.
(R177, R220, R221, R222, R223, R327, R331.) -/
def Obligations.HostWindowsAreServed : Prop :=
  ∀ s : State, Alive s →
    (∀ off, s.pcie.memSpace = true → off % 8 = 0 → off < 0x1800000 → viewOpen s off 8 .read = true →
      bankPoison s (off / 0x200000) (off % 0x200000 / 8) = false → ∃ t, exec (.scratchBankViewAccess (.read off 8)) s = .next t ∧ (∃ l, t.posted = .readData (leBytes 8 (bankWord s (off / 0x200000) (off % 0x200000 / 8)).toNat) false :: l) ∧ t.banks = s.banks ∧
        t.calm = s.calm) ∧
    (∀ off bs, s.pcie.memSpace = true → bs ≠ [] → off < 0x1800000 → malformed off bs.length s.pcie.mps = false →
      viewOpen s off bs.length (.write 0) = true →
      (∀ w ∈ viewWords off bs.length, bankPoison s (off / 0x200000) w = false) → s.banks.mem.wf = true →
      ∃ t, exec (.scratchBankViewAccess (.write off bs false)) s = .next t ∧ (∀ a, memGet t.banks.mem a = if off ≤ a ∧ a < off + bs.length then bs.getD (a - off) 0 else memGet s.banks.mem a) ∧
        t.banks.poison = s.banks.poison ∧ keepsRegs [] s t ∧ ({ t with banks := s.banks } : State).calm = s.calm) ∧
    (∀ off n, s.pcie.memSpace = true → 0 < n → off < 0x1800000 → malformed off n 4096 = false → viewOpen s off n .read = false →
      ∃ t, exec (.scratchBankViewAccess (.read off n)) s = .next t ∧ (∃ l, t.posted = l ++ s.posted ∧ .completerAbort ∈ l) ∧ t.banks = s.banks ∧
        bit (reg t (0x60040 + 4 * (off / 0x200000))).toNat 3 = true ∧ keepsRegs [] s t ∧ t.noAer = s.noAer) ∧
    (∀ off bs, s.pcie.memSpace = true → bs ≠ [] → off < 0x1800000 → malformed off bs.length s.pcie.mps = false →
      viewOpen s off bs.length (.write 0) = false →
      ∃ t, exec (.scratchBankViewAccess (.write off bs false)) s = .next t ∧ t.banks = s.banks ∧ bit (reg t 0x18000).toNat 0 = true ∧
        bit (reg t (0x60040 + 4 * (off / 0x200000))).toNat 3 = true ∧ keepsRegs [] s t ∧ t.calm = s.calm) ∧
    (∀ off bs, s.pcie.memSpace = true → bs ≠ [] → 0x1800000 ≤ off → off < 0x2000000 → malformed off bs.length s.pcie.mps = false →
      ∃ t, exec (.scratchBankViewAccess (.write off bs false)) s = .next t ∧ bit (reg t 0x18000).toNat 0 = true ∧ keepsRegs [] s t ∧ t.calm = s.calm) ∧
    (∀ x n a, s.pcie.memSpace = true → 0 < n → x < 0x800000 → malformed x n 4096 = false → a = apbase s + x → a + n ≤ topAddr s →
      ∃ t, exec (.dramApertureRead x n) s = .next t ∧ ReadsDram 2 (gransOf a n) (.aperture a n) s t ∧ t.noReads.calm = s.noReads.calm) ∧
    (∀ x n, s.pcie.memSpace = true → 0 < n → x < 0x800000 → malformed x n 4096 = false → topAddr s < apbase s + x + n →
      ∃ t, exec (.dramApertureRead x n) s = .next t ∧ (∃ l, t.posted = l ++ s.posted ∧ .completerAbort ∈ l) ∧ bit (reg t 0x18000).toNat 12 = true ∧
        keepsRegs [] s t ∧ t.noAer = s.noAer) ∧
    (∀ k, k ≠ .message → k ≠ .memSpaceOff ∨ s.pcie.memSpace = false → ∃ t, exec (.unsupportedRequest k) s = .next t ∧ (∃ l, t.posted = l ++ s.posted ∧ .unsupported ∈ l) ∧ bit (reg t 0x18000).toNat 9 = true ∧ keepsRegs [] s t ∧ t.noAer = s.noAer) ∧
    ∃ t, exec (.unsupportedRequest .message) s = .next t ∧ bit (reg t 0x18000).toNat 7 = true ∧ keepsRegs [] s t ∧ t.noAer = s.noAer

/-- Sources fire, and vectors send, hold and release their messages. A source whose bit is 0 sets it, an error bit with its report; with its
EVMAP enabled and a vector that waits for nothing, one message is sent, and a vector that is held has its message pending. COALESCING_TIME
of a vector that is due sends its message or holds it; unmasking a vector sends the message that nothing else holds; clearing MSI-X Enable
discards what has accumulated and keeps what is pending. Beside the bit, vectors, messages, reports and counters nothing changes. (R11,
R217, R231, R232, R233, R234, R403.) -/
def Obligations.MsixSignalsAreSent : Prop :=
  ∀ s : State, Alive s →
    (∀ n off b, srcReg n = some (off, b) → srcDefined n = true → srcPresent s n = true → bit (reg s off).toNat b = false →
      ∃ t, exec (.sourceFire n) s = .next t ∧ bit (reg t off).toNat b = true ∧ (isError n = false → t.quiet = s.quiet) ∧ keepsRegs [] s t ∧ t.calm = s.calm ∧
        (isError n = true → ∃ e, tblFind t.errlog ((reg s 0x30).toNat % 256) = some e ∧ e.cause = n ∧ e.tick = s.tb.tick) ∧
        ∀ m v x w, m = reg s (0x10000 + 4 * n) → bit m.toNat 31 = true → v = fld m 10 0 → x = vec s v → w = reg s (0x14000 + 4 * v) →
          s.pcie.msixEn = true → x.pend = false → x.acc = 0 → (fld w 15 0 = 0 ∨ fld w 31 16 ≤ 1) →
          (vecHeld s v = false → ∃ l, t.posted = l ++ s.posted ∧ .msix x.addr x.data ∈ l) ∧ (vecHeld s v = true → (vec t v).pend = true)) ∧
    (∀ n off b, srcReg n = some (off, b) → bit (reg s off).toNat b = true → ∃ t, exec (.sourceFire n) s = .next t ∧ t = s) ∧
    (∀ v, (s.pcie.msixEn = false ∨ vecDue v s = false → ∃ t, exec (.coalescingTime v) s = .next t ∧ t = s) ∧
      (v < 2048 → s.pcie.msixEn = true → vecDue v s = true → ∃ t, exec (.coalescingTime v) s = .next t ∧ t.quiet = s.quiet ∧
        (vecHeld s v = false → (∃ l, t.posted = l ++ s.posted ∧ .msix (vec s v).addr (vec s v).data ∈ l) ∧
          ((tblGet s.ctrs msixSentOff { val := 0, ovf := false }).val + 1 ≠ 2 ^ 48 → (vec t v).acc = 0 ∧ (vec t v).pend = false)) ∧
        (vecHeld s v = true → t.posted = s.posted ∧ (vec t v).acc = 0 ∧ (vec t v).pend = true))) ∧
    (∀ v, v < 2048 → s.pcie.memSpace = true → ∃ t, exec (.msiXUnmask (some v)) s = .next t ∧ (vec t v).masked = false ∧ t.quiet = s.quiet ∧
      (s.pcie.msixEn = true → (vec s v).pend = true → s.pcie.fmask = false → s.pcie.bme = true → s.pcie.d3 = false →
        (vec t v).pend = false ∧ ∃ l, t.posted = l ++ s.posted ∧ .msix (vec s v).addr (vec s v).data ∈ l)) ∧
    (s.pcie.ready = true → ∃ t, exec (.msiXUnmask none) s = .next t ∧ t.pcie.fmask = false ∧
      ({ t with pcie := { t.pcie with fmask := s.pcie.fmask } } : State).quiet = s.quiet) ∧
    (s.pcie.ready = true → ∃ t, exec .msiXEnableClear s = .next t ∧ t.pcie.msixEn = false ∧ (∀ v, (vec t v).acc = 0 ∧ (vec t v).pend = (vec s v).pend) ∧
      t.posted = .readData [] false :: s.posted ∧
      ({ t with posted := s.posted, pcie := { t.pcie with msixEn := s.pcie.msixEn, vecs := s.pcie.vecs } } : State) = s)

/-- Completions, timeouts, the link, power states and configuration of the endpoint. With the engine ready, clearing Bus Master Enable halts
every ring, abandons every read and sets PEEVT.BMEOFF; setting it leaves halted rings as they are. Part of the data of a read is kept; the
last part of an entry fetch brings its entries; a poisoned or expired fetch halts its ring, and an expired tag is quarantined and reported.
A completion for no read is reported. QUARANTINE_END frees the tag, LINKCHG shows speed, width and FLIT mode, D3hot and D0 set the state,
AER_ERROR sets its status bit and event. A configuration request is retried until the engine is ready; then a read is answered and a write
of a field takes effect. (R214, R215, R216, R217, R224, R225, R226, R227, R228, R229, R242.) -/
def Obligations.EndpointEventsTakeEffect : Prop :=
  ∀ s : State, Alive s →
    (s.pcie.ready = true → s.pcie.bme = false → ∃ t, exec .busMasterEnableClear s = .next t ∧ t = post (.readData [] false) s) ∧
    (s.pcie.ready = true → s.pcie.bme = true → ∃ t, exec .busMasterEnableClear s = .next t ∧ t.pcie.bme = false ∧ t.pcie.waitq = [] ∧
      (∀ x ∈ t.pcie.reads, x.by_ = .abandoned) ∧
      (∀ r, (ring? s r).isSome = true → ∃ y, ring? t r = some y ∧ y.halted.isSome = true) ∧ bit (reg t 0x18000).toNat 5 = true) ∧
    (s.pcie.ready = true → ∃ t, exec .busMasterEnableSet s = .next t ∧ t.pcie.bme = true ∧ t.cmds = s.cmds ∧ t.jr = s.jr ∧ t.seqs = s.seqs ∧
      ∀ r x, ring? s r = some x → x.halted.isSome = true → ring? t r = some x) ∧
    (∀ tag bs p, readOf s tag = none → s.pcie.silent.contains tag = false → ∃ t, exec (.completion tag bs p) s = .next t ∧ bit (reg t 0x18000).toNat 2 = true ∧ t.rings = s.rings ∧ keepsRegs [0x18030] s t ∧ ({ t with regs := s.regs } : State).noAer = s.noAer) ∧
    (∀ tag bs x, readOf s tag = some x → x.data.length + bs.length < x.len → ∃ t, exec (.completion tag bs false) s = .next t ∧ readOf t tag = some { x with data := x.data ++ bs } ∧ ({ t with pcie := { t.pcie with reads := s.pcie.reads } } : State) = s) ∧
    (∀ tag bs x r g, readOf s tag = some x → x.by_ = .fetch r → ring? s r = some g → x.len ≤ x.data.length + bs.length → g.type = .sub →
      g.base ≤ x.addr → (x.addr - g.base) / 64 = g.got →
      ∃ t, exec (.completion tag bs false) s = .next t ∧ ring? t r = some { g with got := (g.got + x.len / 64) % g.z } ∧
        (∀ k, k ≠ r → ring? t k = ring? s k) ∧
        ({ t with rings := s.rings, pcie := { t.pcie with reads := s.pcie.reads, waitq := s.pcie.waitq } } : State).quiet = s.quiet) ∧
    (∀ tag bs x r g, readOf s tag = some x → x.by_ = .fetch r → ring? s r = some g → ∃ t, exec (.completion tag bs true) s = .next t ∧ (∃ y, ring? t r = some y ∧ y.halted = g.halted.or (some .poisonedFetch)) ∧ bit (reg t 0x18000).toNat 8 = true ∧
      ∀ k, k ≠ r → ring? t k = ring? s k) ∧
    (∀ tag, (readOf s tag = none ∨ ∃ x, readOf s tag = some x ∧ readExpired s x = false) → ∃ t, exec (.completionTimeout tag) s = .next t ∧ t = s) ∧
    (∀ tag x r g, readOf s tag = some x → readExpired s x = true → x.by_ = .fetch r → ring? s r = some g → ∃ t, exec (.completionTimeout tag) s = .next t ∧ (∃ y, ring? t r = some y ∧ y.halted = g.halted.or (some .fetchTimeout)) ∧ (t.pcie.quar.any fun q => q.1 == tag) = true ∧
      bit (reg t 0x18000).toNat 1 = true ∧ ∀ k, k ≠ r → ring? t k = ring? s k) ∧
    (∀ tag, (s.pcie.quar.any fun q => q.1 == tag && decide (q.2 ≤ s.tb.time)) = false → ∃ t, exec (.quarantineEnd tag) s = .next t ∧ t = s) ∧
    (∀ tag, (s.pcie.quar.any fun q => q.1 == tag && decide (q.2 ≤ s.tb.time)) = true → ∃ t, exec (.quarantineEnd tag) s = .next t ∧ t.pcie.quar = s.pcie.quar.filter (fun q => q.1 != tag) ∧ t.pcie.silent = s.pcie.silent.filter (fun x => x != tag) ∧
      ({ t with pcie := { t.pcie with quar := s.pcie.quar, silent := s.pcie.silent, reads := s.pcie.reads, waitq := s.pcie.waitq } } : State) = s) ∧
    (∀ v w f, linkOk v w f = true → ∃ t, exec (.linkchg v w f) s = .next t ∧ rf t 0x18004 31 29 = v ∧ rf t 0x18004 28 24 = w ∧
      rf t 0x18004 23 23 = b2n f ∧ (rf s 0x18004 31 29 ≠ v ∨ rf s 0x18004 28 24 ≠ w → bit (reg t 0x18000).toNat 3 = true) ∧
      keepsRegs [0x18004, 0x18008] s t ∧ ({ t with regs := s.regs, pcie := { t.pcie with ready := s.pcie.ready } } : State).quiet = s.quiet) ∧
    (s.pcie.ready = true → ∃ t, exec .d3hot s = .next t ∧ t = post (.readData [] false) { s with pcie := { s.pcie with d3 := true } }) ∧
    (s.pcie.ready = true → s.pcie.d3 = false → ∃ t, exec .returnToD0 s = .next t ∧ t = post (.readData [] false) s) ∧
    (s.pcie.ready = true → s.pcie.d3 = true → ∃ t, exec .returnToD0 s = .next t ∧ t.pcie.d3 = false ∧ t.cmds = s.cmds ∧ t.jr = s.jr ∧ t.seqs = s.seqs ∧
      ∀ r x, ring? s r = some x → x.halted.isSome = true → ring? t r = some x) ∧
    (∀ b, b < 32 → (∃ t, exec (.aerError .correctable b) s = .next t ∧ t.pcie.aerCor = s.pcie.aerCor ||| 2 ^ b ∧ bit (reg t 0x18000).toNat 6 = true ∧
        keepsRegs [] s t ∧ t.noAer = s.noAer) ∧
      ∃ t, exec (.aerError .uncorrectable b) s = .next t ∧ t.pcie.aerUnc = s.pcie.aerUnc ||| 2 ^ b ∧ bit (reg t 0x18000).toNat 7 = true ∧
        keepsRegs [] s t ∧ t.noAer = s.noAer) ∧
    (s.pcie.ready = false → (∀ off, ∃ t, exec (.configurationRequest (.read off)) s = .next t ∧ t = post .retry s) ∧
      ∀ x, ∃ t, exec (.configurationRequest (.memSpace x)) s = .next t ∧ t = post .retry s) ∧
    (s.pcie.ready = true → (∀ off, ∃ t, exec (.configurationRequest (.read off)) s = .next t ∧ t = post (.readData (leBytes 4 (cfgRead s (off / 4 * 4 % 4096)).toNat) false) s) ∧
      (∀ x, ∃ t, exec (.configurationRequest (.memSpace x)) s = .next t ∧ t = post (.readData [] false) { s with pcie := { s.pcie with memSpace := x } }) ∧
      ∀ n, n ∈ [128, 256, 512] → ∃ t, exec (.configurationRequest (.maxPayload n)) s = .next t ∧ t = post (.readData [] false) { s with pcie := { s.pcie with mps := n } })

/-- The slots of an orbit do what their entry says. In a slot of an orbit on a READY subchannel that begins now, with no change of table
due: TURN only passes; REF closes and blocks the banks of its rank for tRFC1 and REFSB those of its set for tRFCsb, counted as refreshes;
DRFM serves the oldest queued row of each bank of its set, moves a held row into the queue, and closes and blocks the set for tDRFMsb; WR
stores the oldest granule of its stream that it can take, else lends the slot to a waiting write, else is counted unused, and the COMMIT
entries whose records are then in DRAM are committed. Each passes one slot. A command that is not the action of the slot changes nothing,
but that COMMIT entries whose records are in DRAM are committed. ORBIT_BOUNDARY at slot 0 takes the table that HOT and FORCEHOT require and
sets DCHEVT.HOTCHG when it is another, and else does nothing. (R155, R164, R168, R169, R171, R175, R176, R178.) -/
def Obligations.OrbitSlotsRun : Prop :=
  ∀ (sc : Nat) (s : State), Alive s →
    (Slot s sc 5 → ∃ t, exec (.turn sc) s = .next t ∧ t = slotDone sc s) ∧
    (∀ n, Slot s sc n → (n ≠ 5 → ∃ t, exec (.turn sc) s = .next t ∧ t = s) ∧ (n ≠ 2 → ∃ t, exec (.ref sc) s = .next t ∧ t = s) ∧
      (n ≠ 3 → ∃ t, exec (.refsb sc) s = .next t ∧ t = s) ∧ (n ≠ 4 → ∃ t, exec (.drfm sc) s = .next t ∧ t = s) ∧
      (n ≠ 0 → ∀ a b, ∃ t, exec (.free sc a b) s = .next t ∧ t = tryCommitAll s) ∧ (n ≠ 1 → ∀ b, ∃ t, exec (.wr sc b) s = .next t ∧ t = tryCommitAll s)) ∧
    (Slot s sc 2 → ∃ t, exec (.ref sc) s = .next t ∧ Blocked s t sc s.dram.times.tRFC1 (rankBanks (slotArg s sc % 4)) ∧
      (∀ b, (dbank (sub t sc) b).queue = (dbank (sub s sc) b).queue ∧ (dbank (sub t sc) b).ovf = (dbank (sub s sc) b).ovf) ∧
      ({ t with dram := { t.dram with subs := s.dram.subs } } : State) = count (subCtr sc 6) s) ∧
    (Slot s sc 3 → ∃ t, exec (.refsb sc) s = .next t ∧ Blocked s t sc s.dram.times.tRFCsb (setBanks (slotArg s sc / 4 % 4) (slotArg s sc % 4)) ∧
      (∀ b, (dbank (sub t sc) b).queue = (dbank (sub s sc) b).queue ∧ (dbank (sub t sc) b).ovf = (dbank (sub s sc) b).ovf) ∧
      ({ t with dram := { t.dram with subs := s.dram.subs } } : State) = count (subCtr sc 6) s) ∧
    (Slot s sc 4 → ∃ t, exec (.drfm sc) s = .next t ∧ Blocked s t sc s.dram.times.tDRFMsb (setBanks (slotArg s sc / 4 % 4) (slotArg s sc % 4)) ∧
      (∀ b ∈ setBanks (slotArg s sc / 4 % 4) (slotArg s sc % 4),
        (∀ r rest, (dbank (sub s sc) b).queue = r :: rest → (dbank (sub t sc) b).queue = rest ++ (dbank (sub s sc) b).ovf.toList ∧
          (dbank (sub t sc) b).ovf = none) ∧
        ((dbank (sub s sc) b).queue = [] → (dbank (sub t sc) b).queue = [] ∧ (dbank (sub t sc) b).ovf = (dbank (sub s sc) b).ovf)) ∧
      ({ t with dram := { t.dram with subs := s.dram.subs } } : State).calm = s.calm) ∧
    (Slot s sc 1 →
      (∀ g, granFor s sc (slotArg s sc % 256) = some g → g.bytes.length = 64 → s.dram.mem.wf = true → ∃ t, exec (.wr sc none) s = .next t ∧ ∃ u, t = tryCommitAll u ∧ (sub u sc).slots = (sub s sc).slots + 1 ∧ memTake u.dram.mem g.addr 64 = g.bytes ∧
          (∀ a, a < g.addr ∨ g.addr + 64 ≤ a → memGet u.dram.mem a = memGet s.dram.mem a) ∧
          u.dram.rt = s.dram.rt.filter (fun h => h.arr != g.arr) ∧
          ({ u with dram := { u.dram with subs := s.dram.subs, mem := s.dram.mem, poison := s.dram.poison, rt := s.dram.rt } } : State).calm = s.calm) ∧
      (∀ r bs, granFor s sc (slotArg s sc % 256) = none → lentChoice s sc = some r → r.data = some bs → bs.length = 64 → r.addr % 64 = 0 →
        s.dram.mem.wf = true → ∃ t, exec (.wr sc none) s = .next t ∧ ∃ u, t = tryCommitAll u ∧ (sub u sc).slots = (sub s sc).slots + 1 ∧
          memTake u.dram.mem r.addr 64 = bs ∧ (∀ a, a < r.addr ∨ r.addr + 64 ≤ a → memGet u.dram.mem a = memGet s.dram.mem a) ∧
          (∀ q ∈ (sub u sc).reqs, q ∈ (sub s sc).reqs ∧ q.arr ≠ r.arr) ∧
          ((∀ j, r.by_ ≠ .journal j) →
            ({ u with seqs := s.seqs, dram := { u.dram with subs := s.dram.subs, mem := s.dram.mem, poison := s.dram.poison } } : State).calm = s.calm)) ∧
      (granFor s sc (slotArg s sc % 256) = none → lentChoice s sc = none → ∃ t, exec (.wr sc none) s = .next t ∧ t = tryCommitAll (slotDone sc (count (subCtr sc 1) s)))) ∧
    (subReady s sc = true → ∀ w, w = (if wantsHot s (sc / 2) then 2 else 1) →
      (orbOf s sc = 0 ∨ (sub s sc).slots % 4096 ≠ 0 ∨ orbOf s sc = w → ∃ t, exec (.orbitBoundary sc) s = .next t ∧ t = s) ∧
      (orbOf s sc ≠ 0 → (sub s sc).slots % 4096 = 0 → orbOf s sc ≠ w → ∃ t, exec (.orbitBoundary sc) s = .next t ∧ orbOf t sc = w ∧
        bit (reg t (chBase (sc / 2) + 8)).toNat 2 = true ∧ keepsRegs [chBase (sc / 2) + 4] s t ∧
        ({ t with regs := s.regs } : State).quiet = s.quiet))

/-- A FREE slot serves an overflowed bank, else the request that its class order gives. In a FREE slot that begins now, of an orbit or of
the idle schedule, on a READY subchannel: where an overflow register holds a row, a directed refresh of its bank set is carried out, and
DCHEVT.DRFMOVF set; else the request that R177 chooses is served: a granule read for the aperture is kept, and with the last one the read is
answered with its bytes; a corrected scrub read queues a write of the corrected granule at SC3 and is logged; a write is stored, and no
other byte changes; with nothing to carry the slot only passes, counted. COMMIT entries whose records are then in DRAM are committed. In
self-refresh FREE does nothing. A slot that passes adds 1 to the slots of the subchannel. (R155, R167, R176, R177, R182, R183, R184, R185,
R221.) -/
def Obligations.FreeSlotsCarryRequests : Prop :=
  ∀ (sc : Nat) (s : State), Alive s →
    (subReady s sc = true → orbOf s sc = 0 → srWrites s sc = false → ∀ e q, ∃ t, exec (.free sc e q) s = .next t ∧ t = s) ∧
    (FreeNow s sc → ∀ z, z = atFree s sc →
      (∀ e q b, overflowed s sc = some b → ∃ t, exec (.free sc e q) s = .next t ∧ ∃ u, t = tryCommitAll u ∧
        bit (reg u (chBase (sc / 2) + 8)).toNat 3 = true ∧ Blocked z u sc s.dram.times.tDRFMsb (setBanks (b / 32) (b % 4)) ∧
        ({ u with dram := { u.dram with subs := s.dram.subs } } : State).calm = s.calm) ∧
      (∀ e q, overflowed s sc = none → freeChoice z sc (freeWrites s sc) = none → (freeWrites s sc = true → traceReady z sc = false) →
        ∃ t, exec (.free sc e q) s = .next t ∧ t = tryCommitAll (slotDone sc (count (subCtr sc 5) z))) ∧
      (∀ r d id a n e, overflowed s sc = none → freeWrites s sc = false → freeChoice z sc false = some r → r.by_ = .part id → r.addr % 64 = 0 →
        (s.dram.reads.find? fun x => x.id == id) = some d → d.by_ = .aperture a n → poisonIn s r.addr 64 = [] →
        e = { d with left := d.left - 1, got := tblSet d.got r.addr (dramTake s r.addr 64) } →
        (2 ≤ d.left → ∃ t, exec (.free sc .good none) s = .next t ∧ ∃ u, t = tryCommitAll u ∧
          u.dram.reads = s.dram.reads.map (fun x => if x.id = id then e else x) ∧ (sub u sc).slots = (sub s sc).slots + 1 ∧
          (∀ q ∈ (sub u sc).reqs, q ∈ (sub s sc).reqs ∧ q.arr ≠ r.arr) ∧
          ({ u with dram := { u.dram with subs := s.dram.subs, reads := s.dram.reads } } : State).calm = s.calm) ∧
        (d.left = 1 → d.bad = [] → ∃ t, exec (.free sc .good none) s = .next t ∧ ∃ u, t = tryCommitAll u ∧
          (∃ l, u.posted = l ++ s.posted ∧ .readData (readBytes e a n) false ∈ l) ∧
          u.dram.reads = s.dram.reads.filter (fun x => x.id != id) ∧ (sub u sc).slots = (sub s sc).slots + 1 ∧
          (∀ q ∈ (sub u sc).reqs, q ∈ (sub s sc).reqs ∧ q.arr ≠ r.arr) ∧
          ({ u with dram := { u.dram with subs := s.dram.subs, reads := s.dram.reads } } : State).calm = s.calm)) ∧
      (∀ r d, overflowed s sc = none → freeWrites s sc = false → freeChoice z sc false = some r → r.by_ = .scrubRead → r.addr % 64 = 0 →
        subOf s r.addr = sc → s.dram.poison.contains r.addr = false → poisonIn s r.addr 64 = [] → (∀ g ∈ s.dram.rt, sameGran g.addr r.addr = false) →
        (∀ q ∈ (sub s sc).reqs, sameGran q.addr r.addr = true → q.data = none) → ∃ t, exec (.free sc (.corrected d) none) s = .next t ∧ ∃ u, t = tryCommitAll u ∧ t.dram.mem = s.dram.mem ∧ bit (reg u (chBase (sc / 2) + 8)).toNat 0 = true ∧
          (∃ q ∈ (sub u sc).reqs, q.addr = r.addr ∧ q.cls = 3 ∧ q.data = some (dramTake s r.addr 64) ∧ q.by_ = .scrubWrite) ∧
          keepsRegs [chBase (sc / 2) + 0x40, chBase (sc / 2) + 0x44] s u ∧
          ({ u with regs := s.regs, dram := { u.dram with subs := s.dram.subs, arr := s.dram.arr } } : State).calm = s.calm) ∧
      (∀ r bs, overflowed s sc = none → freeWrites s sc = true → freeChoice z sc true = some r → r.data = some bs → bs.length = 64 →
        r.addr % 64 = 0 → s.dram.mem.wf = true → ∃ t, exec (.free sc .good none) s = .next t ∧ ∃ u, t = tryCommitAll u ∧ memTake u.dram.mem r.addr 64 = bs ∧
          (∀ a, a < r.addr ∨ r.addr + 64 ≤ a → memGet u.dram.mem a = memGet s.dram.mem a) ∧
          (sub u sc).slots = (sub s sc).slots + 1 ∧ (∀ q ∈ (sub u sc).reqs, q ∈ (sub s sc).reqs ∧ q.arr ≠ r.arr) ∧
          ((∀ j, r.by_ ≠ .journal j) →
            ({ u with seqs := s.seqs, dram := { u.dram with subs := s.dram.subs, mem := s.dram.mem, poison := s.dram.poison } } : State).calm = s.calm)))

/-- DRAM outside its orbits: refresh, ageing, self-refresh, power-down, scrub and DIMM temperature. DIMM_THERMAL_READ shows the temperature
and sets HOT above 85 °C and clears it at or below 83 °C. IDLE_SCHEDULE_REFRESH, once its interval has passed, begins a round of refresh
commands, of which those due now close their banks and the others wait, and puts a waiting COMMIT in force. AGE_PROMO promotes exactly the
requests that have waited longer than AGE. SR_IDLE, on a subchannel that has been idle long enough with no request, begins to enter
self-refresh, and else does nothing. SELF_REFRESH_EXIT leaves it for a request that waits, after the minimum residence, with the sampling
LFSR at its seed. PRECHARGE_POWER_DOWN in PS1 closes every row and powers down. PATROL_SCRUB, when its time has come, puts an SC3 read of
the next granule into the subchannel. (R167, R171, R174, R177, R179, R184, R185, R347, R365.) -/
def Obligations.IdleDramWorkIsDone : Prop :=
  ∀ s : State, Alive s →
    (∀ ch x, ch < chCount s → chState s ch ≠ 0 → ∃ t, exec (.dimmThermalRead ch x) s = .next t ∧ reg t (chBase ch + 0xC) = BitVec.ofNat 32 (toField 16 x) ∧
      rf t (chBase ch + 4) 21 21 = (if 1360 < x then 1 else if x ≤ 1328 then 0 else rf s (chBase ch + 4) 21 21) ∧
      (∀ b, b < 32 → b ≠ 21 → bit (reg t (chBase ch + 4)).toNat b = bit (reg s (chBase ch + 4)).toNat b) ∧
      keepsRegs [chBase ch + 0xC, chBase ch + 4] s t ∧ ({ t with regs := s.regs } : State) = s) ∧
    ∀ sc x, sc < subCount s → x = sub s sc →
      (∀ m, subReady s sc = true → orbOf s sc = 0 → srWrites s sc = true → m = max x.slotAt (memTick s s.tb.time) →
        (x.refAt < s.tb.time + 32 → ∃ t, exec (.idleScheduleRefresh sc) s = .next t ∧ (sub t sc).refAt = max x.refAt s.tb.time + refInterval s sc ∧ (sub t sc).reqs = x.reqs ∧ (∀ c, c ≠ sc → sub t c = sub s c) ∧
          (∀ c ∈ roundOf s, (memTick s (s.tb.time + 32) ≤ m + memPs s c.1 → (m + memPs s c.1, c.2.1, c.2.2) ∈ (sub t sc).refq) ∧
            (m + memPs s c.1 < memTick s (s.tb.time + 32) → ∀ b ∈ c.2.2, (dbank (sub t sc) b).row = none)) ∧
          (∀ v, tblGet s.dram.refPend (sc / 2) [] = [v] → refInForce t (sc / 2) = v ∧ tblGet t.dram.refPend (sc / 2) [] = []) ∧
          (tblGet s.dram.refPend (sc / 2) [] = [] → t.dram.refIn = s.dram.refIn ∧ t.dram.refPend = s.dram.refPend) ∧ keepsRegs [] s t ∧
          ({ t with dram := { t.dram with subs := s.dram.subs, refIn := s.dram.refIn, refPend := s.dram.refPend } } : State).calm = s.calm) ∧
        (s.tb.time + 32 ≤ x.refAt → ∃ t, exec (.idleScheduleRefresh sc) s = .next t ∧ t = s)) ∧
      (∀ old, old = (fun r : DReq => !r.promoted && decide (r.at_ + rf s (chBase (sc / 2) + 0x18) 6 0 * usTicks < s.tb.time)) →
        ∃ t, exec (.agePromo sc) s = .next t ∧ sub t sc = { x with reqs := x.reqs.map fun r => if old r then { r with promoted := true } else r } ∧
          (∀ c, c ≠ sc → sub t c = sub s c) ∧
          ({ t with dram := { t.dram with subs := s.dram.subs } } : State) = countN (x.reqs.filter old).length (subCtr sc 11) s) ∧
      (∀ k, subReady s sc = true → orbOf s sc = 0 → capRunning s = false → x.sr = .awake → srIdleTicks s sc = some k →
        (x.reqs = [] → x.lastReq + k ≤ s.tb.time → ∃ t, exec (.srIdle sc) s = .next t ∧ t = setSub sc { x with sr := .entering s.tb.time } s) ∧
        (x.reqs ≠ [] ∨ s.tb.time < x.lastReq + k → ∃ t, exec (.srIdle sc) s = .next t ∧ t = s)) ∧
      (∀ k, x.reqs ≠ [] → x.sr = .asleep k → k + 7680 ≤ s.tb.time → ∃ t, exec (.selfRefreshExit sc) s = .next t ∧ t = setSub sc { x with lfsr := reg s (chBase (sc / 2) + 0x14), sr := .waking s.tb.time } s) ∧
      (x.reqs = [] ∨ (∀ k, x.sr ≠ .asleep k) → ∃ t, exec (.selfRefreshExit sc) s = .next t ∧ t = s) ∧
      (subReady s sc = true → orbOf s sc = 0 → x.sr = .awake → pwrState s = 1 → x.reqs = [] → ∃ t, exec (.prechargePowerDown sc) s = .next t ∧ (sub t sc).ppd = true ∧ (∀ b, (dbank (sub t sc) b).row = none) ∧ (∀ c, c ≠ sc → sub t c = sub s c) ∧
        ({ t with dram := { t.dram with subs := s.dram.subs } } : State) = s) ∧
      (pwrState s ≠ 1 → ∃ t, exec (.prechargePowerDown sc) s = .next t ∧ t = s) ∧
      (∀ a, subReady s sc = true → rf s (chBase (sc / 2) + 0x28) 31 31 = 1 → x.sr = .awake → pwrState s < 2 → scrubNext s sc = some a →
        (x.scrubDue < s.tb.time + 32 → ∃ t, exec (.patrolScrub sc) s = .next t ∧ (sub t sc).scrubAt = a + 64 ∧
          (sub t sc).scrubDue = max x.scrubDue s.tb.time + scrubGap s sc ∧
          (∃ r, (sub t sc).reqs = x.reqs ++ [r] ∧ r.addr = a ∧ r.cls = 3 ∧ r.data = none ∧ r.by_ = .scrubRead) ∧ (∀ c, c ≠ sc → sub t c = sub s c) ∧
          ({ t with dram := { t.dram with subs := s.dram.subs, arr := s.dram.arr } } : State) = s) ∧
        (s.tb.time + 32 ≤ x.scrubDue → ∃ t, exec (.patrolScrub sc) s = .next t ∧ t = s))

/-- Sensors, the warning, the critical condition, the peak capture and the trip. A good conversion shows its reading; THHOT shows the
hottest valid sensor; the warning enters when a valid sensor reads 100 °C or more and leaves when all read 97 °C or less; the critical
condition of the sensor enters at 105 °C and leaves at 103 °C. A failed one sets FAIL and THEVT.FAIL and keeps the reading. THERMAL_ESTIMATE
shows the credit at 310 W. PEAKEXP sets its event once in a peak capture that has outlasted its power. TRIP sets TRIPPED and PWREVT.TRIP,
and outside PS2 and PS3 ends every command but an ARM whose capture has ended, leaves every lane DISABLED or DOWN and every READY subchannel
in self-refresh or on its way into it, and the engine in PS2; a second comparator is only remembered. (R368, R369, R370, R371, R372, R374.)
-/
def Obligations.TemperatureActs : Prop :=
  ∀ s : State, Alive s →
    (∀ i (x : Int), i < 24 → -32768 ≤ x → x < 32768 → ∃ t, exec (.sensorConversion i (some x)) s = .next t ∧ reg t (0x50100 + 4 * i) = BitVec.ofNat 32 (2 ^ 31 + toField 16 x) ∧
      reg t 0x50010 = BitVec.ofNat 32 ((hottest t).1 * 65536 + toField 16 (hottest t).2) ∧
      (warnOn t = true ↔ if warnOn s then ∃ k, k < 24 ∧ sensorValid t k = true ∧ 1552 < sensorTemp t k
        else ∃ k, k < 24 ∧ sensorValid t k = true ∧ 1600 ≤ sensorTemp t k) ∧
      (bit t.pwr.crit i = if bit s.pwr.crit i then decide (1648 < x) else decide (1680 ≤ x)) ∧
      keepsRegs [0x50100 + 4 * i, 0x50010, 0x50000] s t ∧ ({ t with regs := s.regs, pwr := s.pwr } : State).calm = s.calm) ∧
    (∀ i, i < 24 → ∃ t, exec (.sensorConversion i none) s = .next t ∧ sensorValid t i = false ∧ rf t (0x50100 + 4 * i) 30 30 = 1 ∧
      rf t (0x50100 + 4 * i) 15 0 = rf s (0x50100 + 4 * i) 15 0 ∧ bit (reg t (0x50200 + 4 * i)).toNat 3 = true ∧
      keepsRegs [0x50100 + 4 * i, 0x50010, 0x50000] s t ∧ ({ t with regs := s.regs } : State).calm = s.calm) ∧
    (∃ t, exec .thermalEstimate s = .next t ∧ reg t 0x50014 = BitVec.ofNat 32 (credit s 310) ∧
      reg t 0x50010 = BitVec.ofNat 32 ((hottest s).1 * 65536 + toField 16 (hottest s).2) ∧ keepsRegs [0x50010, 0x50014, 0x50000] s t ∧
      ({ t with regs := s.regs } : State).calm = s.calm) ∧
    (rf s 0x50000 24 24 = 1 → s.pwr.peakDone = false → pTpeak (plan s) ≤ pwrPeak s → ∃ t, exec .peakexp s = .next t ∧ bit (reg t 0x50004).toNat 6 = true ∧ t.pwr = { s.pwr with peakDone := true } ∧ ({ t with pwr := s.pwr } : State).quiet = s.quiet) ∧
    (rf s 0x50000 24 24 ≠ 1 ∨ s.pwr.peakDone = true ∨ pwrPeak s < pTpeak (plan s) → ∃ t, exec .peakexp s = .next t ∧ t = s) ∧
    (∀ i, i < 24 → tripped s = true → ∃ t, exec (.trip i) s = .next t ∧ t = { s with pwr := { s.pwr with comps := s.pwr.comps ||| 2 ^ i } }) ∧
    (∀ i, i < 24 → tripped s = false → ∃ t, exec (.trip i) s = .next t ∧ tripped t = true ∧ bit (reg t 0x50004).toNat 4 = true ∧ bit t.pwr.comps i = true ∧
      (2 ≤ pwrState s → s.pwr.orders = [] → keepsRegs [0x50000] s t ∧ ({ t with regs := s.regs, pwr := s.pwr } : State).calm = s.calm) ∧
      (pwrState s < 2 → s.pwr.warm = false → pwrState t = 2 ∧ rf t 0x50000 27 27 = 0 ∧ (∀ c ∈ t.cmds, c.opcode = opArm) ∧
        (∀ n, linkPresent s n = true → laneState t n = lnDisabled ∨ laneState t n = lnDown) ∧
        (∀ sc, sc < subCount s → chState t (sc / 2) = 3 → (sub t sc).sr ≠ .awake) ∧ t.au.trigOut = false ∧ t.cap.state ≠ .running ∧ t.cap.state ≠ .waiting))

/-- What each reset leaves. SYS_RESET_N samples the straps, and leaves the timebase in INITIAL with the counter at 0, no ring, command, job
or plan, every lane DISABLED, every channel UNPOP, the control stores of the flash, and the contents of the scratch banks. WARM_RESET_N of
at least 1 µs leaves the tick counter, the timebase and the banks as they were, no ring, job, plan or sequencer state, every lane DISABLED
and a warm reset in progress; WARM_RESET_RELEASE waits for the end of its 30 µs step and then ends it with the boot image loaded, in PS0
with no subchannel left in self-refresh, or in PS2 when tripped; a low time below 200 ns does nothing. FLR, which is retried until the
engine is ready, PCIe hot reset and PERST# leave no ring, no Bus Master Enable, no custody and every outstanding tag in quarantine, and the
plans, the capture, the lanes and the counter as they were; they do nothing during a warm reset. (R23, R25, R26, R27, R28, R66, R217, R230,
R346, R362, R377, R391.) -/
def Obligations.ResetsTakeEffect : Prop :=
  (∀ (r : BitVec 2) b f m s, ∃ t, exec (.sysResetN r b f m) s = .next t ∧ t.refstrap = r.toNat ∧ t.bscan = b ∧ t.part = s.part ∧ t.tb.tick = 0 ∧
      tbState t = tbInitial ∧ t.tb.act = TbSettings.ofStrap r.toNat ∧ t.tb.dead = false ∧ t.rings = [] ∧ t.cmds = [] ∧ t.jobs = [] ∧
      t.plans = State.reset.plans ∧ (∀ n, n < 132 → laneState t n = lnDisabled) ∧ (∀ ch, ch < 8 → chState t ch = 0) ∧
      t.stores.flash = f ∧ t.stores.base = bootImage f ∧ t.banks.mem = s.banks.mem ∧ t.banks.poison = s.banks.poison ∧
      t.jtag.testMode = (b && testCode s.jtag.ir) ∧ (s.pwr.comps = 0 → pwrState t = 0 ∧ tripped t = false)) ∧
    (∀ n s, Alive s →
      (n < 200 ∨ s.pwr.warm = true → ∃ t, exec (.warmResetN n) s = .next t ∧ t = s) ∧
      (1000 ≤ n → s.pwr.warm = false → ∃ t, exec (.warmResetN n) s = .next t ∧ t.pwr.warm = true ∧ t.rings = [] ∧ t.jobs = [] ∧
        t.plans = State.reset.plans ∧ (∀ q, q < seqCount s → (sq t q).state = .idle) ∧ t.tb.tick = s.tb.tick ∧
        t.tb.act = s.tb.act ∧ tbState t = tbState s ∧ t.banks.mem = s.banks.mem ∧ (∀ k, k < 132 → laneState t k = lnDisabled) ∧ t.pcie.bme = false ∧
        t.pcie.ready = false ∧ custody t = false ∧ t.cap = Cap.reset ∧ (∀ c ∈ t.cmds, c.opcode = opArm))) ∧
    (∀ s, Alive s → (s.pwr.warm = false → ∃ t, exec .warmResetRelease s = .next t ∧ t = s) ∧
      (s.pwr.warm = true → warmOver s = false → ∃ t, exec .warmResetRelease s = .next t ∧ t = { s with pwr := { s.pwr with released := true } }) ∧
      (s.pwr.warm = true → warmOver s = true → ∃ t, exec .warmResetRelease s = .next t ∧ t.pwr.warm = false ∧ t.stores.base = bootImage s.stores.flash ∧
        pwrState t = (if tripped s then 2 else 0) ∧ rf t 0x50000 27 27 = 0 ∧ (tripped s = false → ∀ sc k, sc < subCount s → (sub t sc).sr ≠ .asleep k) ∧
        (s.jr.inForce = false → t.jr = s.jr) ∧ t.tb = s.tb ∧ t.banks = s.banks ∧ t.lanes = s.lanes)) ∧
    ∀ s, Alive s →
      (s.pcie.ready = false → ∃ t, exec .flr s = .next t ∧ t = post .retry s) ∧
      (s.pcie.ready = true → s.pwr.warm = false → s.plans.admitting = none → ∃ t, exec .flr s = .next t ∧ t.rings = [] ∧ t.pcie.bme = false ∧
        t.pcie.memSpace = false ∧ t.pcie.reads = [] ∧ (∀ x ∈ s.pcie.reads, (t.pcie.quar.any fun q => q.1 == x.tag) = true) ∧ t.pcie.ready = true ∧
        custody t = false ∧ bit (reg t 0x18000).toNat 16 = true ∧ t.plans = s.plans ∧ t.cap = s.cap ∧ t.lanes = s.lanes ∧ t.tb.tick = s.tb.tick) ∧
      (s.pwr.warm = true → (∃ t, exec .pcieHotReset s = .next t ∧ t = s) ∧ ∃ t, exec .perst s = .next t ∧ t = s) ∧
      (s.pwr.warm = false → s.plans.admitting = none →
        (∃ t, exec .pcieHotReset s = .next t ∧ t.rings = [] ∧ t.pcie.bme = false ∧
          t.pcie.memSpace = false ∧ t.pcie.reads = [] ∧ (∀ x ∈ s.pcie.reads, (t.pcie.quar.any fun q => q.1 == x.tag) = true) ∧ t.pcie.ready = false ∧
          custody t = false ∧ bit (reg t 0x18000).toNat 16 = true ∧ t.plans = s.plans ∧ t.cap = s.cap ∧ t.lanes = s.lanes ∧ t.tb.tick = s.tb.tick) ∧
        ∃ t, exec .perst s = .next t ∧ t.rings = [] ∧ t.pcie.bme = false ∧
          t.pcie.memSpace = false ∧ t.pcie.reads = [] ∧ (∀ x ∈ s.pcie.reads, (t.pcie.quar.any fun q => q.1 == x.tag) = true) ∧ t.pcie.ready = false ∧
          custody t = false ∧ bit (reg t 0x18000).toNat 16 = true ∧ t.plans = s.plans ∧ t.cap = s.cap ∧ t.lanes = s.lanes ∧ t.tb.tick = s.tb.tick)

/-- On an LC2048-HA the host owns S5, S6, S9 and S10 at reset. After SYS_RESET_N, and after a warm reset, of an LC2048-HA the owner of
scratch banks 5, 6, 9 and 10 is MHW (code 0xB). (R4.) -/
def Obligations.HostOwnsTheBanksOfAbsentMasters : Prop :=
  ∀ s : State, s.part = .ha →
    (∀ r b f m, ∃ t, exec (.sysResetN r b f m) s = .next t ∧ t.part = .ha ∧ ∀ k ∈ [5, 6, 9, 10], ownerOf t k = 0xB) ∧
    (∀ n, Alive s → 1000 ≤ n → s.pwr.warm = false → ∃ t, exec (.warmResetN n) s = .next t ∧ t.part = .ha ∧ ∀ k ∈ [5, 6, 9, 10], ownerOf t k = 0xB)
end

