-- ==== Sys2Proof/Laws/Tables.lean ====
section
/-! SUPPORT. Laws of the sparse tables and memories: a read after a write, and the canonical form. -/

namespace Sys2Proof.Machine

/-! ### Tables -/

/-- A key reads as it was set. -/
@[simp] theorem tblGet_tblSet_same {α : Type} (t : Tbl α) (k : Nat) (x d : α) : tblGet (tblSet t k x) k d = x := by
  induction t with
  | nil => simp [tblSet, tblGet]
  | cons e t ih =>
    obtain ⟨j, v⟩ := e
    simp only [tblSet]
    split
    · simp only [tblGet]; rw [if_neg (by omega), ih]
    · split <;> simp [tblGet]

/-- Another key reads as before. -/
theorem tblGet_tblSet_ne {α : Type} (t : Tbl α) {k j : Nat} (x d : α) (h : j ≠ k) : tblGet (tblSet t k x) j d = tblGet t j d := by
  induction t with
  | nil => simp [tblSet, tblGet, Ne.symm h]
  | cons e t ih =>
    obtain ⟨i, v⟩ := e
    simp only [tblSet]
    split
    · simp only [tblGet, ih]
    · split
      · subst_vars; simp [tblGet, Ne.symm h]
      · simp only [tblGet]; rw [if_neg (Ne.symm h)]

/-- The same of the listed keys. -/
@[simp] theorem tblFind_tblSet_same {α : Type} (t : Tbl α) (k : Nat) (x : α) : tblFind (tblSet t k x) k = some x := by
  induction t with
  | nil => simp [tblSet, tblFind]
  | cons e t ih =>
    obtain ⟨j, v⟩ := e
    simp only [tblSet]
    split
    · simp only [tblFind]; rw [if_neg (by omega), ih]
    · split <;> simp [tblFind]

theorem tblFind_tblSet_ne {α : Type} (t : Tbl α) {k j : Nat} (x : α) (h : j ≠ k) : tblFind (tblSet t k x) j = tblFind t j := by
  induction t with
  | nil => simp [tblSet, tblFind, Ne.symm h]
  | cons e t ih =>
    obtain ⟨i, v⟩ := e
    simp only [tblSet]
    split
    · simp only [tblFind, ih]
    · split
      · subst_vars; simp [tblFind, Ne.symm h]
      · simp only [tblFind]; rw [if_neg (Ne.symm h)]

/-- A filter by key does not see a key that it drops. -/
theorem filter_tblSet {α : Type} (t : Tbl α) (k : Nat) (x : α) (p : Nat → Bool) (h : p k = false) :
    (tblSet t k x).filter (fun e => p e.1) = t.filter fun e => p e.1 := by
  induction t with
  | nil => simp [tblSet, h]
  | cons e t ih =>
    obtain ⟨j, v⟩ := e
    simp only [tblSet]
    split
    · simp [List.filter_cons, ih]
    · split
      · subst_vars; simp [h]
      · simp [List.filter_cons, h]

/-- A key that a filter keeps reads through it. -/
theorem tblGet_filter {α : Type} (t : Tbl α) (k : Nat) (d : α) (p : Nat → Bool) (h : p k = true) :
    tblGet (t.filter fun e => p e.1) k d = tblGet t k d := by
  induction t with
  | nil => rfl
  | cons e t ih =>
    obtain ⟨j, v⟩ := e
    by_cases hj : j = k
    · subst hj; simp [h, tblGet]
    · by_cases hp : p j = true
      · simp [hp, tblGet, hj, ih]
      · simp [hp, tblGet, hj, ih]

/-- Setting a key keeps the keys rising. -/
theorem wfFrom_tblSet {α : Type} (t : Tbl α) (lo k : Nat) (x : α) (hk : lo ≤ k) (h : Tbl.wfFrom lo t = true) :
    Tbl.wfFrom lo (tblSet t k x) = true := by
  induction t generalizing lo with
  | nil => simp [tblSet, Tbl.wfFrom, hk]
  | cons e t ih =>
    obtain ⟨j, v⟩ := e
    simp only [Tbl.wfFrom, Bool.and_eq_true, decide_eq_true_eq] at h
    simp only [tblSet]
    split
    · simp only [Tbl.wfFrom, Bool.and_eq_true, decide_eq_true_eq]
      exact ⟨h.1, ih (j + 1) (by omega) h.2⟩
    · split
      · subst_vars; simp [Tbl.wfFrom, h.1, h.2]
      · simp only [Tbl.wfFrom, Bool.and_eq_true, decide_eq_true_eq]
        exact ⟨hk, by omega, h.2⟩

/-! ### Memories -/

/-- A canonical memory lists nothing below its bound. -/
theorem memGet_below (m : Mem) (lo a : Nat) (h : Mem.wfFrom lo m = true) (ha : a < lo) : memGet m a = 0 := by
  induction m generalizing lo with
  | nil => rfl
  | cons e m ih =>
    obtain ⟨x, b⟩ := e
    simp only [Mem.wfFrom, Bool.and_eq_true, decide_eq_true_eq] at h
    simp only [memGet]
    rw [if_neg (by omega)]
    exact ih (x + 1) h.2 (by omega)

/-- A byte written in a canonical memory reads back. -/
theorem memGet_memSet_same (m : Mem) (lo a : Nat) (v : Byte) (h : Mem.wfFrom lo m = true) : memGet (memSet m a v) a = v := by
  induction m generalizing lo with
  | nil => simp only [memSet]; split <;> simp_all [memGet]
  | cons e m ih =>
    obtain ⟨x, b⟩ := e
    simp only [Mem.wfFrom, Bool.and_eq_true, decide_eq_true_eq] at h
    simp only [memSet]
    split
    · simp only [memGet]; rw [if_neg (by omega), ih (x + 1) h.2]
    · split
      · split
        · subst_vars; exact memGet_below m (x + 1) x h.2 (by omega)
        · simp [memGet]
      · split
        · subst_vars
          simp only [memGet]; rw [if_neg (by omega)]
          exact memGet_below m (x + 1) a h.2 (by omega)
        · simp [memGet]

/-- Every other byte is as before, in any memory. -/
theorem memGet_memSet_ne (m : Mem) {a c : Nat} (v : Byte) (hc : c ≠ a) : memGet (memSet m a v) c = memGet m c := by
  induction m with
  | nil => simp only [memSet]; split <;> simp [memGet, Ne.symm hc]
  | cons e m ih =>
    obtain ⟨x, b⟩ := e
    simp only [memSet]
    split
    · simp only [memGet, ih]
    · split
      · subst_vars
        split
        · simp only [memGet]; rw [if_neg (Ne.symm hc)]
        · simp only [memGet]; rw [if_neg (Ne.symm hc), if_neg (Ne.symm hc)]
      · split
        · rfl
        · simp only [memGet]; rw [if_neg (Ne.symm hc)]

/-- A write keeps the canonical form. -/
theorem wfFrom_memSet (m : Mem) (lo a : Nat) (v : Byte) (ha : lo ≤ a) (h : Mem.wfFrom lo m = true) :
    Mem.wfFrom lo (memSet m a v) = true := by
  induction m generalizing lo with
  | nil => simp only [memSet]; split <;> simp_all [Mem.wfFrom]
  | cons e m ih =>
    obtain ⟨x, b⟩ := e
    have h' := h
    simp only [Mem.wfFrom, Bool.and_eq_true, decide_eq_true_eq, bne_iff_ne] at h
    have drop : Mem.wfFrom lo m = true := by
      cases m with
      | nil => rfl
      | cons e m =>
        obtain ⟨y, c⟩ := e
        have h2 := h.2
        simp only [Mem.wfFrom, Bool.and_eq_true, decide_eq_true_eq, bne_iff_ne] at h2 ⊢
        exact ⟨⟨by omega, h2.1.2⟩, h2.2⟩
    simp only [memSet]
    split
    · simp only [Mem.wfFrom, Bool.and_eq_true, decide_eq_true_eq, bne_iff_ne]
      exact ⟨h.1, ih (x + 1) (by omega) h.2⟩
    · split
      · split
        · exact drop
        · subst_vars
          simp only [Mem.wfFrom, Bool.and_eq_true, decide_eq_true_eq, bne_iff_ne]
          exact ⟨⟨ha, by assumption⟩, h.2⟩
      · split
        · exact h'
        · simp only [Mem.wfFrom, Bool.and_eq_true, decide_eq_true_eq, bne_iff_ne]
          exact ⟨⟨ha, by assumption⟩, ⟨by omega, h.1.2⟩, h.2⟩

theorem wf_memSet (m : Mem) (a : Nat) (v : Byte) (h : m.wf = true) : (memSet m a v).wf = true :=
  wfFrom_memSet m 0 a v (Nat.zero_le a) h

/-- A byte string written keeps the canonical form. -/
theorem wf_memPut (bs : List Byte) (m : Mem) (a : Nat) (h : m.wf = true) : (memPut m a bs).wf = true := by
  induction bs generalizing m a with
  | nil => exact h
  | cons b bs ih => exact ih _ _ (wf_memSet m a b h)

/-- Bytes outside a byte string written are as before. -/
theorem memGet_memPut_outside (bs : List Byte) (m : Mem) (a c : Nat) (hc : c < a ∨ a + bs.length ≤ c) :
    memGet (memPut m a bs) c = memGet m c := by
  induction bs generalizing m a with
  | nil => rfl
  | cons b bs ih =>
    simp only [List.length_cons] at hc
    simp only [memPut]
    rw [ih _ _ (by omega), memGet_memSet_ne _ _ (by omega)]

/-- A byte string written in a canonical memory reads back. -/
theorem memTake_memPut (bs : List Byte) (m : Mem) (a : Nat) (h : m.wf = true) : memTake (memPut m a bs) a bs.length = bs := by
  induction bs generalizing m a with
  | nil => rfl
  | cons b bs ih =>
    simp only [List.length_cons, memTake, memPut]
    rw [memGet_memPut_outside bs _ _ _ (by omega), memGet_memSet_same m 0 a b h, ih _ _ (wf_memSet m a b h)]

/-- Every memory of the state after reset is in canonical form. -/
theorem reset_memories_wf :
    State.reset.dram.mem.wf = true ∧ State.reset.banks.mem.wf = true := ⟨rfl, rfl⟩

/-! ### Numbers in memory -/

@[simp] theorem leBytes_length (n v : Nat) : (leBytes n v).length = n := by
  induction n generalizing v with
  | zero => rfl
  | succ n ih => simp [leBytes, ih]

/-- A number of `n` bytes reads back. -/
theorem leVal_leBytes (n v : Nat) : leVal (leBytes n v) = v % 256 ^ n := by
  induction n generalizing v with
  | zero => simp [leBytes, leVal, Nat.mod_one]
  | succ n ih =>
    simp only [leBytes, leVal, ih]
    have h : v % 256 ^ (n + 1) = v % 256 + 256 * (v / 256 % 256 ^ n) := by
      rw [Nat.pow_succ, Nat.mul_comm (256 ^ n) 256, Nat.mod_mul]
    rw [h, BitVec.toNat_ofNat]

end Sys2Proof.Machine
end

