-- ==== Sys2Proof/Laws/State.lean ====
section
/-! SUPPORT. One lemma per field and update of the state: an update changes its own field and no other, so that no proof unfolds a record
update; and what each update makes of its own field. -/

namespace Sys2Proof.Machine

variable (s : State)

/-! ### The field an update sets -/

@[simp] theorem reg_setReg_same (off : Nat) (v : W32) : reg (setReg off v s) off = v := by simp [reg, setReg]
theorem reg_setReg_ne {off o : Nat} (v : W32) (h : o ≠ off) : reg (setReg off v s) o = reg s o := by
  simp [reg, setReg, tblGet_tblSet_ne _ _ _ h]
theorem reg_setRf_ne {off o : Nat} (hi lo x : Nat) (h : o ≠ off) : reg (setRf off hi lo x s) o = reg s o := reg_setReg_ne s _ h
@[simp] theorem lane_setLane_same (n : Nat) (x : LaneSt) : lane (setLane n x s) n = x := by simp [lane, setLane]
theorem lane_setLane_ne {n k : Nat} (x : LaneSt) (h : k ≠ n) : lane (setLane n x s) k = lane s k := by
  simp [lane, setLane, tblGet_tblSet_ne _ _ _ h]
@[simp] theorem strm_setStrm_same (i : Nat) (x : Stream) : strm (setStrm i x s) i = x := by simp [strm, setStrm]
theorem strm_setStrm_ne {i k : Nat} (x : Stream) (h : k ≠ i) : strm (setStrm i x s) k = strm s k := by
  simp [strm, setStrm, tblGet_tblSet_ne _ _ _ h]
@[simp] theorem sub_setSub_same (i : Nat) (x : SubCh) : sub (setSub i x s) i = x := by simp [sub, setSub]
theorem sub_setSub_ne {i k : Nat} (x : SubCh) (h : k ≠ i) : sub (setSub i x s) k = sub s k := by
  simp [sub, setSub, tblGet_tblSet_ne _ _ _ h]
@[simp] theorem sq_setSq_same (q : Nat) (x : Seqr) : sq (setSq q x s) q = x := by simp [sq, setSq]
theorem sq_setSq_ne {q k : Nat} (x : Seqr) (h : k ≠ q) : sq (setSq q x s) k = sq s k := by simp [sq, setSq, tblGet_tblSet_ne _ _ _ h]
@[simp] theorem ring_setRing_same (r : Nat) (x : Ring) : ring? (setRing r x s) r = some x := by simp [ring?, setRing]
theorem ring_setRing_ne {r k : Nat} (x : Ring) (h : k ≠ r) : ring? (setRing r x s) k = ring? s k := by
  simp [ring?, setRing, tblFind_tblSet_ne _ _ h]
@[simp] theorem vec_setVec_same (v : Nat) (x : Vec) : vec (setVec v x s) v = x := by simp [vec, setVec]
theorem vec_setVec_ne {v k : Nat} (x : Vec) (h : k ≠ v) : vec (setVec v x s) k = vec s k := by
  simp [vec, setVec, tblGet_tblSet_ne _ _ _ h]
@[simp] theorem post_posted (p : Posted) : (post p s).posted = p :: s.posted := rfl
@[simp] theorem sendFrame_sent (n : Nat) (f : TxFrame) : (sendFrame n f s).sent = (n, f) :: s.sent := rfl
@[simp] theorem advanceSlice_time : (advanceSlice s).tb.time = s.tb.time + 32 := rfl
@[simp] theorem withPending_pending (q : List Instr) : (s.withPending q).pending = q := rfl

/-! ### The fields it leaves -/

@[simp] theorem setReg_part (off : Nat) (v : W32) : (setReg off v s).part = s.part := rfl
@[simp] theorem setReg_refstrap (off : Nat) (v : W32) : (setReg off v s).refstrap = s.refstrap := rfl
@[simp] theorem setReg_bscan (off : Nat) (v : W32) : (setReg off v s).bscan = s.bscan := rfl
@[simp] theorem setReg_ctrs (off : Nat) (v : W32) : (setReg off v s).ctrs = s.ctrs := rfl
@[simp] theorem setReg_hold (off : Nat) (v : W32) : (setReg off v s).hold = s.hold := rfl
@[simp] theorem setReg_latch (off : Nat) (v : W32) : (setReg off v s).latch = s.latch := rfl
@[simp] theorem setReg_errlog (off : Nat) (v : W32) : (setReg off v s).errlog = s.errlog := rfl
@[simp] theorem setReg_guard (off : Nat) (v : W32) : (setReg off v s).guard = s.guard := rfl
@[simp] theorem setReg_tb (off : Nat) (v : W32) : (setReg off v s).tb = s.tb := rfl
@[simp] theorem setReg_house (off : Nat) (v : W32) : (setReg off v s).house = s.house := rfl
@[simp] theorem setReg_lanes (off : Nat) (v : W32) : (setReg off v s).lanes = s.lanes := rfl
@[simp] theorem setReg_train (off : Nat) (v : W32) : (setReg off v s).train = s.train := rfl
@[simp] theorem setReg_sent (off : Nat) (v : W32) : (setReg off v s).sent = s.sent := rfl
@[simp] theorem setReg_plans (off : Nat) (v : W32) : (setReg off v s).plans = s.plans := rfl
@[simp] theorem setReg_au (off : Nat) (v : W32) : (setReg off v s).au = s.au := rfl
@[simp] theorem setReg_cap (off : Nat) (v : W32) : (setReg off v s).cap = s.cap := rfl
@[simp] theorem setReg_streams (off : Nat) (v : W32) : (setReg off v s).streams = s.streams := rfl
@[simp] theorem setReg_jr (off : Nat) (v : W32) : (setReg off v s).jr = s.jr := rfl
@[simp] theorem setReg_dram (off : Nat) (v : W32) : (setReg off v s).dram = s.dram := rfl
@[simp] theorem setReg_rings (off : Nat) (v : W32) : (setReg off v s).rings = s.rings := rfl
@[simp] theorem setReg_cmds (off : Nat) (v : W32) : (setReg off v s).cmds = s.cmds := rfl
@[simp] theorem setReg_jobs (off : Nat) (v : W32) : (setReg off v s).jobs = s.jobs := rfl
@[simp] theorem setReg_cxSteps (off : Nat) (v : W32) : (setReg off v s).cxSteps = s.cxSteps := rfl
@[simp] theorem setReg_pcie (off : Nat) (v : W32) : (setReg off v s).pcie = s.pcie := rfl
@[simp] theorem setReg_posted (off : Nat) (v : W32) : (setReg off v s).posted = s.posted := rfl
@[simp] theorem setReg_seqs (off : Nat) (v : W32) : (setReg off v s).seqs = s.seqs := rfl
@[simp] theorem setReg_stores (off : Nat) (v : W32) : (setReg off v s).stores = s.stores := rfl
@[simp] theorem setReg_banks (off : Nat) (v : W32) : (setReg off v s).banks = s.banks := rfl
@[simp] theorem setReg_pwr (off : Nat) (v : W32) : (setReg off v s).pwr = s.pwr := rfl
@[simp] theorem setReg_trace (off : Nat) (v : W32) : (setReg off v s).trace = s.trace := rfl
@[simp] theorem setReg_snap (off : Nat) (v : W32) : (setReg off v s).snap = s.snap := rfl
@[simp] theorem setReg_jtag (off : Nat) (v : W32) : (setReg off v s).jtag = s.jtag := rfl
@[simp] theorem setReg_fresh (off : Nat) (v : W32) : (setReg off v s).fresh = s.fresh := rfl
@[simp] theorem setReg_pending (off : Nat) (v : W32) : (setReg off v s).pending = s.pending := rfl
@[simp] theorem setRf_part (off hi lo x : Nat) : (setRf off hi lo x s).part = s.part := rfl
@[simp] theorem setRf_refstrap (off hi lo x : Nat) : (setRf off hi lo x s).refstrap = s.refstrap := rfl
@[simp] theorem setRf_bscan (off hi lo x : Nat) : (setRf off hi lo x s).bscan = s.bscan := rfl
@[simp] theorem setRf_ctrs (off hi lo x : Nat) : (setRf off hi lo x s).ctrs = s.ctrs := rfl
@[simp] theorem setRf_hold (off hi lo x : Nat) : (setRf off hi lo x s).hold = s.hold := rfl
@[simp] theorem setRf_latch (off hi lo x : Nat) : (setRf off hi lo x s).latch = s.latch := rfl
@[simp] theorem setRf_errlog (off hi lo x : Nat) : (setRf off hi lo x s).errlog = s.errlog := rfl
@[simp] theorem setRf_guard (off hi lo x : Nat) : (setRf off hi lo x s).guard = s.guard := rfl
@[simp] theorem setRf_tb (off hi lo x : Nat) : (setRf off hi lo x s).tb = s.tb := rfl
@[simp] theorem setRf_house (off hi lo x : Nat) : (setRf off hi lo x s).house = s.house := rfl
@[simp] theorem setRf_lanes (off hi lo x : Nat) : (setRf off hi lo x s).lanes = s.lanes := rfl
@[simp] theorem setRf_train (off hi lo x : Nat) : (setRf off hi lo x s).train = s.train := rfl
@[simp] theorem setRf_sent (off hi lo x : Nat) : (setRf off hi lo x s).sent = s.sent := rfl
@[simp] theorem setRf_plans (off hi lo x : Nat) : (setRf off hi lo x s).plans = s.plans := rfl
@[simp] theorem setRf_au (off hi lo x : Nat) : (setRf off hi lo x s).au = s.au := rfl
@[simp] theorem setRf_cap (off hi lo x : Nat) : (setRf off hi lo x s).cap = s.cap := rfl
@[simp] theorem setRf_streams (off hi lo x : Nat) : (setRf off hi lo x s).streams = s.streams := rfl
@[simp] theorem setRf_jr (off hi lo x : Nat) : (setRf off hi lo x s).jr = s.jr := rfl
@[simp] theorem setRf_dram (off hi lo x : Nat) : (setRf off hi lo x s).dram = s.dram := rfl
@[simp] theorem setRf_rings (off hi lo x : Nat) : (setRf off hi lo x s).rings = s.rings := rfl
@[simp] theorem setRf_cmds (off hi lo x : Nat) : (setRf off hi lo x s).cmds = s.cmds := rfl
@[simp] theorem setRf_jobs (off hi lo x : Nat) : (setRf off hi lo x s).jobs = s.jobs := rfl
@[simp] theorem setRf_cxSteps (off hi lo x : Nat) : (setRf off hi lo x s).cxSteps = s.cxSteps := rfl
@[simp] theorem setRf_pcie (off hi lo x : Nat) : (setRf off hi lo x s).pcie = s.pcie := rfl
@[simp] theorem setRf_posted (off hi lo x : Nat) : (setRf off hi lo x s).posted = s.posted := rfl
@[simp] theorem setRf_seqs (off hi lo x : Nat) : (setRf off hi lo x s).seqs = s.seqs := rfl
@[simp] theorem setRf_stores (off hi lo x : Nat) : (setRf off hi lo x s).stores = s.stores := rfl
@[simp] theorem setRf_banks (off hi lo x : Nat) : (setRf off hi lo x s).banks = s.banks := rfl
@[simp] theorem setRf_pwr (off hi lo x : Nat) : (setRf off hi lo x s).pwr = s.pwr := rfl
@[simp] theorem setRf_trace (off hi lo x : Nat) : (setRf off hi lo x s).trace = s.trace := rfl
@[simp] theorem setRf_snap (off hi lo x : Nat) : (setRf off hi lo x s).snap = s.snap := rfl
@[simp] theorem setRf_jtag (off hi lo x : Nat) : (setRf off hi lo x s).jtag = s.jtag := rfl
@[simp] theorem setRf_fresh (off hi lo x : Nat) : (setRf off hi lo x s).fresh = s.fresh := rfl
@[simp] theorem setRf_pending (off hi lo x : Nat) : (setRf off hi lo x s).pending = s.pending := rfl
@[simp] theorem post_part (p : Posted) : (post p s).part = s.part := rfl
@[simp] theorem post_refstrap (p : Posted) : (post p s).refstrap = s.refstrap := rfl
@[simp] theorem post_bscan (p : Posted) : (post p s).bscan = s.bscan := rfl
@[simp] theorem post_regs (p : Posted) : (post p s).regs = s.regs := rfl
@[simp] theorem post_ctrs (p : Posted) : (post p s).ctrs = s.ctrs := rfl
@[simp] theorem post_hold (p : Posted) : (post p s).hold = s.hold := rfl
@[simp] theorem post_latch (p : Posted) : (post p s).latch = s.latch := rfl
@[simp] theorem post_errlog (p : Posted) : (post p s).errlog = s.errlog := rfl
@[simp] theorem post_guard (p : Posted) : (post p s).guard = s.guard := rfl
@[simp] theorem post_tb (p : Posted) : (post p s).tb = s.tb := rfl
@[simp] theorem post_house (p : Posted) : (post p s).house = s.house := rfl
@[simp] theorem post_lanes (p : Posted) : (post p s).lanes = s.lanes := rfl
@[simp] theorem post_train (p : Posted) : (post p s).train = s.train := rfl
@[simp] theorem post_sent (p : Posted) : (post p s).sent = s.sent := rfl
@[simp] theorem post_plans (p : Posted) : (post p s).plans = s.plans := rfl
@[simp] theorem post_au (p : Posted) : (post p s).au = s.au := rfl
@[simp] theorem post_cap (p : Posted) : (post p s).cap = s.cap := rfl
@[simp] theorem post_streams (p : Posted) : (post p s).streams = s.streams := rfl
@[simp] theorem post_jr (p : Posted) : (post p s).jr = s.jr := rfl
@[simp] theorem post_dram (p : Posted) : (post p s).dram = s.dram := rfl
@[simp] theorem post_rings (p : Posted) : (post p s).rings = s.rings := rfl
@[simp] theorem post_cmds (p : Posted) : (post p s).cmds = s.cmds := rfl
@[simp] theorem post_jobs (p : Posted) : (post p s).jobs = s.jobs := rfl
@[simp] theorem post_cxSteps (p : Posted) : (post p s).cxSteps = s.cxSteps := rfl
@[simp] theorem post_pcie (p : Posted) : (post p s).pcie = s.pcie := rfl
@[simp] theorem post_seqs (p : Posted) : (post p s).seqs = s.seqs := rfl
@[simp] theorem post_stores (p : Posted) : (post p s).stores = s.stores := rfl
@[simp] theorem post_banks (p : Posted) : (post p s).banks = s.banks := rfl
@[simp] theorem post_pwr (p : Posted) : (post p s).pwr = s.pwr := rfl
@[simp] theorem post_trace (p : Posted) : (post p s).trace = s.trace := rfl
@[simp] theorem post_snap (p : Posted) : (post p s).snap = s.snap := rfl
@[simp] theorem post_jtag (p : Posted) : (post p s).jtag = s.jtag := rfl
@[simp] theorem post_fresh (p : Posted) : (post p s).fresh = s.fresh := rfl
@[simp] theorem post_pending (p : Posted) : (post p s).pending = s.pending := rfl
@[simp] theorem setVec_part (v : Nat) (x : Vec) : (setVec v x s).part = s.part := rfl
@[simp] theorem setVec_refstrap (v : Nat) (x : Vec) : (setVec v x s).refstrap = s.refstrap := rfl
@[simp] theorem setVec_bscan (v : Nat) (x : Vec) : (setVec v x s).bscan = s.bscan := rfl
@[simp] theorem setVec_regs (v : Nat) (x : Vec) : (setVec v x s).regs = s.regs := rfl
@[simp] theorem setVec_ctrs (v : Nat) (x : Vec) : (setVec v x s).ctrs = s.ctrs := rfl
@[simp] theorem setVec_hold (v : Nat) (x : Vec) : (setVec v x s).hold = s.hold := rfl
@[simp] theorem setVec_latch (v : Nat) (x : Vec) : (setVec v x s).latch = s.latch := rfl
@[simp] theorem setVec_errlog (v : Nat) (x : Vec) : (setVec v x s).errlog = s.errlog := rfl
@[simp] theorem setVec_guard (v : Nat) (x : Vec) : (setVec v x s).guard = s.guard := rfl
@[simp] theorem setVec_tb (v : Nat) (x : Vec) : (setVec v x s).tb = s.tb := rfl
@[simp] theorem setVec_house (v : Nat) (x : Vec) : (setVec v x s).house = s.house := rfl
@[simp] theorem setVec_lanes (v : Nat) (x : Vec) : (setVec v x s).lanes = s.lanes := rfl
@[simp] theorem setVec_train (v : Nat) (x : Vec) : (setVec v x s).train = s.train := rfl
@[simp] theorem setVec_sent (v : Nat) (x : Vec) : (setVec v x s).sent = s.sent := rfl
@[simp] theorem setVec_plans (v : Nat) (x : Vec) : (setVec v x s).plans = s.plans := rfl
@[simp] theorem setVec_au (v : Nat) (x : Vec) : (setVec v x s).au = s.au := rfl
@[simp] theorem setVec_cap (v : Nat) (x : Vec) : (setVec v x s).cap = s.cap := rfl
@[simp] theorem setVec_streams (v : Nat) (x : Vec) : (setVec v x s).streams = s.streams := rfl
@[simp] theorem setVec_jr (v : Nat) (x : Vec) : (setVec v x s).jr = s.jr := rfl
@[simp] theorem setVec_dram (v : Nat) (x : Vec) : (setVec v x s).dram = s.dram := rfl
@[simp] theorem setVec_rings (v : Nat) (x : Vec) : (setVec v x s).rings = s.rings := rfl
@[simp] theorem setVec_cmds (v : Nat) (x : Vec) : (setVec v x s).cmds = s.cmds := rfl
@[simp] theorem setVec_jobs (v : Nat) (x : Vec) : (setVec v x s).jobs = s.jobs := rfl
@[simp] theorem setVec_cxSteps (v : Nat) (x : Vec) : (setVec v x s).cxSteps = s.cxSteps := rfl
@[simp] theorem setVec_pcie_ready (v : Nat) (x : Vec) : (setVec v x s).pcie.ready = s.pcie.ready := rfl
@[simp] theorem setVec_pcie_memSpace (v : Nat) (x : Vec) : (setVec v x s).pcie.memSpace = s.pcie.memSpace := rfl
@[simp] theorem setVec_pcie_bme (v : Nat) (x : Vec) : (setVec v x s).pcie.bme = s.pcie.bme := rfl
@[simp] theorem setVec_pcie_d3 (v : Nat) (x : Vec) : (setVec v x s).pcie.d3 = s.pcie.d3 := rfl
@[simp] theorem setVec_pcie_mps (v : Nat) (x : Vec) : (setVec v x s).pcie.mps = s.pcie.mps := rfl
@[simp] theorem setVec_pcie_mrrs (v : Nat) (x : Vec) : (setVec v x s).pcie.mrrs = s.pcie.mrrs := rfl
@[simp] theorem setVec_pcie_tenBit (v : Nat) (x : Vec) : (setVec v x s).pcie.tenBit = s.pcie.tenBit := rfl
@[simp] theorem setVec_pcie_cto (v : Nat) (x : Vec) : (setVec v x s).pcie.cto = s.pcie.cto := rfl
@[simp] theorem setVec_pcie_ro (v : Nat) (x : Vec) : (setVec v x s).pcie.ro = s.pcie.ro := rfl
@[simp] theorem setVec_pcie_msixEn (v : Nat) (x : Vec) : (setVec v x s).pcie.msixEn = s.pcie.msixEn := rfl
@[simp] theorem setVec_pcie_fmask (v : Nat) (x : Vec) : (setVec v x s).pcie.fmask = s.pcie.fmask := rfl
@[simp] theorem setVec_pcie_reads (v : Nat) (x : Vec) : (setVec v x s).pcie.reads = s.pcie.reads := rfl
@[simp] theorem setVec_pcie_waitq (v : Nat) (x : Vec) : (setVec v x s).pcie.waitq = s.pcie.waitq := rfl
@[simp] theorem setVec_pcie_quar (v : Nat) (x : Vec) : (setVec v x s).pcie.quar = s.pcie.quar := rfl
@[simp] theorem setVec_pcie_silent (v : Nat) (x : Vec) : (setVec v x s).pcie.silent = s.pcie.silent := rfl
@[simp] theorem setVec_pcie_aerCor (v : Nat) (x : Vec) : (setVec v x s).pcie.aerCor = s.pcie.aerCor := rfl
@[simp] theorem setVec_pcie_aerUnc (v : Nat) (x : Vec) : (setVec v x s).pcie.aerUnc = s.pcie.aerUnc := rfl
@[simp] theorem setVec_pcie_aerSev (v : Nat) (x : Vec) : (setVec v x s).pcie.aerSev = s.pcie.aerSev := rfl
@[simp] theorem setVec_pcie_aerUncMask (v : Nat) (x : Vec) : (setVec v x s).pcie.aerUncMask = s.pcie.aerUncMask := rfl
@[simp] theorem setVec_pcie_aerCorMask (v : Nat) (x : Vec) : (setVec v x s).pcie.aerCorMask = s.pcie.aerCorMask := rfl
@[simp] theorem setVec_pcie_aerFirst (v : Nat) (x : Vec) : (setVec v x s).pcie.aerFirst = s.pcie.aerFirst := rfl
@[simp] theorem setVec_pcie_aerHdr (v : Nat) (x : Vec) : (setVec v x s).pcie.aerHdr = s.pcie.aerHdr := rfl
@[simp] theorem setVec_pcie_cfg (v : Nat) (x : Vec) : (setVec v x s).pcie.cfg = s.pcie.cfg := rfl
@[simp] theorem setVec_pcie_xfers (v : Nat) (x : Vec) : (setVec v x s).pcie.xfers = s.pcie.xfers := rfl
@[simp] theorem setVec_pcie_halted (v : Nat) (x : Vec) : (setVec v x s).pcie.halted = s.pcie.halted := rfl
@[simp] theorem setVec_pcie_bars (v : Nat) (x : Vec) : (setVec v x s).pcie.bars = s.pcie.bars := rfl
@[simp] theorem setVec_pcie_ssvid (v : Nat) (x : Vec) : (setVec v x s).pcie.ssvid = s.pcie.ssvid := rfl
@[simp] theorem setVec_pcie_ssid (v : Nat) (x : Vec) : (setVec v x s).pcie.ssid = s.pcie.ssid := rfl
@[simp] theorem setVec_pcie_serial (v : Nat) (x : Vec) : (setVec v x s).pcie.serial = s.pcie.serial := rfl
@[simp] theorem setVec_posted (v : Nat) (x : Vec) : (setVec v x s).posted = s.posted := rfl
@[simp] theorem setVec_seqs (v : Nat) (x : Vec) : (setVec v x s).seqs = s.seqs := rfl
@[simp] theorem setVec_stores (v : Nat) (x : Vec) : (setVec v x s).stores = s.stores := rfl
@[simp] theorem setVec_banks (v : Nat) (x : Vec) : (setVec v x s).banks = s.banks := rfl
@[simp] theorem setVec_pwr (v : Nat) (x : Vec) : (setVec v x s).pwr = s.pwr := rfl
@[simp] theorem setVec_trace (v : Nat) (x : Vec) : (setVec v x s).trace = s.trace := rfl
@[simp] theorem setVec_snap (v : Nat) (x : Vec) : (setVec v x s).snap = s.snap := rfl
@[simp] theorem setVec_jtag (v : Nat) (x : Vec) : (setVec v x s).jtag = s.jtag := rfl
@[simp] theorem setVec_fresh (v : Nat) (x : Vec) : (setVec v x s).fresh = s.fresh := rfl
@[simp] theorem setVec_pending (v : Nat) (x : Vec) : (setVec v x s).pending = s.pending := rfl
@[simp] theorem setRing_part (r : Nat) (x : Ring) : (setRing r x s).part = s.part := rfl
@[simp] theorem setRing_refstrap (r : Nat) (x : Ring) : (setRing r x s).refstrap = s.refstrap := rfl
@[simp] theorem setRing_bscan (r : Nat) (x : Ring) : (setRing r x s).bscan = s.bscan := rfl
@[simp] theorem setRing_regs (r : Nat) (x : Ring) : (setRing r x s).regs = s.regs := rfl
@[simp] theorem setRing_ctrs (r : Nat) (x : Ring) : (setRing r x s).ctrs = s.ctrs := rfl
@[simp] theorem setRing_hold (r : Nat) (x : Ring) : (setRing r x s).hold = s.hold := rfl
@[simp] theorem setRing_latch (r : Nat) (x : Ring) : (setRing r x s).latch = s.latch := rfl
@[simp] theorem setRing_errlog (r : Nat) (x : Ring) : (setRing r x s).errlog = s.errlog := rfl
@[simp] theorem setRing_guard (r : Nat) (x : Ring) : (setRing r x s).guard = s.guard := rfl
@[simp] theorem setRing_tb (r : Nat) (x : Ring) : (setRing r x s).tb = s.tb := rfl
@[simp] theorem setRing_house (r : Nat) (x : Ring) : (setRing r x s).house = s.house := rfl
@[simp] theorem setRing_lanes (r : Nat) (x : Ring) : (setRing r x s).lanes = s.lanes := rfl
@[simp] theorem setRing_train (r : Nat) (x : Ring) : (setRing r x s).train = s.train := rfl
@[simp] theorem setRing_sent (r : Nat) (x : Ring) : (setRing r x s).sent = s.sent := rfl
@[simp] theorem setRing_plans (r : Nat) (x : Ring) : (setRing r x s).plans = s.plans := rfl
@[simp] theorem setRing_au (r : Nat) (x : Ring) : (setRing r x s).au = s.au := rfl
@[simp] theorem setRing_cap (r : Nat) (x : Ring) : (setRing r x s).cap = s.cap := rfl
@[simp] theorem setRing_streams (r : Nat) (x : Ring) : (setRing r x s).streams = s.streams := rfl
@[simp] theorem setRing_jr (r : Nat) (x : Ring) : (setRing r x s).jr = s.jr := rfl
@[simp] theorem setRing_dram (r : Nat) (x : Ring) : (setRing r x s).dram = s.dram := rfl
@[simp] theorem setRing_cmds (r : Nat) (x : Ring) : (setRing r x s).cmds = s.cmds := rfl
@[simp] theorem setRing_jobs (r : Nat) (x : Ring) : (setRing r x s).jobs = s.jobs := rfl
@[simp] theorem setRing_cxSteps (r : Nat) (x : Ring) : (setRing r x s).cxSteps = s.cxSteps := rfl
@[simp] theorem setRing_pcie (r : Nat) (x : Ring) : (setRing r x s).pcie = s.pcie := rfl
@[simp] theorem setRing_posted (r : Nat) (x : Ring) : (setRing r x s).posted = s.posted := rfl
@[simp] theorem setRing_seqs (r : Nat) (x : Ring) : (setRing r x s).seqs = s.seqs := rfl
@[simp] theorem setRing_stores (r : Nat) (x : Ring) : (setRing r x s).stores = s.stores := rfl
@[simp] theorem setRing_banks (r : Nat) (x : Ring) : (setRing r x s).banks = s.banks := rfl
@[simp] theorem setRing_pwr (r : Nat) (x : Ring) : (setRing r x s).pwr = s.pwr := rfl
@[simp] theorem setRing_trace (r : Nat) (x : Ring) : (setRing r x s).trace = s.trace := rfl
@[simp] theorem setRing_snap (r : Nat) (x : Ring) : (setRing r x s).snap = s.snap := rfl
@[simp] theorem setRing_jtag (r : Nat) (x : Ring) : (setRing r x s).jtag = s.jtag := rfl
@[simp] theorem setRing_fresh (r : Nat) (x : Ring) : (setRing r x s).fresh = s.fresh := rfl
@[simp] theorem setRing_pending (r : Nat) (x : Ring) : (setRing r x s).pending = s.pending := rfl
@[simp] theorem setLane_part (n : Nat) (x : LaneSt) : (setLane n x s).part = s.part := rfl
@[simp] theorem setLane_refstrap (n : Nat) (x : LaneSt) : (setLane n x s).refstrap = s.refstrap := rfl
@[simp] theorem setLane_bscan (n : Nat) (x : LaneSt) : (setLane n x s).bscan = s.bscan := rfl
@[simp] theorem setLane_regs (n : Nat) (x : LaneSt) : (setLane n x s).regs = s.regs := rfl
@[simp] theorem setLane_ctrs (n : Nat) (x : LaneSt) : (setLane n x s).ctrs = s.ctrs := rfl
@[simp] theorem setLane_hold (n : Nat) (x : LaneSt) : (setLane n x s).hold = s.hold := rfl
@[simp] theorem setLane_latch (n : Nat) (x : LaneSt) : (setLane n x s).latch = s.latch := rfl
@[simp] theorem setLane_errlog (n : Nat) (x : LaneSt) : (setLane n x s).errlog = s.errlog := rfl
@[simp] theorem setLane_guard (n : Nat) (x : LaneSt) : (setLane n x s).guard = s.guard := rfl
@[simp] theorem setLane_tb (n : Nat) (x : LaneSt) : (setLane n x s).tb = s.tb := rfl
@[simp] theorem setLane_house (n : Nat) (x : LaneSt) : (setLane n x s).house = s.house := rfl
@[simp] theorem setLane_train (n : Nat) (x : LaneSt) : (setLane n x s).train = s.train := rfl
@[simp] theorem setLane_sent (n : Nat) (x : LaneSt) : (setLane n x s).sent = s.sent := rfl
@[simp] theorem setLane_plans (n : Nat) (x : LaneSt) : (setLane n x s).plans = s.plans := rfl
@[simp] theorem setLane_au (n : Nat) (x : LaneSt) : (setLane n x s).au = s.au := rfl
@[simp] theorem setLane_cap (n : Nat) (x : LaneSt) : (setLane n x s).cap = s.cap := rfl
@[simp] theorem setLane_streams (n : Nat) (x : LaneSt) : (setLane n x s).streams = s.streams := rfl
@[simp] theorem setLane_jr (n : Nat) (x : LaneSt) : (setLane n x s).jr = s.jr := rfl
@[simp] theorem setLane_dram (n : Nat) (x : LaneSt) : (setLane n x s).dram = s.dram := rfl
@[simp] theorem setLane_rings (n : Nat) (x : LaneSt) : (setLane n x s).rings = s.rings := rfl
@[simp] theorem setLane_cmds (n : Nat) (x : LaneSt) : (setLane n x s).cmds = s.cmds := rfl
@[simp] theorem setLane_jobs (n : Nat) (x : LaneSt) : (setLane n x s).jobs = s.jobs := rfl
@[simp] theorem setLane_cxSteps (n : Nat) (x : LaneSt) : (setLane n x s).cxSteps = s.cxSteps := rfl
@[simp] theorem setLane_pcie (n : Nat) (x : LaneSt) : (setLane n x s).pcie = s.pcie := rfl
@[simp] theorem setLane_posted (n : Nat) (x : LaneSt) : (setLane n x s).posted = s.posted := rfl
@[simp] theorem setLane_seqs (n : Nat) (x : LaneSt) : (setLane n x s).seqs = s.seqs := rfl
@[simp] theorem setLane_stores (n : Nat) (x : LaneSt) : (setLane n x s).stores = s.stores := rfl
@[simp] theorem setLane_banks (n : Nat) (x : LaneSt) : (setLane n x s).banks = s.banks := rfl
@[simp] theorem setLane_pwr (n : Nat) (x : LaneSt) : (setLane n x s).pwr = s.pwr := rfl
@[simp] theorem setLane_trace (n : Nat) (x : LaneSt) : (setLane n x s).trace = s.trace := rfl
@[simp] theorem setLane_snap (n : Nat) (x : LaneSt) : (setLane n x s).snap = s.snap := rfl
@[simp] theorem setLane_jtag (n : Nat) (x : LaneSt) : (setLane n x s).jtag = s.jtag := rfl
@[simp] theorem setLane_fresh (n : Nat) (x : LaneSt) : (setLane n x s).fresh = s.fresh := rfl
@[simp] theorem setLane_pending (n : Nat) (x : LaneSt) : (setLane n x s).pending = s.pending := rfl
@[simp] theorem setStrm_part (i : Nat) (x : Stream) : (setStrm i x s).part = s.part := rfl
@[simp] theorem setStrm_refstrap (i : Nat) (x : Stream) : (setStrm i x s).refstrap = s.refstrap := rfl
@[simp] theorem setStrm_bscan (i : Nat) (x : Stream) : (setStrm i x s).bscan = s.bscan := rfl
@[simp] theorem setStrm_regs (i : Nat) (x : Stream) : (setStrm i x s).regs = s.regs := rfl
@[simp] theorem setStrm_ctrs (i : Nat) (x : Stream) : (setStrm i x s).ctrs = s.ctrs := rfl
@[simp] theorem setStrm_hold (i : Nat) (x : Stream) : (setStrm i x s).hold = s.hold := rfl
@[simp] theorem setStrm_latch (i : Nat) (x : Stream) : (setStrm i x s).latch = s.latch := rfl
@[simp] theorem setStrm_errlog (i : Nat) (x : Stream) : (setStrm i x s).errlog = s.errlog := rfl
@[simp] theorem setStrm_guard (i : Nat) (x : Stream) : (setStrm i x s).guard = s.guard := rfl
@[simp] theorem setStrm_tb (i : Nat) (x : Stream) : (setStrm i x s).tb = s.tb := rfl
@[simp] theorem setStrm_house (i : Nat) (x : Stream) : (setStrm i x s).house = s.house := rfl
@[simp] theorem setStrm_lanes (i : Nat) (x : Stream) : (setStrm i x s).lanes = s.lanes := rfl
@[simp] theorem setStrm_train (i : Nat) (x : Stream) : (setStrm i x s).train = s.train := rfl
@[simp] theorem setStrm_sent (i : Nat) (x : Stream) : (setStrm i x s).sent = s.sent := rfl
@[simp] theorem setStrm_plans (i : Nat) (x : Stream) : (setStrm i x s).plans = s.plans := rfl
@[simp] theorem setStrm_au (i : Nat) (x : Stream) : (setStrm i x s).au = s.au := rfl
@[simp] theorem setStrm_cap (i : Nat) (x : Stream) : (setStrm i x s).cap = s.cap := rfl
@[simp] theorem setStrm_jr (i : Nat) (x : Stream) : (setStrm i x s).jr = s.jr := rfl
@[simp] theorem setStrm_dram (i : Nat) (x : Stream) : (setStrm i x s).dram = s.dram := rfl
@[simp] theorem setStrm_rings (i : Nat) (x : Stream) : (setStrm i x s).rings = s.rings := rfl
@[simp] theorem setStrm_cmds (i : Nat) (x : Stream) : (setStrm i x s).cmds = s.cmds := rfl
@[simp] theorem setStrm_jobs (i : Nat) (x : Stream) : (setStrm i x s).jobs = s.jobs := rfl
@[simp] theorem setStrm_cxSteps (i : Nat) (x : Stream) : (setStrm i x s).cxSteps = s.cxSteps := rfl
@[simp] theorem setStrm_pcie (i : Nat) (x : Stream) : (setStrm i x s).pcie = s.pcie := rfl
@[simp] theorem setStrm_posted (i : Nat) (x : Stream) : (setStrm i x s).posted = s.posted := rfl
@[simp] theorem setStrm_seqs (i : Nat) (x : Stream) : (setStrm i x s).seqs = s.seqs := rfl
@[simp] theorem setStrm_stores (i : Nat) (x : Stream) : (setStrm i x s).stores = s.stores := rfl
@[simp] theorem setStrm_banks (i : Nat) (x : Stream) : (setStrm i x s).banks = s.banks := rfl
@[simp] theorem setStrm_pwr (i : Nat) (x : Stream) : (setStrm i x s).pwr = s.pwr := rfl
@[simp] theorem setStrm_trace (i : Nat) (x : Stream) : (setStrm i x s).trace = s.trace := rfl
@[simp] theorem setStrm_snap (i : Nat) (x : Stream) : (setStrm i x s).snap = s.snap := rfl
@[simp] theorem setStrm_jtag (i : Nat) (x : Stream) : (setStrm i x s).jtag = s.jtag := rfl
@[simp] theorem setStrm_fresh (i : Nat) (x : Stream) : (setStrm i x s).fresh = s.fresh := rfl
@[simp] theorem setStrm_pending (i : Nat) (x : Stream) : (setStrm i x s).pending = s.pending := rfl
@[simp] theorem setSub_part (i : Nat) (x : SubCh) : (setSub i x s).part = s.part := rfl
@[simp] theorem setSub_refstrap (i : Nat) (x : SubCh) : (setSub i x s).refstrap = s.refstrap := rfl
@[simp] theorem setSub_bscan (i : Nat) (x : SubCh) : (setSub i x s).bscan = s.bscan := rfl
@[simp] theorem setSub_regs (i : Nat) (x : SubCh) : (setSub i x s).regs = s.regs := rfl
@[simp] theorem setSub_ctrs (i : Nat) (x : SubCh) : (setSub i x s).ctrs = s.ctrs := rfl
@[simp] theorem setSub_hold (i : Nat) (x : SubCh) : (setSub i x s).hold = s.hold := rfl
@[simp] theorem setSub_latch (i : Nat) (x : SubCh) : (setSub i x s).latch = s.latch := rfl
@[simp] theorem setSub_errlog (i : Nat) (x : SubCh) : (setSub i x s).errlog = s.errlog := rfl
@[simp] theorem setSub_guard (i : Nat) (x : SubCh) : (setSub i x s).guard = s.guard := rfl
@[simp] theorem setSub_tb (i : Nat) (x : SubCh) : (setSub i x s).tb = s.tb := rfl
@[simp] theorem setSub_house (i : Nat) (x : SubCh) : (setSub i x s).house = s.house := rfl
@[simp] theorem setSub_lanes (i : Nat) (x : SubCh) : (setSub i x s).lanes = s.lanes := rfl
@[simp] theorem setSub_train (i : Nat) (x : SubCh) : (setSub i x s).train = s.train := rfl
@[simp] theorem setSub_sent (i : Nat) (x : SubCh) : (setSub i x s).sent = s.sent := rfl
@[simp] theorem setSub_plans (i : Nat) (x : SubCh) : (setSub i x s).plans = s.plans := rfl
@[simp] theorem setSub_au (i : Nat) (x : SubCh) : (setSub i x s).au = s.au := rfl
@[simp] theorem setSub_cap (i : Nat) (x : SubCh) : (setSub i x s).cap = s.cap := rfl
@[simp] theorem setSub_streams (i : Nat) (x : SubCh) : (setSub i x s).streams = s.streams := rfl
@[simp] theorem setSub_jr (i : Nat) (x : SubCh) : (setSub i x s).jr = s.jr := rfl
@[simp] theorem setSub_dram_arr (i : Nat) (x : SubCh) : (setSub i x s).dram.arr = s.dram.arr := rfl
@[simp] theorem setSub_dram_refIn (i : Nat) (x : SubCh) : (setSub i x s).dram.refIn = s.dram.refIn := rfl
@[simp] theorem setSub_dram_refPend (i : Nat) (x : SubCh) : (setSub i x s).dram.refPend = s.dram.refPend := rfl
@[simp] theorem setSub_dram_mem (i : Nat) (x : SubCh) : (setSub i x s).dram.mem = s.dram.mem := rfl
@[simp] theorem setSub_dram_times (i : Nat) (x : SubCh) : (setSub i x s).dram.times = s.dram.times := rfl
@[simp] theorem setSub_dram_rt (i : Nat) (x : SubCh) : (setSub i x s).dram.rt = s.dram.rt := rfl
@[simp] theorem setSub_dram_cells (i : Nat) (x : SubCh) : (setSub i x s).dram.cells = s.dram.cells := rfl
@[simp] theorem setSub_dram_turn (i : Nat) (x : SubCh) : (setSub i x s).dram.turn = s.dram.turn := rfl
@[simp] theorem setSub_dram_reads (i : Nat) (x : SubCh) : (setSub i x s).dram.reads = s.dram.reads := rfl
@[simp] theorem setSub_dram_ids (i : Nat) (x : SubCh) : (setSub i x s).dram.ids = s.dram.ids := rfl
@[simp] theorem setSub_dram_poison (i : Nat) (x : SubCh) : (setSub i x s).dram.poison = s.dram.poison := rfl
@[simp] theorem setSub_dram_trainOrigin (i : Nat) (x : SubCh) : (setSub i x s).dram.trainOrigin = s.dram.trainOrigin := rfl
@[simp] theorem setSub_rings (i : Nat) (x : SubCh) : (setSub i x s).rings = s.rings := rfl
@[simp] theorem setSub_cmds (i : Nat) (x : SubCh) : (setSub i x s).cmds = s.cmds := rfl
@[simp] theorem setSub_jobs (i : Nat) (x : SubCh) : (setSub i x s).jobs = s.jobs := rfl
@[simp] theorem setSub_cxSteps (i : Nat) (x : SubCh) : (setSub i x s).cxSteps = s.cxSteps := rfl
@[simp] theorem setSub_pcie (i : Nat) (x : SubCh) : (setSub i x s).pcie = s.pcie := rfl
@[simp] theorem setSub_posted (i : Nat) (x : SubCh) : (setSub i x s).posted = s.posted := rfl
@[simp] theorem setSub_seqs (i : Nat) (x : SubCh) : (setSub i x s).seqs = s.seqs := rfl
@[simp] theorem setSub_stores (i : Nat) (x : SubCh) : (setSub i x s).stores = s.stores := rfl
@[simp] theorem setSub_banks (i : Nat) (x : SubCh) : (setSub i x s).banks = s.banks := rfl
@[simp] theorem setSub_pwr (i : Nat) (x : SubCh) : (setSub i x s).pwr = s.pwr := rfl
@[simp] theorem setSub_trace (i : Nat) (x : SubCh) : (setSub i x s).trace = s.trace := rfl
@[simp] theorem setSub_snap (i : Nat) (x : SubCh) : (setSub i x s).snap = s.snap := rfl
@[simp] theorem setSub_jtag (i : Nat) (x : SubCh) : (setSub i x s).jtag = s.jtag := rfl
@[simp] theorem setSub_fresh (i : Nat) (x : SubCh) : (setSub i x s).fresh = s.fresh := rfl
@[simp] theorem setSub_pending (i : Nat) (x : SubCh) : (setSub i x s).pending = s.pending := rfl
@[simp] theorem setSq_part (q : Nat) (x : Seqr) : (setSq q x s).part = s.part := rfl
@[simp] theorem setSq_refstrap (q : Nat) (x : Seqr) : (setSq q x s).refstrap = s.refstrap := rfl
@[simp] theorem setSq_bscan (q : Nat) (x : Seqr) : (setSq q x s).bscan = s.bscan := rfl
@[simp] theorem setSq_regs (q : Nat) (x : Seqr) : (setSq q x s).regs = s.regs := rfl
@[simp] theorem setSq_ctrs (q : Nat) (x : Seqr) : (setSq q x s).ctrs = s.ctrs := rfl
@[simp] theorem setSq_hold (q : Nat) (x : Seqr) : (setSq q x s).hold = s.hold := rfl
@[simp] theorem setSq_latch (q : Nat) (x : Seqr) : (setSq q x s).latch = s.latch := rfl
@[simp] theorem setSq_errlog (q : Nat) (x : Seqr) : (setSq q x s).errlog = s.errlog := rfl
@[simp] theorem setSq_guard (q : Nat) (x : Seqr) : (setSq q x s).guard = s.guard := rfl
@[simp] theorem setSq_tb (q : Nat) (x : Seqr) : (setSq q x s).tb = s.tb := rfl
@[simp] theorem setSq_house (q : Nat) (x : Seqr) : (setSq q x s).house = s.house := rfl
@[simp] theorem setSq_lanes (q : Nat) (x : Seqr) : (setSq q x s).lanes = s.lanes := rfl
@[simp] theorem setSq_train (q : Nat) (x : Seqr) : (setSq q x s).train = s.train := rfl
@[simp] theorem setSq_sent (q : Nat) (x : Seqr) : (setSq q x s).sent = s.sent := rfl
@[simp] theorem setSq_plans (q : Nat) (x : Seqr) : (setSq q x s).plans = s.plans := rfl
@[simp] theorem setSq_au (q : Nat) (x : Seqr) : (setSq q x s).au = s.au := rfl
@[simp] theorem setSq_cap (q : Nat) (x : Seqr) : (setSq q x s).cap = s.cap := rfl
@[simp] theorem setSq_streams (q : Nat) (x : Seqr) : (setSq q x s).streams = s.streams := rfl
@[simp] theorem setSq_jr (q : Nat) (x : Seqr) : (setSq q x s).jr = s.jr := rfl
@[simp] theorem setSq_dram (q : Nat) (x : Seqr) : (setSq q x s).dram = s.dram := rfl
@[simp] theorem setSq_rings (q : Nat) (x : Seqr) : (setSq q x s).rings = s.rings := rfl
@[simp] theorem setSq_cmds (q : Nat) (x : Seqr) : (setSq q x s).cmds = s.cmds := rfl
@[simp] theorem setSq_jobs (q : Nat) (x : Seqr) : (setSq q x s).jobs = s.jobs := rfl
@[simp] theorem setSq_cxSteps (q : Nat) (x : Seqr) : (setSq q x s).cxSteps = s.cxSteps := rfl
@[simp] theorem setSq_pcie (q : Nat) (x : Seqr) : (setSq q x s).pcie = s.pcie := rfl
@[simp] theorem setSq_posted (q : Nat) (x : Seqr) : (setSq q x s).posted = s.posted := rfl
@[simp] theorem setSq_stores (q : Nat) (x : Seqr) : (setSq q x s).stores = s.stores := rfl
@[simp] theorem setSq_banks (q : Nat) (x : Seqr) : (setSq q x s).banks = s.banks := rfl
@[simp] theorem setSq_pwr (q : Nat) (x : Seqr) : (setSq q x s).pwr = s.pwr := rfl
@[simp] theorem setSq_trace (q : Nat) (x : Seqr) : (setSq q x s).trace = s.trace := rfl
@[simp] theorem setSq_snap (q : Nat) (x : Seqr) : (setSq q x s).snap = s.snap := rfl
@[simp] theorem setSq_jtag (q : Nat) (x : Seqr) : (setSq q x s).jtag = s.jtag := rfl
@[simp] theorem setSq_fresh (q : Nat) (x : Seqr) : (setSq q x s).fresh = s.fresh := rfl
@[simp] theorem setSq_pending (q : Nat) (x : Seqr) : (setSq q x s).pending = s.pending := rfl
@[simp] theorem dramPut_part (a : Nat) (bs : List Byte) : (dramPut a bs s).part = s.part := rfl
@[simp] theorem dramPut_refstrap (a : Nat) (bs : List Byte) : (dramPut a bs s).refstrap = s.refstrap := rfl
@[simp] theorem dramPut_bscan (a : Nat) (bs : List Byte) : (dramPut a bs s).bscan = s.bscan := rfl
@[simp] theorem dramPut_regs (a : Nat) (bs : List Byte) : (dramPut a bs s).regs = s.regs := rfl
@[simp] theorem dramPut_ctrs (a : Nat) (bs : List Byte) : (dramPut a bs s).ctrs = s.ctrs := rfl
@[simp] theorem dramPut_hold (a : Nat) (bs : List Byte) : (dramPut a bs s).hold = s.hold := rfl
@[simp] theorem dramPut_latch (a : Nat) (bs : List Byte) : (dramPut a bs s).latch = s.latch := rfl
@[simp] theorem dramPut_errlog (a : Nat) (bs : List Byte) : (dramPut a bs s).errlog = s.errlog := rfl
@[simp] theorem dramPut_guard (a : Nat) (bs : List Byte) : (dramPut a bs s).guard = s.guard := rfl
@[simp] theorem dramPut_tb (a : Nat) (bs : List Byte) : (dramPut a bs s).tb = s.tb := rfl
@[simp] theorem dramPut_house (a : Nat) (bs : List Byte) : (dramPut a bs s).house = s.house := rfl
@[simp] theorem dramPut_lanes (a : Nat) (bs : List Byte) : (dramPut a bs s).lanes = s.lanes := rfl
@[simp] theorem dramPut_train (a : Nat) (bs : List Byte) : (dramPut a bs s).train = s.train := rfl
@[simp] theorem dramPut_sent (a : Nat) (bs : List Byte) : (dramPut a bs s).sent = s.sent := rfl
@[simp] theorem dramPut_plans (a : Nat) (bs : List Byte) : (dramPut a bs s).plans = s.plans := rfl
@[simp] theorem dramPut_au (a : Nat) (bs : List Byte) : (dramPut a bs s).au = s.au := rfl
@[simp] theorem dramPut_cap (a : Nat) (bs : List Byte) : (dramPut a bs s).cap = s.cap := rfl
@[simp] theorem dramPut_streams (a : Nat) (bs : List Byte) : (dramPut a bs s).streams = s.streams := rfl
@[simp] theorem dramPut_jr (a : Nat) (bs : List Byte) : (dramPut a bs s).jr = s.jr := rfl
@[simp] theorem dramPut_dram_arr (a : Nat) (bs : List Byte) : (dramPut a bs s).dram.arr = s.dram.arr := rfl
@[simp] theorem dramPut_dram_refIn (a : Nat) (bs : List Byte) : (dramPut a bs s).dram.refIn = s.dram.refIn := rfl
@[simp] theorem dramPut_dram_refPend (a : Nat) (bs : List Byte) : (dramPut a bs s).dram.refPend = s.dram.refPend := rfl
@[simp] theorem dramPut_dram_times (a : Nat) (bs : List Byte) : (dramPut a bs s).dram.times = s.dram.times := rfl
@[simp] theorem dramPut_dram_rt (a : Nat) (bs : List Byte) : (dramPut a bs s).dram.rt = s.dram.rt := rfl
@[simp] theorem dramPut_dram_cells (a : Nat) (bs : List Byte) : (dramPut a bs s).dram.cells = s.dram.cells := rfl
@[simp] theorem dramPut_dram_turn (a : Nat) (bs : List Byte) : (dramPut a bs s).dram.turn = s.dram.turn := rfl
@[simp] theorem dramPut_dram_reads (a : Nat) (bs : List Byte) : (dramPut a bs s).dram.reads = s.dram.reads := rfl
@[simp] theorem dramPut_dram_ids (a : Nat) (bs : List Byte) : (dramPut a bs s).dram.ids = s.dram.ids := rfl
@[simp] theorem dramPut_dram_subs (a : Nat) (bs : List Byte) : (dramPut a bs s).dram.subs = s.dram.subs := rfl
@[simp] theorem dramPut_dram_poison (a : Nat) (bs : List Byte) : (dramPut a bs s).dram.poison = s.dram.poison := rfl
@[simp] theorem dramPut_dram_trainOrigin (a : Nat) (bs : List Byte) : (dramPut a bs s).dram.trainOrigin = s.dram.trainOrigin := rfl
@[simp] theorem dramPut_rings (a : Nat) (bs : List Byte) : (dramPut a bs s).rings = s.rings := rfl
@[simp] theorem dramPut_cmds (a : Nat) (bs : List Byte) : (dramPut a bs s).cmds = s.cmds := rfl
@[simp] theorem dramPut_jobs (a : Nat) (bs : List Byte) : (dramPut a bs s).jobs = s.jobs := rfl
@[simp] theorem dramPut_cxSteps (a : Nat) (bs : List Byte) : (dramPut a bs s).cxSteps = s.cxSteps := rfl
@[simp] theorem dramPut_pcie (a : Nat) (bs : List Byte) : (dramPut a bs s).pcie = s.pcie := rfl
@[simp] theorem dramPut_posted (a : Nat) (bs : List Byte) : (dramPut a bs s).posted = s.posted := rfl
@[simp] theorem dramPut_seqs (a : Nat) (bs : List Byte) : (dramPut a bs s).seqs = s.seqs := rfl
@[simp] theorem dramPut_stores (a : Nat) (bs : List Byte) : (dramPut a bs s).stores = s.stores := rfl
@[simp] theorem dramPut_banks (a : Nat) (bs : List Byte) : (dramPut a bs s).banks = s.banks := rfl
@[simp] theorem dramPut_pwr (a : Nat) (bs : List Byte) : (dramPut a bs s).pwr = s.pwr := rfl
@[simp] theorem dramPut_trace (a : Nat) (bs : List Byte) : (dramPut a bs s).trace = s.trace := rfl
@[simp] theorem dramPut_snap (a : Nat) (bs : List Byte) : (dramPut a bs s).snap = s.snap := rfl
@[simp] theorem dramPut_jtag (a : Nat) (bs : List Byte) : (dramPut a bs s).jtag = s.jtag := rfl
@[simp] theorem dramPut_fresh (a : Nat) (bs : List Byte) : (dramPut a bs s).fresh = s.fresh := rfl
@[simp] theorem dramPut_pending (a : Nat) (bs : List Byte) : (dramPut a bs s).pending = s.pending := rfl
@[simp] theorem sendFrame_part (n : Nat) (f : TxFrame) : (sendFrame n f s).part = s.part := rfl
@[simp] theorem sendFrame_refstrap (n : Nat) (f : TxFrame) : (sendFrame n f s).refstrap = s.refstrap := rfl
@[simp] theorem sendFrame_bscan (n : Nat) (f : TxFrame) : (sendFrame n f s).bscan = s.bscan := rfl
@[simp] theorem sendFrame_regs (n : Nat) (f : TxFrame) : (sendFrame n f s).regs = s.regs := rfl
@[simp] theorem sendFrame_ctrs (n : Nat) (f : TxFrame) : (sendFrame n f s).ctrs = s.ctrs := rfl
@[simp] theorem sendFrame_hold (n : Nat) (f : TxFrame) : (sendFrame n f s).hold = s.hold := rfl
@[simp] theorem sendFrame_latch (n : Nat) (f : TxFrame) : (sendFrame n f s).latch = s.latch := rfl
@[simp] theorem sendFrame_errlog (n : Nat) (f : TxFrame) : (sendFrame n f s).errlog = s.errlog := rfl
@[simp] theorem sendFrame_guard (n : Nat) (f : TxFrame) : (sendFrame n f s).guard = s.guard := rfl
@[simp] theorem sendFrame_tb (n : Nat) (f : TxFrame) : (sendFrame n f s).tb = s.tb := rfl
@[simp] theorem sendFrame_house (n : Nat) (f : TxFrame) : (sendFrame n f s).house = s.house := rfl
@[simp] theorem sendFrame_lanes (n : Nat) (f : TxFrame) : (sendFrame n f s).lanes = s.lanes := rfl
@[simp] theorem sendFrame_train (n : Nat) (f : TxFrame) : (sendFrame n f s).train = s.train := rfl
@[simp] theorem sendFrame_plans (n : Nat) (f : TxFrame) : (sendFrame n f s).plans = s.plans := rfl
@[simp] theorem sendFrame_au (n : Nat) (f : TxFrame) : (sendFrame n f s).au = s.au := rfl
@[simp] theorem sendFrame_cap (n : Nat) (f : TxFrame) : (sendFrame n f s).cap = s.cap := rfl
@[simp] theorem sendFrame_streams (n : Nat) (f : TxFrame) : (sendFrame n f s).streams = s.streams := rfl
@[simp] theorem sendFrame_jr (n : Nat) (f : TxFrame) : (sendFrame n f s).jr = s.jr := rfl
@[simp] theorem sendFrame_dram (n : Nat) (f : TxFrame) : (sendFrame n f s).dram = s.dram := rfl
@[simp] theorem sendFrame_rings (n : Nat) (f : TxFrame) : (sendFrame n f s).rings = s.rings := rfl
@[simp] theorem sendFrame_cmds (n : Nat) (f : TxFrame) : (sendFrame n f s).cmds = s.cmds := rfl
@[simp] theorem sendFrame_jobs (n : Nat) (f : TxFrame) : (sendFrame n f s).jobs = s.jobs := rfl
@[simp] theorem sendFrame_cxSteps (n : Nat) (f : TxFrame) : (sendFrame n f s).cxSteps = s.cxSteps := rfl
@[simp] theorem sendFrame_pcie (n : Nat) (f : TxFrame) : (sendFrame n f s).pcie = s.pcie := rfl
@[simp] theorem sendFrame_posted (n : Nat) (f : TxFrame) : (sendFrame n f s).posted = s.posted := rfl
@[simp] theorem sendFrame_seqs (n : Nat) (f : TxFrame) : (sendFrame n f s).seqs = s.seqs := rfl
@[simp] theorem sendFrame_stores (n : Nat) (f : TxFrame) : (sendFrame n f s).stores = s.stores := rfl
@[simp] theorem sendFrame_banks (n : Nat) (f : TxFrame) : (sendFrame n f s).banks = s.banks := rfl
@[simp] theorem sendFrame_pwr (n : Nat) (f : TxFrame) : (sendFrame n f s).pwr = s.pwr := rfl
@[simp] theorem sendFrame_trace (n : Nat) (f : TxFrame) : (sendFrame n f s).trace = s.trace := rfl
@[simp] theorem sendFrame_snap (n : Nat) (f : TxFrame) : (sendFrame n f s).snap = s.snap := rfl
@[simp] theorem sendFrame_jtag (n : Nat) (f : TxFrame) : (sendFrame n f s).jtag = s.jtag := rfl
@[simp] theorem sendFrame_fresh (n : Nat) (f : TxFrame) : (sendFrame n f s).fresh = s.fresh := rfl
@[simp] theorem sendFrame_pending (n : Nat) (f : TxFrame) : (sendFrame n f s).pending = s.pending := rfl
@[simp] theorem setCmd_part (c : Cmd) : (setCmd c s).part = s.part := rfl
@[simp] theorem setCmd_refstrap (c : Cmd) : (setCmd c s).refstrap = s.refstrap := rfl
@[simp] theorem setCmd_bscan (c : Cmd) : (setCmd c s).bscan = s.bscan := rfl
@[simp] theorem setCmd_regs (c : Cmd) : (setCmd c s).regs = s.regs := rfl
@[simp] theorem setCmd_ctrs (c : Cmd) : (setCmd c s).ctrs = s.ctrs := rfl
@[simp] theorem setCmd_hold (c : Cmd) : (setCmd c s).hold = s.hold := rfl
@[simp] theorem setCmd_latch (c : Cmd) : (setCmd c s).latch = s.latch := rfl
@[simp] theorem setCmd_errlog (c : Cmd) : (setCmd c s).errlog = s.errlog := rfl
@[simp] theorem setCmd_guard (c : Cmd) : (setCmd c s).guard = s.guard := rfl
@[simp] theorem setCmd_tb (c : Cmd) : (setCmd c s).tb = s.tb := rfl
@[simp] theorem setCmd_house (c : Cmd) : (setCmd c s).house = s.house := rfl
@[simp] theorem setCmd_lanes (c : Cmd) : (setCmd c s).lanes = s.lanes := rfl
@[simp] theorem setCmd_train (c : Cmd) : (setCmd c s).train = s.train := rfl
@[simp] theorem setCmd_sent (c : Cmd) : (setCmd c s).sent = s.sent := rfl
@[simp] theorem setCmd_plans (c : Cmd) : (setCmd c s).plans = s.plans := rfl
@[simp] theorem setCmd_au (c : Cmd) : (setCmd c s).au = s.au := rfl
@[simp] theorem setCmd_cap (c : Cmd) : (setCmd c s).cap = s.cap := rfl
@[simp] theorem setCmd_streams (c : Cmd) : (setCmd c s).streams = s.streams := rfl
@[simp] theorem setCmd_jr (c : Cmd) : (setCmd c s).jr = s.jr := rfl
@[simp] theorem setCmd_dram (c : Cmd) : (setCmd c s).dram = s.dram := rfl
@[simp] theorem setCmd_rings (c : Cmd) : (setCmd c s).rings = s.rings := rfl
@[simp] theorem setCmd_jobs (c : Cmd) : (setCmd c s).jobs = s.jobs := rfl
@[simp] theorem setCmd_cxSteps (c : Cmd) : (setCmd c s).cxSteps = s.cxSteps := rfl
@[simp] theorem setCmd_pcie (c : Cmd) : (setCmd c s).pcie = s.pcie := rfl
@[simp] theorem setCmd_posted (c : Cmd) : (setCmd c s).posted = s.posted := rfl
@[simp] theorem setCmd_seqs (c : Cmd) : (setCmd c s).seqs = s.seqs := rfl
@[simp] theorem setCmd_stores (c : Cmd) : (setCmd c s).stores = s.stores := rfl
@[simp] theorem setCmd_banks (c : Cmd) : (setCmd c s).banks = s.banks := rfl
@[simp] theorem setCmd_pwr (c : Cmd) : (setCmd c s).pwr = s.pwr := rfl
@[simp] theorem setCmd_trace (c : Cmd) : (setCmd c s).trace = s.trace := rfl
@[simp] theorem setCmd_snap (c : Cmd) : (setCmd c s).snap = s.snap := rfl
@[simp] theorem setCmd_jtag (c : Cmd) : (setCmd c s).jtag = s.jtag := rfl
@[simp] theorem setCmd_fresh (c : Cmd) : (setCmd c s).fresh = s.fresh := rfl
@[simp] theorem setCmd_pending (c : Cmd) : (setCmd c s).pending = s.pending := rfl
@[simp] theorem advanceSlice_part : (advanceSlice s).part = s.part := rfl
@[simp] theorem advanceSlice_refstrap : (advanceSlice s).refstrap = s.refstrap := rfl
@[simp] theorem advanceSlice_bscan : (advanceSlice s).bscan = s.bscan := rfl
@[simp] theorem advanceSlice_regs : (advanceSlice s).regs = s.regs := rfl
@[simp] theorem advanceSlice_ctrs : (advanceSlice s).ctrs = s.ctrs := rfl
@[simp] theorem advanceSlice_hold : (advanceSlice s).hold = s.hold := rfl
@[simp] theorem advanceSlice_latch : (advanceSlice s).latch = s.latch := rfl
@[simp] theorem advanceSlice_errlog : (advanceSlice s).errlog = s.errlog := rfl
@[simp] theorem advanceSlice_guard : (advanceSlice s).guard = s.guard := rfl
@[simp] theorem advanceSlice_tb_act : (advanceSlice s).tb.act = s.tb.act := rfl
@[simp] theorem advanceSlice_tb_eclipseAt : (advanceSlice s).tb.eclipseAt = s.tb.eclipseAt := rfl
@[simp] theorem advanceSlice_tb_lastEclipse : (advanceSlice s).tb.lastEclipse = s.tb.lastEclipse := rfl
@[simp] theorem advanceSlice_tb_offsetAt : (advanceSlice s).tb.offsetAt = s.tb.offsetAt := rfl
@[simp] theorem advanceSlice_tb_lfsr : (advanceSlice s).tb.lfsr = s.tb.lfsr := rfl
@[simp] theorem advanceSlice_tb_order : (advanceSlice s).tb.order = s.tb.order := rfl
@[simp] theorem advanceSlice_tb_later : (advanceSlice s).tb.later = s.tb.later := rfl
@[simp] theorem advanceSlice_tb_fabLost : (advanceSlice s).tb.fabLost = s.tb.fabLost := rfl
@[simp] theorem advanceSlice_tb_fabAt : (advanceSlice s).tb.fabAt = s.tb.fabAt := rfl
@[simp] theorem advanceSlice_tb_dead : (advanceSlice s).tb.dead = s.tb.dead := rfl
@[simp] theorem advanceSlice_tb_conj : (advanceSlice s).tb.conj = s.tb.conj := rfl
@[simp] theorem advanceSlice_tb_syncHigh : (advanceSlice s).tb.syncHigh = s.tb.syncHigh := rfl
@[simp] theorem advanceSlice_tb_pclk : (advanceSlice s).tb.pclk = s.tb.pclk := rfl
@[simp] theorem advanceSlice_house : (advanceSlice s).house = s.house := rfl
@[simp] theorem advanceSlice_lanes : (advanceSlice s).lanes = s.lanes := rfl
@[simp] theorem advanceSlice_train : (advanceSlice s).train = s.train := rfl
@[simp] theorem advanceSlice_sent : (advanceSlice s).sent = s.sent := rfl
@[simp] theorem advanceSlice_plans : (advanceSlice s).plans = s.plans := rfl
@[simp] theorem advanceSlice_au : (advanceSlice s).au = s.au := rfl
@[simp] theorem advanceSlice_cap : (advanceSlice s).cap = s.cap := rfl
@[simp] theorem advanceSlice_streams : (advanceSlice s).streams = s.streams := rfl
@[simp] theorem advanceSlice_jr : (advanceSlice s).jr = s.jr := rfl
@[simp] theorem advanceSlice_dram : (advanceSlice s).dram = s.dram := rfl
@[simp] theorem advanceSlice_rings : (advanceSlice s).rings = s.rings := rfl
@[simp] theorem advanceSlice_cmds : (advanceSlice s).cmds = s.cmds := rfl
@[simp] theorem advanceSlice_jobs : (advanceSlice s).jobs = s.jobs := rfl
@[simp] theorem advanceSlice_cxSteps : (advanceSlice s).cxSteps = s.cxSteps := rfl
@[simp] theorem advanceSlice_pcie : (advanceSlice s).pcie = s.pcie := rfl
@[simp] theorem advanceSlice_posted : (advanceSlice s).posted = s.posted := rfl
@[simp] theorem advanceSlice_seqs : (advanceSlice s).seqs = s.seqs := rfl
@[simp] theorem advanceSlice_stores : (advanceSlice s).stores = s.stores := rfl
@[simp] theorem advanceSlice_banks : (advanceSlice s).banks = s.banks := rfl
@[simp] theorem advanceSlice_pwr : (advanceSlice s).pwr = s.pwr := rfl
@[simp] theorem advanceSlice_trace : (advanceSlice s).trace = s.trace := rfl
@[simp] theorem advanceSlice_snap : (advanceSlice s).snap = s.snap := rfl
@[simp] theorem advanceSlice_jtag : (advanceSlice s).jtag = s.jtag := rfl
@[simp] theorem advanceSlice_fresh : (advanceSlice s).fresh = s.fresh := rfl
@[simp] theorem advanceSlice_pending : (advanceSlice s).pending = s.pending := rfl
@[simp] theorem putWord_part (k w : Nat) (v : W64) : (putWord k w v s).part = s.part := rfl
@[simp] theorem putWord_refstrap (k w : Nat) (v : W64) : (putWord k w v s).refstrap = s.refstrap := rfl
@[simp] theorem putWord_bscan (k w : Nat) (v : W64) : (putWord k w v s).bscan = s.bscan := rfl
@[simp] theorem putWord_regs (k w : Nat) (v : W64) : (putWord k w v s).regs = s.regs := rfl
@[simp] theorem putWord_ctrs (k w : Nat) (v : W64) : (putWord k w v s).ctrs = s.ctrs := rfl
@[simp] theorem putWord_hold (k w : Nat) (v : W64) : (putWord k w v s).hold = s.hold := rfl
@[simp] theorem putWord_latch (k w : Nat) (v : W64) : (putWord k w v s).latch = s.latch := rfl
@[simp] theorem putWord_errlog (k w : Nat) (v : W64) : (putWord k w v s).errlog = s.errlog := rfl
@[simp] theorem putWord_guard (k w : Nat) (v : W64) : (putWord k w v s).guard = s.guard := rfl
@[simp] theorem putWord_tb (k w : Nat) (v : W64) : (putWord k w v s).tb = s.tb := rfl
@[simp] theorem putWord_house (k w : Nat) (v : W64) : (putWord k w v s).house = s.house := rfl
@[simp] theorem putWord_lanes (k w : Nat) (v : W64) : (putWord k w v s).lanes = s.lanes := rfl
@[simp] theorem putWord_train (k w : Nat) (v : W64) : (putWord k w v s).train = s.train := rfl
@[simp] theorem putWord_sent (k w : Nat) (v : W64) : (putWord k w v s).sent = s.sent := rfl
@[simp] theorem putWord_plans (k w : Nat) (v : W64) : (putWord k w v s).plans = s.plans := rfl
@[simp] theorem putWord_au (k w : Nat) (v : W64) : (putWord k w v s).au = s.au := rfl
@[simp] theorem putWord_cap (k w : Nat) (v : W64) : (putWord k w v s).cap = s.cap := rfl
@[simp] theorem putWord_streams (k w : Nat) (v : W64) : (putWord k w v s).streams = s.streams := rfl
@[simp] theorem putWord_jr (k w : Nat) (v : W64) : (putWord k w v s).jr = s.jr := rfl
@[simp] theorem putWord_dram (k w : Nat) (v : W64) : (putWord k w v s).dram = s.dram := rfl
@[simp] theorem putWord_rings (k w : Nat) (v : W64) : (putWord k w v s).rings = s.rings := rfl
@[simp] theorem putWord_cmds (k w : Nat) (v : W64) : (putWord k w v s).cmds = s.cmds := rfl
@[simp] theorem putWord_jobs (k w : Nat) (v : W64) : (putWord k w v s).jobs = s.jobs := rfl
@[simp] theorem putWord_cxSteps (k w : Nat) (v : W64) : (putWord k w v s).cxSteps = s.cxSteps := rfl
@[simp] theorem putWord_pcie (k w : Nat) (v : W64) : (putWord k w v s).pcie = s.pcie := rfl
@[simp] theorem putWord_posted (k w : Nat) (v : W64) : (putWord k w v s).posted = s.posted := rfl
@[simp] theorem putWord_seqs (k w : Nat) (v : W64) : (putWord k w v s).seqs = s.seqs := rfl
@[simp] theorem putWord_stores (k w : Nat) (v : W64) : (putWord k w v s).stores = s.stores := rfl
@[simp] theorem putWord_banks_march (k w : Nat) (v : W64) : (putWord k w v s).banks.march = s.banks.march := rfl
@[simp] theorem putWord_pwr (k w : Nat) (v : W64) : (putWord k w v s).pwr = s.pwr := rfl
@[simp] theorem putWord_trace (k w : Nat) (v : W64) : (putWord k w v s).trace = s.trace := rfl
@[simp] theorem putWord_snap (k w : Nat) (v : W64) : (putWord k w v s).snap = s.snap := rfl
@[simp] theorem putWord_jtag (k w : Nat) (v : W64) : (putWord k w v s).jtag = s.jtag := rfl
@[simp] theorem putWord_fresh (k w : Nat) (v : W64) : (putWord k w v s).fresh = s.fresh := rfl
@[simp] theorem putWord_pending (k w : Nat) (v : W64) : (putWord k w v s).pending = s.pending := rfl
@[simp] theorem enqueue_part (i : Nat) (q : QRec) : (enqueue i q s).part = s.part := rfl
@[simp] theorem enqueue_refstrap (i : Nat) (q : QRec) : (enqueue i q s).refstrap = s.refstrap := rfl
@[simp] theorem enqueue_bscan (i : Nat) (q : QRec) : (enqueue i q s).bscan = s.bscan := rfl
@[simp] theorem enqueue_regs (i : Nat) (q : QRec) : (enqueue i q s).regs = s.regs := rfl
@[simp] theorem enqueue_ctrs (i : Nat) (q : QRec) : (enqueue i q s).ctrs = s.ctrs := rfl
@[simp] theorem enqueue_hold (i : Nat) (q : QRec) : (enqueue i q s).hold = s.hold := rfl
@[simp] theorem enqueue_latch (i : Nat) (q : QRec) : (enqueue i q s).latch = s.latch := rfl
@[simp] theorem enqueue_errlog (i : Nat) (q : QRec) : (enqueue i q s).errlog = s.errlog := rfl
@[simp] theorem enqueue_guard (i : Nat) (q : QRec) : (enqueue i q s).guard = s.guard := rfl
@[simp] theorem enqueue_tb (i : Nat) (q : QRec) : (enqueue i q s).tb = s.tb := rfl
@[simp] theorem enqueue_house (i : Nat) (q : QRec) : (enqueue i q s).house = s.house := rfl
@[simp] theorem enqueue_lanes (i : Nat) (q : QRec) : (enqueue i q s).lanes = s.lanes := rfl
@[simp] theorem enqueue_train (i : Nat) (q : QRec) : (enqueue i q s).train = s.train := rfl
@[simp] theorem enqueue_sent (i : Nat) (q : QRec) : (enqueue i q s).sent = s.sent := rfl
@[simp] theorem enqueue_plans (i : Nat) (q : QRec) : (enqueue i q s).plans = s.plans := rfl
@[simp] theorem enqueue_au (i : Nat) (q : QRec) : (enqueue i q s).au = s.au := rfl
@[simp] theorem enqueue_cap (i : Nat) (q : QRec) : (enqueue i q s).cap = s.cap := rfl
@[simp] theorem enqueue_jr (i : Nat) (q : QRec) : (enqueue i q s).jr = s.jr := rfl
@[simp] theorem enqueue_dram (i : Nat) (q : QRec) : (enqueue i q s).dram = s.dram := rfl
@[simp] theorem enqueue_rings (i : Nat) (q : QRec) : (enqueue i q s).rings = s.rings := rfl
@[simp] theorem enqueue_cmds (i : Nat) (q : QRec) : (enqueue i q s).cmds = s.cmds := rfl
@[simp] theorem enqueue_jobs (i : Nat) (q : QRec) : (enqueue i q s).jobs = s.jobs := rfl
@[simp] theorem enqueue_cxSteps (i : Nat) (q : QRec) : (enqueue i q s).cxSteps = s.cxSteps := rfl
@[simp] theorem enqueue_pcie (i : Nat) (q : QRec) : (enqueue i q s).pcie = s.pcie := rfl
@[simp] theorem enqueue_posted (i : Nat) (q : QRec) : (enqueue i q s).posted = s.posted := rfl
@[simp] theorem enqueue_seqs (i : Nat) (q : QRec) : (enqueue i q s).seqs = s.seqs := rfl
@[simp] theorem enqueue_stores (i : Nat) (q : QRec) : (enqueue i q s).stores = s.stores := rfl
@[simp] theorem enqueue_banks (i : Nat) (q : QRec) : (enqueue i q s).banks = s.banks := rfl
@[simp] theorem enqueue_pwr (i : Nat) (q : QRec) : (enqueue i q s).pwr = s.pwr := rfl
@[simp] theorem enqueue_trace (i : Nat) (q : QRec) : (enqueue i q s).trace = s.trace := rfl
@[simp] theorem enqueue_snap (i : Nat) (q : QRec) : (enqueue i q s).snap = s.snap := rfl
@[simp] theorem enqueue_jtag (i : Nat) (q : QRec) : (enqueue i q s).jtag = s.jtag := rfl
@[simp] theorem enqueue_fresh (i : Nat) (q : QRec) : (enqueue i q s).fresh = s.fresh := rfl
@[simp] theorem enqueue_pending (i : Nat) (q : QRec) : (enqueue i q s).pending = s.pending := rfl
@[simp] theorem holdReg_part (off : Nat) (v : W32) : (holdReg off v s).part = s.part := rfl
@[simp] theorem holdReg_refstrap (off : Nat) (v : W32) : (holdReg off v s).refstrap = s.refstrap := rfl
@[simp] theorem holdReg_bscan (off : Nat) (v : W32) : (holdReg off v s).bscan = s.bscan := rfl
@[simp] theorem holdReg_ctrs (off : Nat) (v : W32) : (holdReg off v s).ctrs = s.ctrs := rfl
@[simp] theorem holdReg_hold (off : Nat) (v : W32) : (holdReg off v s).hold = s.hold := rfl
@[simp] theorem holdReg_latch (off : Nat) (v : W32) : (holdReg off v s).latch = s.latch := rfl
@[simp] theorem holdReg_errlog (off : Nat) (v : W32) : (holdReg off v s).errlog = s.errlog := rfl
@[simp] theorem holdReg_guard (off : Nat) (v : W32) : (holdReg off v s).guard = s.guard := rfl
@[simp] theorem holdReg_tb (off : Nat) (v : W32) : (holdReg off v s).tb = s.tb := rfl
@[simp] theorem holdReg_house_copy (off : Nat) (v : W32) : (holdReg off v s).house.copy = s.house.copy := rfl
@[simp] theorem holdReg_house_commits (off : Nat) (v : W32) : (holdReg off v s).house.commits = s.house.commits := rfl
@[simp] theorem holdReg_lanes (off : Nat) (v : W32) : (holdReg off v s).lanes = s.lanes := rfl
@[simp] theorem holdReg_train (off : Nat) (v : W32) : (holdReg off v s).train = s.train := rfl
@[simp] theorem holdReg_sent (off : Nat) (v : W32) : (holdReg off v s).sent = s.sent := rfl
@[simp] theorem holdReg_plans (off : Nat) (v : W32) : (holdReg off v s).plans = s.plans := rfl
@[simp] theorem holdReg_au (off : Nat) (v : W32) : (holdReg off v s).au = s.au := rfl
@[simp] theorem holdReg_cap (off : Nat) (v : W32) : (holdReg off v s).cap = s.cap := rfl
@[simp] theorem holdReg_streams (off : Nat) (v : W32) : (holdReg off v s).streams = s.streams := rfl
@[simp] theorem holdReg_jr (off : Nat) (v : W32) : (holdReg off v s).jr = s.jr := rfl
@[simp] theorem holdReg_dram (off : Nat) (v : W32) : (holdReg off v s).dram = s.dram := rfl
@[simp] theorem holdReg_rings (off : Nat) (v : W32) : (holdReg off v s).rings = s.rings := rfl
@[simp] theorem holdReg_cmds (off : Nat) (v : W32) : (holdReg off v s).cmds = s.cmds := rfl
@[simp] theorem holdReg_jobs (off : Nat) (v : W32) : (holdReg off v s).jobs = s.jobs := rfl
@[simp] theorem holdReg_cxSteps (off : Nat) (v : W32) : (holdReg off v s).cxSteps = s.cxSteps := rfl
@[simp] theorem holdReg_pcie (off : Nat) (v : W32) : (holdReg off v s).pcie = s.pcie := rfl
@[simp] theorem holdReg_posted (off : Nat) (v : W32) : (holdReg off v s).posted = s.posted := rfl
@[simp] theorem holdReg_seqs (off : Nat) (v : W32) : (holdReg off v s).seqs = s.seqs := rfl
@[simp] theorem holdReg_stores (off : Nat) (v : W32) : (holdReg off v s).stores = s.stores := rfl
@[simp] theorem holdReg_banks (off : Nat) (v : W32) : (holdReg off v s).banks = s.banks := rfl
@[simp] theorem holdReg_pwr (off : Nat) (v : W32) : (holdReg off v s).pwr = s.pwr := rfl
@[simp] theorem holdReg_trace (off : Nat) (v : W32) : (holdReg off v s).trace = s.trace := rfl
@[simp] theorem holdReg_snap (off : Nat) (v : W32) : (holdReg off v s).snap = s.snap := rfl
@[simp] theorem holdReg_jtag (off : Nat) (v : W32) : (holdReg off v s).jtag = s.jtag := rfl
@[simp] theorem holdReg_fresh (off : Nat) (v : W32) : (holdReg off v s).fresh = s.fresh := rfl
@[simp] theorem holdReg_pending (off : Nat) (v : W32) : (holdReg off v s).pending = s.pending := rfl
@[simp] theorem withCommits_part (l : List TbWait) : (withCommits l s).part = s.part := rfl
@[simp] theorem withCommits_refstrap (l : List TbWait) : (withCommits l s).refstrap = s.refstrap := rfl
@[simp] theorem withCommits_bscan (l : List TbWait) : (withCommits l s).bscan = s.bscan := rfl
@[simp] theorem withCommits_regs (l : List TbWait) : (withCommits l s).regs = s.regs := rfl
@[simp] theorem withCommits_ctrs (l : List TbWait) : (withCommits l s).ctrs = s.ctrs := rfl
@[simp] theorem withCommits_hold (l : List TbWait) : (withCommits l s).hold = s.hold := rfl
@[simp] theorem withCommits_latch (l : List TbWait) : (withCommits l s).latch = s.latch := rfl
@[simp] theorem withCommits_errlog (l : List TbWait) : (withCommits l s).errlog = s.errlog := rfl
@[simp] theorem withCommits_guard (l : List TbWait) : (withCommits l s).guard = s.guard := rfl
@[simp] theorem withCommits_tb (l : List TbWait) : (withCommits l s).tb = s.tb := rfl
@[simp] theorem withCommits_house_copy (l : List TbWait) : (withCommits l s).house.copy = s.house.copy := rfl
@[simp] theorem withCommits_house_old (l : List TbWait) : (withCommits l s).house.old = s.house.old := rfl
@[simp] theorem withCommits_lanes (l : List TbWait) : (withCommits l s).lanes = s.lanes := rfl
@[simp] theorem withCommits_train (l : List TbWait) : (withCommits l s).train = s.train := rfl
@[simp] theorem withCommits_sent (l : List TbWait) : (withCommits l s).sent = s.sent := rfl
@[simp] theorem withCommits_plans (l : List TbWait) : (withCommits l s).plans = s.plans := rfl
@[simp] theorem withCommits_au (l : List TbWait) : (withCommits l s).au = s.au := rfl
@[simp] theorem withCommits_cap (l : List TbWait) : (withCommits l s).cap = s.cap := rfl
@[simp] theorem withCommits_streams (l : List TbWait) : (withCommits l s).streams = s.streams := rfl
@[simp] theorem withCommits_jr (l : List TbWait) : (withCommits l s).jr = s.jr := rfl
@[simp] theorem withCommits_dram (l : List TbWait) : (withCommits l s).dram = s.dram := rfl
@[simp] theorem withCommits_rings (l : List TbWait) : (withCommits l s).rings = s.rings := rfl
@[simp] theorem withCommits_cmds (l : List TbWait) : (withCommits l s).cmds = s.cmds := rfl
@[simp] theorem withCommits_jobs (l : List TbWait) : (withCommits l s).jobs = s.jobs := rfl
@[simp] theorem withCommits_cxSteps (l : List TbWait) : (withCommits l s).cxSteps = s.cxSteps := rfl
@[simp] theorem withCommits_pcie (l : List TbWait) : (withCommits l s).pcie = s.pcie := rfl
@[simp] theorem withCommits_posted (l : List TbWait) : (withCommits l s).posted = s.posted := rfl
@[simp] theorem withCommits_seqs (l : List TbWait) : (withCommits l s).seqs = s.seqs := rfl
@[simp] theorem withCommits_stores (l : List TbWait) : (withCommits l s).stores = s.stores := rfl
@[simp] theorem withCommits_banks (l : List TbWait) : (withCommits l s).banks = s.banks := rfl
@[simp] theorem withCommits_pwr (l : List TbWait) : (withCommits l s).pwr = s.pwr := rfl
@[simp] theorem withCommits_trace (l : List TbWait) : (withCommits l s).trace = s.trace := rfl
@[simp] theorem withCommits_snap (l : List TbWait) : (withCommits l s).snap = s.snap := rfl
@[simp] theorem withCommits_jtag (l : List TbWait) : (withCommits l s).jtag = s.jtag := rfl
@[simp] theorem withCommits_fresh (l : List TbWait) : (withCommits l s).fresh = s.fresh := rfl
@[simp] theorem withCommits_pending (l : List TbWait) : (withCommits l s).pending = s.pending := rfl
@[simp] theorem cancelScrub_part (a n : Nat) : (cancelScrub a n s).part = s.part := rfl
@[simp] theorem cancelScrub_refstrap (a n : Nat) : (cancelScrub a n s).refstrap = s.refstrap := rfl
@[simp] theorem cancelScrub_bscan (a n : Nat) : (cancelScrub a n s).bscan = s.bscan := rfl
@[simp] theorem cancelScrub_regs (a n : Nat) : (cancelScrub a n s).regs = s.regs := rfl
@[simp] theorem cancelScrub_ctrs (a n : Nat) : (cancelScrub a n s).ctrs = s.ctrs := rfl
@[simp] theorem cancelScrub_hold (a n : Nat) : (cancelScrub a n s).hold = s.hold := rfl
@[simp] theorem cancelScrub_latch (a n : Nat) : (cancelScrub a n s).latch = s.latch := rfl
@[simp] theorem cancelScrub_errlog (a n : Nat) : (cancelScrub a n s).errlog = s.errlog := rfl
@[simp] theorem cancelScrub_guard (a n : Nat) : (cancelScrub a n s).guard = s.guard := rfl
@[simp] theorem cancelScrub_tb (a n : Nat) : (cancelScrub a n s).tb = s.tb := rfl
@[simp] theorem cancelScrub_house (a n : Nat) : (cancelScrub a n s).house = s.house := rfl
@[simp] theorem cancelScrub_lanes (a n : Nat) : (cancelScrub a n s).lanes = s.lanes := rfl
@[simp] theorem cancelScrub_train (a n : Nat) : (cancelScrub a n s).train = s.train := rfl
@[simp] theorem cancelScrub_sent (a n : Nat) : (cancelScrub a n s).sent = s.sent := rfl
@[simp] theorem cancelScrub_plans (a n : Nat) : (cancelScrub a n s).plans = s.plans := rfl
@[simp] theorem cancelScrub_au (a n : Nat) : (cancelScrub a n s).au = s.au := rfl
@[simp] theorem cancelScrub_cap (a n : Nat) : (cancelScrub a n s).cap = s.cap := rfl
@[simp] theorem cancelScrub_streams (a n : Nat) : (cancelScrub a n s).streams = s.streams := rfl
@[simp] theorem cancelScrub_jr (a n : Nat) : (cancelScrub a n s).jr = s.jr := rfl
@[simp] theorem cancelScrub_dram_arr (a n : Nat) : (cancelScrub a n s).dram.arr = s.dram.arr := rfl
@[simp] theorem cancelScrub_dram_refIn (a n : Nat) : (cancelScrub a n s).dram.refIn = s.dram.refIn := rfl
@[simp] theorem cancelScrub_dram_refPend (a n : Nat) : (cancelScrub a n s).dram.refPend = s.dram.refPend := rfl
@[simp] theorem cancelScrub_dram_mem (a n : Nat) : (cancelScrub a n s).dram.mem = s.dram.mem := rfl
@[simp] theorem cancelScrub_dram_times (a n : Nat) : (cancelScrub a n s).dram.times = s.dram.times := rfl
@[simp] theorem cancelScrub_dram_rt (a n : Nat) : (cancelScrub a n s).dram.rt = s.dram.rt := rfl
@[simp] theorem cancelScrub_dram_cells (a n : Nat) : (cancelScrub a n s).dram.cells = s.dram.cells := rfl
@[simp] theorem cancelScrub_dram_turn (a n : Nat) : (cancelScrub a n s).dram.turn = s.dram.turn := rfl
@[simp] theorem cancelScrub_dram_reads (a n : Nat) : (cancelScrub a n s).dram.reads = s.dram.reads := rfl
@[simp] theorem cancelScrub_dram_ids (a n : Nat) : (cancelScrub a n s).dram.ids = s.dram.ids := rfl
@[simp] theorem cancelScrub_dram_poison (a n : Nat) : (cancelScrub a n s).dram.poison = s.dram.poison := rfl
@[simp] theorem cancelScrub_dram_trainOrigin (a n : Nat) : (cancelScrub a n s).dram.trainOrigin = s.dram.trainOrigin := rfl
@[simp] theorem cancelScrub_rings (a n : Nat) : (cancelScrub a n s).rings = s.rings := rfl
@[simp] theorem cancelScrub_cmds (a n : Nat) : (cancelScrub a n s).cmds = s.cmds := rfl
@[simp] theorem cancelScrub_jobs (a n : Nat) : (cancelScrub a n s).jobs = s.jobs := rfl
@[simp] theorem cancelScrub_cxSteps (a n : Nat) : (cancelScrub a n s).cxSteps = s.cxSteps := rfl
@[simp] theorem cancelScrub_pcie (a n : Nat) : (cancelScrub a n s).pcie = s.pcie := rfl
@[simp] theorem cancelScrub_posted (a n : Nat) : (cancelScrub a n s).posted = s.posted := rfl
@[simp] theorem cancelScrub_seqs (a n : Nat) : (cancelScrub a n s).seqs = s.seqs := rfl
@[simp] theorem cancelScrub_stores (a n : Nat) : (cancelScrub a n s).stores = s.stores := rfl
@[simp] theorem cancelScrub_banks (a n : Nat) : (cancelScrub a n s).banks = s.banks := rfl
@[simp] theorem cancelScrub_pwr (a n : Nat) : (cancelScrub a n s).pwr = s.pwr := rfl
@[simp] theorem cancelScrub_trace (a n : Nat) : (cancelScrub a n s).trace = s.trace := rfl
@[simp] theorem cancelScrub_snap (a n : Nat) : (cancelScrub a n s).snap = s.snap := rfl
@[simp] theorem cancelScrub_jtag (a n : Nat) : (cancelScrub a n s).jtag = s.jtag := rfl
@[simp] theorem cancelScrub_fresh (a n : Nat) : (cancelScrub a n s).fresh = s.fresh := rfl
@[simp] theorem cancelScrub_pending (a n : Nat) : (cancelScrub a n s).pending = s.pending := rfl
@[simp] theorem withPending_part (q : List Instr) : (s.withPending q).part = s.part := rfl
@[simp] theorem keepOutside_part (t : State) : (keepOutside s t).part = s.part := rfl
@[simp] theorem withPending_refstrap (q : List Instr) : (s.withPending q).refstrap = s.refstrap := rfl
@[simp] theorem keepOutside_refstrap (t : State) : (keepOutside s t).refstrap = s.refstrap := rfl
@[simp] theorem withPending_bscan (q : List Instr) : (s.withPending q).bscan = s.bscan := rfl
@[simp] theorem keepOutside_bscan (t : State) : (keepOutside s t).bscan = s.bscan := rfl
@[simp] theorem withPending_regs (q : List Instr) : (s.withPending q).regs = s.regs := rfl
@[simp] theorem keepOutside_regs (t : State) : (keepOutside s t).regs = t.regs := rfl
@[simp] theorem withPending_ctrs (q : List Instr) : (s.withPending q).ctrs = s.ctrs := rfl
@[simp] theorem keepOutside_ctrs (t : State) : (keepOutside s t).ctrs = t.ctrs := rfl
@[simp] theorem withPending_hold (q : List Instr) : (s.withPending q).hold = s.hold := rfl
@[simp] theorem keepOutside_hold (t : State) : (keepOutside s t).hold = t.hold := rfl
@[simp] theorem withPending_latch (q : List Instr) : (s.withPending q).latch = s.latch := rfl
@[simp] theorem keepOutside_latch (t : State) : (keepOutside s t).latch = t.latch := rfl
@[simp] theorem withPending_errlog (q : List Instr) : (s.withPending q).errlog = s.errlog := rfl
@[simp] theorem keepOutside_errlog (t : State) : (keepOutside s t).errlog = t.errlog := rfl
@[simp] theorem withPending_guard (q : List Instr) : (s.withPending q).guard = s.guard := rfl
@[simp] theorem keepOutside_guard (t : State) : (keepOutside s t).guard = t.guard := rfl
@[simp] theorem withPending_tb (q : List Instr) : (s.withPending q).tb = s.tb := rfl
@[simp] theorem keepOutside_tb (t : State) : (keepOutside s t).tb = t.tb := rfl
@[simp] theorem withPending_house (q : List Instr) : (s.withPending q).house = s.house := rfl
@[simp] theorem keepOutside_house (t : State) : (keepOutside s t).house = t.house := rfl
@[simp] theorem withPending_lanes (q : List Instr) : (s.withPending q).lanes = s.lanes := rfl
@[simp] theorem keepOutside_lanes (t : State) : (keepOutside s t).lanes = t.lanes := rfl
@[simp] theorem withPending_train (q : List Instr) : (s.withPending q).train = s.train := rfl
@[simp] theorem keepOutside_train (t : State) : (keepOutside s t).train = t.train := rfl
@[simp] theorem withPending_sent (q : List Instr) : (s.withPending q).sent = s.sent := rfl
@[simp] theorem keepOutside_sent (t : State) : (keepOutside s t).sent = t.sent := rfl
@[simp] theorem withPending_plans (q : List Instr) : (s.withPending q).plans = s.plans := rfl
@[simp] theorem keepOutside_plans (t : State) : (keepOutside s t).plans = t.plans := rfl
@[simp] theorem withPending_au (q : List Instr) : (s.withPending q).au = s.au := rfl
@[simp] theorem keepOutside_au (t : State) : (keepOutside s t).au = t.au := rfl
@[simp] theorem withPending_cap (q : List Instr) : (s.withPending q).cap = s.cap := rfl
@[simp] theorem keepOutside_cap (t : State) : (keepOutside s t).cap = t.cap := rfl
@[simp] theorem withPending_streams (q : List Instr) : (s.withPending q).streams = s.streams := rfl
@[simp] theorem keepOutside_streams (t : State) : (keepOutside s t).streams = t.streams := rfl
@[simp] theorem withPending_jr (q : List Instr) : (s.withPending q).jr = s.jr := rfl
@[simp] theorem keepOutside_jr (t : State) : (keepOutside s t).jr = t.jr := rfl
@[simp] theorem withPending_dram (q : List Instr) : (s.withPending q).dram = s.dram := rfl
@[simp] theorem keepOutside_dram (t : State) : (keepOutside s t).dram = t.dram := rfl
@[simp] theorem withPending_rings (q : List Instr) : (s.withPending q).rings = s.rings := rfl
@[simp] theorem keepOutside_rings (t : State) : (keepOutside s t).rings = t.rings := rfl
@[simp] theorem withPending_cmds (q : List Instr) : (s.withPending q).cmds = s.cmds := rfl
@[simp] theorem keepOutside_cmds (t : State) : (keepOutside s t).cmds = t.cmds := rfl
@[simp] theorem withPending_jobs (q : List Instr) : (s.withPending q).jobs = s.jobs := rfl
@[simp] theorem keepOutside_jobs (t : State) : (keepOutside s t).jobs = t.jobs := rfl
@[simp] theorem withPending_cxSteps (q : List Instr) : (s.withPending q).cxSteps = s.cxSteps := rfl
@[simp] theorem keepOutside_cxSteps (t : State) : (keepOutside s t).cxSteps = t.cxSteps := rfl
@[simp] theorem withPending_pcie (q : List Instr) : (s.withPending q).pcie = s.pcie := rfl
@[simp] theorem keepOutside_pcie (t : State) : (keepOutside s t).pcie = t.pcie := rfl
@[simp] theorem withPending_posted (q : List Instr) : (s.withPending q).posted = s.posted := rfl
@[simp] theorem keepOutside_posted (t : State) : (keepOutside s t).posted = t.posted := rfl
@[simp] theorem withPending_seqs (q : List Instr) : (s.withPending q).seqs = s.seqs := rfl
@[simp] theorem keepOutside_seqs (t : State) : (keepOutside s t).seqs = t.seqs := rfl
@[simp] theorem withPending_stores (q : List Instr) : (s.withPending q).stores = s.stores := rfl
@[simp] theorem keepOutside_stores (t : State) : (keepOutside s t).stores = t.stores := rfl
@[simp] theorem withPending_banks (q : List Instr) : (s.withPending q).banks = s.banks := rfl
@[simp] theorem keepOutside_banks (t : State) : (keepOutside s t).banks = t.banks := rfl
@[simp] theorem withPending_pwr (q : List Instr) : (s.withPending q).pwr = s.pwr := rfl
@[simp] theorem keepOutside_pwr (t : State) : (keepOutside s t).pwr = t.pwr := rfl
@[simp] theorem withPending_trace (q : List Instr) : (s.withPending q).trace = s.trace := rfl
@[simp] theorem keepOutside_trace (t : State) : (keepOutside s t).trace = t.trace := rfl
@[simp] theorem withPending_snap (q : List Instr) : (s.withPending q).snap = s.snap := rfl
@[simp] theorem keepOutside_snap (t : State) : (keepOutside s t).snap = t.snap := rfl
@[simp] theorem withPending_jtag (q : List Instr) : (s.withPending q).jtag = s.jtag := rfl
@[simp] theorem keepOutside_jtag (t : State) : (keepOutside s t).jtag = s.jtag := rfl
@[simp] theorem withPending_fresh (q : List Instr) : (s.withPending q).fresh = s.fresh := rfl
@[simp] theorem keepOutside_fresh (t : State) : (keepOutside s t).fresh = t.fresh := rfl
@[simp] theorem keepOutside_pending (t : State) : (keepOutside s t).pending = s.pending := rfl

end Sys2Proof.Machine
end

