-- ==== Sys2Proof/Laws/Events.lean ====
section
/-! SUPPORT. What raising events can do (R232 to R236, R353): everything outside `State.quiet`'s blanks is as before. -/

namespace Sys2Proof.Machine

variable (s : State)

/-- A source's register holds event bits. -/
theorem isEventReg_of_srcReg {n off b : Nat} (h : srcReg n = some (off, b)) : isEventReg off = true := by
  have hn : n < 1792 := by
    apply Classical.byContradiction
    intro hc
    have : srcReg n = none := by
      unfold srcReg
      repeat' (first | rw [if_neg (by omega)])
    rw [this] at h; cases h
  simp only [isEventReg, List.any_eq_true, List.mem_range]
  exact ⟨n, hn, by simp [h]⟩

theorem isLogReg_of_srcReg {n off b : Nat} (h : srcReg n = some (off, b)) : isLogReg off = true := by
  simp [isLogReg, isEventReg_of_srcReg h]

/-- GLBEVT is a log register. -/
theorem isLogReg_glbevt : isLogReg 0x18 = true := isLogReg_of_srcReg (n := 0) (b := 0) rfl

theorem setReg_quiet {off : Nat} (v : W32) (h : isLogReg off = true) : (setReg off v s).quiet = s.quiet := by
  simp only [State.quiet, setReg]
  rw [filter_tblSet s.regs off v (fun k => !isLogReg k) (by simp [h])]

@[simp] theorem post_quiet (p : Posted) : (post p s).quiet = s.quiet := rfl
@[simp] theorem setVec_quiet (v : Nat) (x : Vec) : (setVec v x s).quiet = s.quiet := rfl

theorem ctrStep_quiet {off : Nat} (h : off = msixSentOff ∨ off = msixMergedOff) : (ctrStep off s).1.quiet = s.quiet := by
  have hp : (fun k => k != msixSentOff && k != msixMergedOff) off = false := by rcases h with h | h <;> subst h <;> rfl
  simp only [ctrStep]
  split <;> simp only [State.quiet] <;>
    rw [filter_tblSet s.ctrs off _ (fun k => k != msixSentOff && k != msixMergedOff) hp]

theorem afterStep_quiet (again : Nat → State → State) (h : ∀ v t, (again v t).quiet = t.quiet) (p : State × Bool) :
    (afterStep again p).quiet = p.1.quiet := by
  unfold afterStep
  split
  · dsimp only
    split
    · rw [h, setReg_quiet _ _ isLogReg_glbevt]
    · exact setReg_quiet _ _ isLogReg_glbevt
  · rfl

theorem signalVec_quiet (f v : Nat) : (signalVec f v s).quiet = s.quiet := by
  induction f generalizing v s with
  | zero => rfl
  | succ f ih =>
    have ha := fun p => afterStep_quiet (signalVec f) (fun v t => ih t v) p
    unfold signalVec
    dsimp only
    split
    · rfl
    · split
      · rw [ha, ctrStep_quiet _ (Or.inr rfl)]
      · have h1 : (if (vec s v).acc = 0 then s else afterStep (signalVec f) (ctrStep msixMergedOff s)).quiet = s.quiet := by
          split
          · rfl
          · rw [ha, ctrStep_quiet _ (Or.inr rfl)]
        split
        · split
          · rw [setVec_quiet, h1]
          · rw [ha, ctrStep_quiet _ (Or.inl rfl), post_quiet, setVec_quiet, h1]
        · rw [setVec_quiet, h1]

@[simp] theorem signal_quiet (v : Nat) : (signal v s).quiet = s.quiet := signalVec_quiet s 3 v

@[simp] theorem dueVec_quiet (v : Nat) : (dueVec v s).quiet = s.quiet := by
  simp only [dueVec]
  split
  · rfl
  · rw [afterStep_quiet _ (fun v t => signalVec_quiet t 3 v), ctrStep_quiet _ (Or.inl rfl)]; rfl

@[simp] theorem fire_quiet (n : Nat) : (fire n s).quiet = s.quiet := by
  simp only [fire]; split <;> simp

@[simp] theorem traceWith_quiet (flow : Bool) (e : W64) : (withTrace (traceWith flow e s.trace).1 s).quiet = s.quiet := rfl

@[simp] theorem traceAdd_quiet (flow : Bool) (e : W64) : (traceAdd flow e s).quiet = s.quiet := by
  unfold traceAdd
  dsimp only
  split
  · rw [fire_quiet, setReg_quiet _ _ isLogReg_glbevt, traceWith_quiet]
  · exact traceWith_quiet s flow e

/-- Raising an event source. -/
@[simp] theorem setSource_quiet (n : Nat) : (setSource n s).quiet = s.quiet := by
  unfold setSource
  split
  · rfl
  · rename_i off b h
    split
    · split
      · rfl
      · dsimp only
        split
        · rw [traceAdd_quiet, fire_quiet, setReg_quiet _ _ (isLogReg_of_srcReg h)]
        · rw [fire_quiet, setReg_quiet _ _ (isLogReg_of_srcReg h)]
    · rfl

@[simp] theorem cfgLog_quiet (reason off : Nat) : (cfgLog reason off s).quiet = s.quiet := by
  simp only [cfgLog]; split
  · rfl
  · exact setReg_quiet _ _ (by simp [isLogReg])

/-- A register outside the event and log registers reads alike in states that agree. -/
theorem reg_of_quiet {s t : State} (h : t.quiet = s.quiet) {off : Nat} (ho : isLogReg off = false) : reg t off = reg s off := by
  have hr : t.regs.filter (fun p => !isLogReg p.1) = s.regs.filter fun p => !isLogReg p.1 := congrArg State.regs h
  simp only [reg]
  rw [← tblGet_filter t.regs off _ (fun k => !isLogReg k) (by simp [ho]), ← tblGet_filter s.regs off _ (fun k => !isLogReg k) (by simp [ho]), hr]

/-- A counter other than the two of MSI-X reads alike. -/
theorem ctr_of_quiet {s t : State} (h : t.quiet = s.quiet) {off : Nat} (h1 : off ≠ msixSentOff) (h2 : off ≠ msixMergedOff) (d : Ctr) :
    tblGet t.ctrs off d = tblGet s.ctrs off d := by
  have hr : t.ctrs.filter (fun p => p.1 != msixSentOff && p.1 != msixMergedOff) =
      s.ctrs.filter fun p => p.1 != msixSentOff && p.1 != msixMergedOff := congrArg State.ctrs h
  have hp : (fun k => k != msixSentOff && k != msixMergedOff) off = true := by simp [h1, h2]
  rw [← tblGet_filter t.ctrs off d (fun k => k != msixSentOff && k != msixMergedOff) hp,
    ← tblGet_filter s.ctrs off d (fun k => k != msixSentOff && k != msixMergedOff) hp, hr]

end Sys2Proof.Machine
end

