-- ==== Sys2Proof/Laws/Reports.lean ====
section
/-! SUPPORT. What counters and reports of errors can do (R11, R149, R353, R403): everything outside `State.calm`'s blanks is as before. -/

namespace Sys2Proof.Machine

variable (s : State)

/-- The blanks of `calm` cover those of `quiet`. -/
theorem calm_of_quiet {s t : State} (h : t.quiet = s.quiet) : t.calm = s.calm := by
  unfold State.calm; rw [h]

/-- And those of `beside` cover `calm`'s. -/
theorem beside_of_calm {s t : State} (h : t.calm = s.calm) : t.beside = s.beside := by
  unfold State.beside; rw [h]

theorem beside_of_quiet {s t : State} (h : t.quiet = s.quiet) : t.beside = s.beside := beside_of_calm (calm_of_quiet h)

/-- The state without its counters, beside what an event writes. -/
def State.quieter (s : State) : State := { s.quiet with ctrs := [] }

theorem quieter_of_quiet {s t : State} (h : t.quiet = s.quiet) : t.quieter = s.quieter := by
  unfold State.quieter; rw [h]

theorem calm_of_quieter {s t : State} (h : t.quieter = s.quieter) : t.calm = s.calm := by
  have e : ∀ x : State, x.calm = x.quieter.calm := by
    intro x
    simp only [State.calm, State.quieter, State.quiet, List.filter_filter, Bool.and_self, List.filter_nil]
  rw [e t, e s, h]

/-- A counter that moves on (R353). -/
@[simp] theorem count_quieter (off : Nat) : (count off s).quieter = s.quieter := by
  unfold count
  have h : (ctrStep off s).1.quieter = s.quieter := by
    simp only [ctrStep]; split <;> rfl
  dsimp only
  split
  · rw [quieter_of_quiet (setSource_quiet _ 4), h]
  · exact h

@[simp] theorem countN_quieter (n off : Nat) : (countN n off s).quieter = s.quieter := by
  unfold countN
  dsimp only
  split
  · rfl
  · rw [quieter_of_quiet (setSource_quiet _ 4)]; rfl

@[simp] theorem count_calm (off : Nat) : (count off s).calm = s.calm := calm_of_quieter (count_quieter s off)
@[simp] theorem countN_calm (n off : Nat) : (countN n off s).calm = s.calm := calm_of_quieter (countN_quieter s n off)
@[simp] theorem setSource_calm (n : Nat) : (setSource n s).calm = s.calm := calm_of_quiet (setSource_quiet s n)
@[simp] theorem signal_calm (v : Nat) : (signal v s).calm = s.calm := calm_of_quiet (signal_quiet s v)
@[simp] theorem post_calm (p : Posted) : (post p s).calm = s.calm := rfl
theorem setReg_calm {off : Nat} (v : W32) (h : isLogReg off = true) : (setReg off v s).calm = s.calm := calm_of_quiet (setReg_quiet s v h)
@[simp] theorem setStrm_calm (i : Nat) (x : Stream) : (setStrm i x s).calm = s.calm := rfl
@[simp] theorem enqueue_calm (i : Nat) (q : QRec) : (enqueue i q s).calm = s.calm := rfl

/-- The error log (R352). -/
@[simp] theorem logError_calm (n d : Nat) : (logError n d s).calm = s.calm := by
  unfold logError
  dsimp only
  rw [setSource_calm, setReg_calm _ _ (by simp [isLogReg])]
  rfl

@[simp] theorem sendGrans_calm (n : Nat) (gs : List Gran) : (sendGrans n gs s).calm = s.calm := rfl

/-- Placing a record (R145). -/
@[simp] theorem placeRec_calm (i len : Nat) (q : QRec) : (placeRec i len q s).calm = s.calm := by
  unfold placeRec
  dsimp only
  rw [sendGrans_calm, setStrm_calm]

@[simp] theorem writeRec_calm (i : Nat) (q : QRec) : (writeRec i q s).calm = s.calm := by
  unfold writeRec
  dsimp only
  split
  · rw [placeRec_calm, setStrm_calm]
    split
    · rw [placeRec_calm]
    · rfl
  · rw [placeRec_calm]

@[simp] theorem truncate_calm (last : Nat) : (truncate last s).calm = s.calm := rfl

@[simp] theorem orderEnd_calm (last : Nat) (r : EndReason) : (orderEnd last r s).calm = s.calm := by
  unfold orderEnd
  dsimp only
  repeat' split
  all_goals first | rfl | (rw [truncate_calm]; rfl)

@[simp] theorem becomeFull_calm (i f : Nat) : (becomeFull i f s).calm = s.calm := by
  unfold becomeFull
  dsimp only
  repeat' split
  all_goals simp

@[simp] theorem putRec_calm (i : Nat) (q : QRec) : (putRec i q s).calm = s.calm := by
  unfold putRec
  dsimp only
  repeat' split
  all_goals simp

@[simp] theorem faultInto_calm (n idx d i : Nat) : (faultInto n idx d i s).calm = s.calm := by
  unfold faultInto
  dsimp only
  split <;> simp

theorem foldl_calm {α : Type} (l : List α) (f : State → α → State) (h : ∀ t a, (f t a).calm = t.calm) : (l.foldl f s).calm = s.calm := by
  induction l generalizing s with
  | nil => rfl
  | cons a l ih => rw [List.foldl_cons, ih, h]

/-- A report of an error (R11, R149, R403). -/
@[simp] theorem raise_calm (n d : Nat) : (raise n d s).calm = s.calm := by
  unfold raise
  split
  · split
    · dsimp only
      rw [foldl_calm _ _ _ fun t i => faultInto_calm t n _ d i]
      simp
    · simp
  · rfl

end Sys2Proof.Machine
end

