-- ==== Sys2Proof/Laws/Fields.lean ====
section
/-! SUPPORT. The fields that events, counters and reports of errors leave, one lemma per field. -/

namespace Sys2Proof.Machine

variable (s : State)

@[simp] theorem setSource_part (n : Nat) : (setSource n s).part = s.part := (congrArg State.part (setSource_quiet s n) :)
@[simp] theorem setSource_refstrap (n : Nat) : (setSource n s).refstrap = s.refstrap := (congrArg State.refstrap (setSource_quiet s n) :)
@[simp] theorem setSource_bscan (n : Nat) : (setSource n s).bscan = s.bscan := (congrArg State.bscan (setSource_quiet s n) :)
@[simp] theorem setSource_hold (n : Nat) : (setSource n s).hold = s.hold := (congrArg State.hold (setSource_quiet s n) :)
@[simp] theorem setSource_latch (n : Nat) : (setSource n s).latch = s.latch := (congrArg State.latch (setSource_quiet s n) :)
@[simp] theorem setSource_errlog (n : Nat) : (setSource n s).errlog = s.errlog := (congrArg State.errlog (setSource_quiet s n) :)
@[simp] theorem setSource_guard (n : Nat) : (setSource n s).guard = s.guard := (congrArg State.guard (setSource_quiet s n) :)
@[simp] theorem setSource_tb (n : Nat) : (setSource n s).tb = s.tb := (congrArg State.tb (setSource_quiet s n) :)
@[simp] theorem setSource_house (n : Nat) : (setSource n s).house = s.house := (congrArg State.house (setSource_quiet s n) :)
@[simp] theorem setSource_lanes (n : Nat) : (setSource n s).lanes = s.lanes := (congrArg State.lanes (setSource_quiet s n) :)
@[simp] theorem setSource_train (n : Nat) : (setSource n s).train = s.train := (congrArg State.train (setSource_quiet s n) :)
@[simp] theorem setSource_sent (n : Nat) : (setSource n s).sent = s.sent := (congrArg State.sent (setSource_quiet s n) :)
@[simp] theorem setSource_plans (n : Nat) : (setSource n s).plans = s.plans := (congrArg State.plans (setSource_quiet s n) :)
@[simp] theorem setSource_au (n : Nat) : (setSource n s).au = s.au := (congrArg State.au (setSource_quiet s n) :)
@[simp] theorem setSource_cap (n : Nat) : (setSource n s).cap = s.cap := (congrArg State.cap (setSource_quiet s n) :)
@[simp] theorem setSource_streams (n : Nat) : (setSource n s).streams = s.streams := (congrArg State.streams (setSource_quiet s n) :)
@[simp] theorem setSource_jr (n : Nat) : (setSource n s).jr = s.jr := (congrArg State.jr (setSource_quiet s n) :)
@[simp] theorem setSource_dram (n : Nat) : (setSource n s).dram = s.dram := (congrArg State.dram (setSource_quiet s n) :)
@[simp] theorem setSource_rings (n : Nat) : (setSource n s).rings = s.rings := (congrArg State.rings (setSource_quiet s n) :)
@[simp] theorem setSource_cmds (n : Nat) : (setSource n s).cmds = s.cmds := (congrArg State.cmds (setSource_quiet s n) :)
@[simp] theorem setSource_jobs (n : Nat) : (setSource n s).jobs = s.jobs := (congrArg State.jobs (setSource_quiet s n) :)
@[simp] theorem setSource_cxSteps (n : Nat) : (setSource n s).cxSteps = s.cxSteps := (congrArg State.cxSteps (setSource_quiet s n) :)
@[simp] theorem setSource_seqs (n : Nat) : (setSource n s).seqs = s.seqs := (congrArg State.seqs (setSource_quiet s n) :)
@[simp] theorem setSource_stores (n : Nat) : (setSource n s).stores = s.stores := (congrArg State.stores (setSource_quiet s n) :)
@[simp] theorem setSource_banks (n : Nat) : (setSource n s).banks = s.banks := (congrArg State.banks (setSource_quiet s n) :)
@[simp] theorem setSource_pwr (n : Nat) : (setSource n s).pwr = s.pwr := (congrArg State.pwr (setSource_quiet s n) :)
@[simp] theorem setSource_snap (n : Nat) : (setSource n s).snap = s.snap := (congrArg State.snap (setSource_quiet s n) :)
@[simp] theorem setSource_jtag (n : Nat) : (setSource n s).jtag = s.jtag := (congrArg State.jtag (setSource_quiet s n) :)
@[simp] theorem setSource_fresh (n : Nat) : (setSource n s).fresh = s.fresh := (congrArg State.fresh (setSource_quiet s n) :)
@[simp] theorem setSource_pending (n : Nat) : (setSource n s).pending = s.pending := (congrArg State.pending (setSource_quiet s n) :)
@[simp] theorem setSource_pcie_ready (n : Nat) : (setSource n s).pcie.ready = s.pcie.ready := (congrArg (fun x => x.pcie.ready) (setSource_quiet s n) :)
@[simp] theorem setSource_pcie_memSpace (n : Nat) : (setSource n s).pcie.memSpace = s.pcie.memSpace := (congrArg (fun x => x.pcie.memSpace) (setSource_quiet s n) :)
@[simp] theorem setSource_pcie_bme (n : Nat) : (setSource n s).pcie.bme = s.pcie.bme := (congrArg (fun x => x.pcie.bme) (setSource_quiet s n) :)
@[simp] theorem setSource_pcie_d3 (n : Nat) : (setSource n s).pcie.d3 = s.pcie.d3 := (congrArg (fun x => x.pcie.d3) (setSource_quiet s n) :)
@[simp] theorem setSource_pcie_mps (n : Nat) : (setSource n s).pcie.mps = s.pcie.mps := (congrArg (fun x => x.pcie.mps) (setSource_quiet s n) :)
@[simp] theorem setSource_pcie_mrrs (n : Nat) : (setSource n s).pcie.mrrs = s.pcie.mrrs := (congrArg (fun x => x.pcie.mrrs) (setSource_quiet s n) :)
@[simp] theorem setSource_pcie_tenBit (n : Nat) : (setSource n s).pcie.tenBit = s.pcie.tenBit := (congrArg (fun x => x.pcie.tenBit) (setSource_quiet s n) :)
@[simp] theorem setSource_pcie_cto (n : Nat) : (setSource n s).pcie.cto = s.pcie.cto := (congrArg (fun x => x.pcie.cto) (setSource_quiet s n) :)
@[simp] theorem setSource_pcie_ro (n : Nat) : (setSource n s).pcie.ro = s.pcie.ro := (congrArg (fun x => x.pcie.ro) (setSource_quiet s n) :)
@[simp] theorem setSource_pcie_msixEn (n : Nat) : (setSource n s).pcie.msixEn = s.pcie.msixEn := (congrArg (fun x => x.pcie.msixEn) (setSource_quiet s n) :)
@[simp] theorem setSource_pcie_fmask (n : Nat) : (setSource n s).pcie.fmask = s.pcie.fmask := (congrArg (fun x => x.pcie.fmask) (setSource_quiet s n) :)
@[simp] theorem setSource_pcie_reads (n : Nat) : (setSource n s).pcie.reads = s.pcie.reads := (congrArg (fun x => x.pcie.reads) (setSource_quiet s n) :)
@[simp] theorem setSource_pcie_waitq (n : Nat) : (setSource n s).pcie.waitq = s.pcie.waitq := (congrArg (fun x => x.pcie.waitq) (setSource_quiet s n) :)
@[simp] theorem setSource_pcie_quar (n : Nat) : (setSource n s).pcie.quar = s.pcie.quar := (congrArg (fun x => x.pcie.quar) (setSource_quiet s n) :)
@[simp] theorem setSource_pcie_silent (n : Nat) : (setSource n s).pcie.silent = s.pcie.silent := (congrArg (fun x => x.pcie.silent) (setSource_quiet s n) :)
@[simp] theorem setSource_pcie_aerCor (n : Nat) : (setSource n s).pcie.aerCor = s.pcie.aerCor := (congrArg (fun x => x.pcie.aerCor) (setSource_quiet s n) :)
@[simp] theorem setSource_pcie_aerUnc (n : Nat) : (setSource n s).pcie.aerUnc = s.pcie.aerUnc := (congrArg (fun x => x.pcie.aerUnc) (setSource_quiet s n) :)
@[simp] theorem setSource_pcie_aerSev (n : Nat) : (setSource n s).pcie.aerSev = s.pcie.aerSev := (congrArg (fun x => x.pcie.aerSev) (setSource_quiet s n) :)
@[simp] theorem setSource_pcie_aerUncMask (n : Nat) : (setSource n s).pcie.aerUncMask = s.pcie.aerUncMask := (congrArg (fun x => x.pcie.aerUncMask) (setSource_quiet s n) :)
@[simp] theorem setSource_pcie_aerCorMask (n : Nat) : (setSource n s).pcie.aerCorMask = s.pcie.aerCorMask := (congrArg (fun x => x.pcie.aerCorMask) (setSource_quiet s n) :)
@[simp] theorem setSource_pcie_aerFirst (n : Nat) : (setSource n s).pcie.aerFirst = s.pcie.aerFirst := (congrArg (fun x => x.pcie.aerFirst) (setSource_quiet s n) :)
@[simp] theorem setSource_pcie_aerHdr (n : Nat) : (setSource n s).pcie.aerHdr = s.pcie.aerHdr := (congrArg (fun x => x.pcie.aerHdr) (setSource_quiet s n) :)
@[simp] theorem setSource_pcie_cfg (n : Nat) : (setSource n s).pcie.cfg = s.pcie.cfg := (congrArg (fun x => x.pcie.cfg) (setSource_quiet s n) :)
@[simp] theorem setSource_pcie_xfers (n : Nat) : (setSource n s).pcie.xfers = s.pcie.xfers := (congrArg (fun x => x.pcie.xfers) (setSource_quiet s n) :)
@[simp] theorem setSource_pcie_halted (n : Nat) : (setSource n s).pcie.halted = s.pcie.halted := (congrArg (fun x => x.pcie.halted) (setSource_quiet s n) :)
@[simp] theorem setSource_pcie_bars (n : Nat) : (setSource n s).pcie.bars = s.pcie.bars := (congrArg (fun x => x.pcie.bars) (setSource_quiet s n) :)
@[simp] theorem setSource_pcie_ssvid (n : Nat) : (setSource n s).pcie.ssvid = s.pcie.ssvid := (congrArg (fun x => x.pcie.ssvid) (setSource_quiet s n) :)
@[simp] theorem setSource_pcie_ssid (n : Nat) : (setSource n s).pcie.ssid = s.pcie.ssid := (congrArg (fun x => x.pcie.ssid) (setSource_quiet s n) :)
@[simp] theorem setSource_pcie_serial (n : Nat) : (setSource n s).pcie.serial = s.pcie.serial := (congrArg (fun x => x.pcie.serial) (setSource_quiet s n) :)
@[simp] theorem signal_part (v : Nat) : (signal v s).part = s.part := (congrArg State.part (signal_quiet s v) :)
@[simp] theorem signal_refstrap (v : Nat) : (signal v s).refstrap = s.refstrap := (congrArg State.refstrap (signal_quiet s v) :)
@[simp] theorem signal_bscan (v : Nat) : (signal v s).bscan = s.bscan := (congrArg State.bscan (signal_quiet s v) :)
@[simp] theorem signal_hold (v : Nat) : (signal v s).hold = s.hold := (congrArg State.hold (signal_quiet s v) :)
@[simp] theorem signal_latch (v : Nat) : (signal v s).latch = s.latch := (congrArg State.latch (signal_quiet s v) :)
@[simp] theorem signal_errlog (v : Nat) : (signal v s).errlog = s.errlog := (congrArg State.errlog (signal_quiet s v) :)
@[simp] theorem signal_guard (v : Nat) : (signal v s).guard = s.guard := (congrArg State.guard (signal_quiet s v) :)
@[simp] theorem signal_tb (v : Nat) : (signal v s).tb = s.tb := (congrArg State.tb (signal_quiet s v) :)
@[simp] theorem signal_house (v : Nat) : (signal v s).house = s.house := (congrArg State.house (signal_quiet s v) :)
@[simp] theorem signal_lanes (v : Nat) : (signal v s).lanes = s.lanes := (congrArg State.lanes (signal_quiet s v) :)
@[simp] theorem signal_train (v : Nat) : (signal v s).train = s.train := (congrArg State.train (signal_quiet s v) :)
@[simp] theorem signal_sent (v : Nat) : (signal v s).sent = s.sent := (congrArg State.sent (signal_quiet s v) :)
@[simp] theorem signal_plans (v : Nat) : (signal v s).plans = s.plans := (congrArg State.plans (signal_quiet s v) :)
@[simp] theorem signal_au (v : Nat) : (signal v s).au = s.au := (congrArg State.au (signal_quiet s v) :)
@[simp] theorem signal_cap (v : Nat) : (signal v s).cap = s.cap := (congrArg State.cap (signal_quiet s v) :)
@[simp] theorem signal_streams (v : Nat) : (signal v s).streams = s.streams := (congrArg State.streams (signal_quiet s v) :)
@[simp] theorem signal_jr (v : Nat) : (signal v s).jr = s.jr := (congrArg State.jr (signal_quiet s v) :)
@[simp] theorem signal_dram (v : Nat) : (signal v s).dram = s.dram := (congrArg State.dram (signal_quiet s v) :)
@[simp] theorem signal_rings (v : Nat) : (signal v s).rings = s.rings := (congrArg State.rings (signal_quiet s v) :)
@[simp] theorem signal_cmds (v : Nat) : (signal v s).cmds = s.cmds := (congrArg State.cmds (signal_quiet s v) :)
@[simp] theorem signal_jobs (v : Nat) : (signal v s).jobs = s.jobs := (congrArg State.jobs (signal_quiet s v) :)
@[simp] theorem signal_cxSteps (v : Nat) : (signal v s).cxSteps = s.cxSteps := (congrArg State.cxSteps (signal_quiet s v) :)
@[simp] theorem signal_seqs (v : Nat) : (signal v s).seqs = s.seqs := (congrArg State.seqs (signal_quiet s v) :)
@[simp] theorem signal_stores (v : Nat) : (signal v s).stores = s.stores := (congrArg State.stores (signal_quiet s v) :)
@[simp] theorem signal_banks (v : Nat) : (signal v s).banks = s.banks := (congrArg State.banks (signal_quiet s v) :)
@[simp] theorem signal_pwr (v : Nat) : (signal v s).pwr = s.pwr := (congrArg State.pwr (signal_quiet s v) :)
@[simp] theorem signal_snap (v : Nat) : (signal v s).snap = s.snap := (congrArg State.snap (signal_quiet s v) :)
@[simp] theorem signal_jtag (v : Nat) : (signal v s).jtag = s.jtag := (congrArg State.jtag (signal_quiet s v) :)
@[simp] theorem signal_fresh (v : Nat) : (signal v s).fresh = s.fresh := (congrArg State.fresh (signal_quiet s v) :)
@[simp] theorem signal_pending (v : Nat) : (signal v s).pending = s.pending := (congrArg State.pending (signal_quiet s v) :)
@[simp] theorem signal_pcie_ready (v : Nat) : (signal v s).pcie.ready = s.pcie.ready := (congrArg (fun x => x.pcie.ready) (signal_quiet s v) :)
@[simp] theorem signal_pcie_memSpace (v : Nat) : (signal v s).pcie.memSpace = s.pcie.memSpace := (congrArg (fun x => x.pcie.memSpace) (signal_quiet s v) :)
@[simp] theorem signal_pcie_bme (v : Nat) : (signal v s).pcie.bme = s.pcie.bme := (congrArg (fun x => x.pcie.bme) (signal_quiet s v) :)
@[simp] theorem signal_pcie_d3 (v : Nat) : (signal v s).pcie.d3 = s.pcie.d3 := (congrArg (fun x => x.pcie.d3) (signal_quiet s v) :)
@[simp] theorem signal_pcie_mps (v : Nat) : (signal v s).pcie.mps = s.pcie.mps := (congrArg (fun x => x.pcie.mps) (signal_quiet s v) :)
@[simp] theorem signal_pcie_mrrs (v : Nat) : (signal v s).pcie.mrrs = s.pcie.mrrs := (congrArg (fun x => x.pcie.mrrs) (signal_quiet s v) :)
@[simp] theorem signal_pcie_tenBit (v : Nat) : (signal v s).pcie.tenBit = s.pcie.tenBit := (congrArg (fun x => x.pcie.tenBit) (signal_quiet s v) :)
@[simp] theorem signal_pcie_cto (v : Nat) : (signal v s).pcie.cto = s.pcie.cto := (congrArg (fun x => x.pcie.cto) (signal_quiet s v) :)
@[simp] theorem signal_pcie_ro (v : Nat) : (signal v s).pcie.ro = s.pcie.ro := (congrArg (fun x => x.pcie.ro) (signal_quiet s v) :)
@[simp] theorem signal_pcie_msixEn (v : Nat) : (signal v s).pcie.msixEn = s.pcie.msixEn := (congrArg (fun x => x.pcie.msixEn) (signal_quiet s v) :)
@[simp] theorem signal_pcie_fmask (v : Nat) : (signal v s).pcie.fmask = s.pcie.fmask := (congrArg (fun x => x.pcie.fmask) (signal_quiet s v) :)
@[simp] theorem signal_pcie_reads (v : Nat) : (signal v s).pcie.reads = s.pcie.reads := (congrArg (fun x => x.pcie.reads) (signal_quiet s v) :)
@[simp] theorem signal_pcie_waitq (v : Nat) : (signal v s).pcie.waitq = s.pcie.waitq := (congrArg (fun x => x.pcie.waitq) (signal_quiet s v) :)
@[simp] theorem signal_pcie_quar (v : Nat) : (signal v s).pcie.quar = s.pcie.quar := (congrArg (fun x => x.pcie.quar) (signal_quiet s v) :)
@[simp] theorem signal_pcie_silent (v : Nat) : (signal v s).pcie.silent = s.pcie.silent := (congrArg (fun x => x.pcie.silent) (signal_quiet s v) :)
@[simp] theorem signal_pcie_aerCor (v : Nat) : (signal v s).pcie.aerCor = s.pcie.aerCor := (congrArg (fun x => x.pcie.aerCor) (signal_quiet s v) :)
@[simp] theorem signal_pcie_aerUnc (v : Nat) : (signal v s).pcie.aerUnc = s.pcie.aerUnc := (congrArg (fun x => x.pcie.aerUnc) (signal_quiet s v) :)
@[simp] theorem signal_pcie_aerSev (v : Nat) : (signal v s).pcie.aerSev = s.pcie.aerSev := (congrArg (fun x => x.pcie.aerSev) (signal_quiet s v) :)
@[simp] theorem signal_pcie_aerUncMask (v : Nat) : (signal v s).pcie.aerUncMask = s.pcie.aerUncMask := (congrArg (fun x => x.pcie.aerUncMask) (signal_quiet s v) :)
@[simp] theorem signal_pcie_aerCorMask (v : Nat) : (signal v s).pcie.aerCorMask = s.pcie.aerCorMask := (congrArg (fun x => x.pcie.aerCorMask) (signal_quiet s v) :)
@[simp] theorem signal_pcie_aerFirst (v : Nat) : (signal v s).pcie.aerFirst = s.pcie.aerFirst := (congrArg (fun x => x.pcie.aerFirst) (signal_quiet s v) :)
@[simp] theorem signal_pcie_aerHdr (v : Nat) : (signal v s).pcie.aerHdr = s.pcie.aerHdr := (congrArg (fun x => x.pcie.aerHdr) (signal_quiet s v) :)
@[simp] theorem signal_pcie_cfg (v : Nat) : (signal v s).pcie.cfg = s.pcie.cfg := (congrArg (fun x => x.pcie.cfg) (signal_quiet s v) :)
@[simp] theorem signal_pcie_xfers (v : Nat) : (signal v s).pcie.xfers = s.pcie.xfers := (congrArg (fun x => x.pcie.xfers) (signal_quiet s v) :)
@[simp] theorem signal_pcie_halted (v : Nat) : (signal v s).pcie.halted = s.pcie.halted := (congrArg (fun x => x.pcie.halted) (signal_quiet s v) :)
@[simp] theorem signal_pcie_bars (v : Nat) : (signal v s).pcie.bars = s.pcie.bars := (congrArg (fun x => x.pcie.bars) (signal_quiet s v) :)
@[simp] theorem signal_pcie_ssvid (v : Nat) : (signal v s).pcie.ssvid = s.pcie.ssvid := (congrArg (fun x => x.pcie.ssvid) (signal_quiet s v) :)
@[simp] theorem signal_pcie_ssid (v : Nat) : (signal v s).pcie.ssid = s.pcie.ssid := (congrArg (fun x => x.pcie.ssid) (signal_quiet s v) :)
@[simp] theorem signal_pcie_serial (v : Nat) : (signal v s).pcie.serial = s.pcie.serial := (congrArg (fun x => x.pcie.serial) (signal_quiet s v) :)
@[simp] theorem count_part (off : Nat) : (count off s).part = s.part := (congrArg State.part (count_quieter s off) :)
@[simp] theorem count_refstrap (off : Nat) : (count off s).refstrap = s.refstrap := (congrArg State.refstrap (count_quieter s off) :)
@[simp] theorem count_bscan (off : Nat) : (count off s).bscan = s.bscan := (congrArg State.bscan (count_quieter s off) :)
@[simp] theorem count_hold (off : Nat) : (count off s).hold = s.hold := (congrArg State.hold (count_quieter s off) :)
@[simp] theorem count_latch (off : Nat) : (count off s).latch = s.latch := (congrArg State.latch (count_quieter s off) :)
@[simp] theorem count_errlog (off : Nat) : (count off s).errlog = s.errlog := (congrArg State.errlog (count_quieter s off) :)
@[simp] theorem count_guard (off : Nat) : (count off s).guard = s.guard := (congrArg State.guard (count_quieter s off) :)
@[simp] theorem count_tb (off : Nat) : (count off s).tb = s.tb := (congrArg State.tb (count_quieter s off) :)
@[simp] theorem count_house (off : Nat) : (count off s).house = s.house := (congrArg State.house (count_quieter s off) :)
@[simp] theorem count_lanes (off : Nat) : (count off s).lanes = s.lanes := (congrArg State.lanes (count_quieter s off) :)
@[simp] theorem count_train (off : Nat) : (count off s).train = s.train := (congrArg State.train (count_quieter s off) :)
@[simp] theorem count_sent (off : Nat) : (count off s).sent = s.sent := (congrArg State.sent (count_quieter s off) :)
@[simp] theorem count_plans (off : Nat) : (count off s).plans = s.plans := (congrArg State.plans (count_quieter s off) :)
@[simp] theorem count_au (off : Nat) : (count off s).au = s.au := (congrArg State.au (count_quieter s off) :)
@[simp] theorem count_cap (off : Nat) : (count off s).cap = s.cap := (congrArg State.cap (count_quieter s off) :)
@[simp] theorem count_streams (off : Nat) : (count off s).streams = s.streams := (congrArg State.streams (count_quieter s off) :)
@[simp] theorem count_jr (off : Nat) : (count off s).jr = s.jr := (congrArg State.jr (count_quieter s off) :)
@[simp] theorem count_dram (off : Nat) : (count off s).dram = s.dram := (congrArg State.dram (count_quieter s off) :)
@[simp] theorem count_rings (off : Nat) : (count off s).rings = s.rings := (congrArg State.rings (count_quieter s off) :)
@[simp] theorem count_cmds (off : Nat) : (count off s).cmds = s.cmds := (congrArg State.cmds (count_quieter s off) :)
@[simp] theorem count_jobs (off : Nat) : (count off s).jobs = s.jobs := (congrArg State.jobs (count_quieter s off) :)
@[simp] theorem count_cxSteps (off : Nat) : (count off s).cxSteps = s.cxSteps := (congrArg State.cxSteps (count_quieter s off) :)
@[simp] theorem count_seqs (off : Nat) : (count off s).seqs = s.seqs := (congrArg State.seqs (count_quieter s off) :)
@[simp] theorem count_stores (off : Nat) : (count off s).stores = s.stores := (congrArg State.stores (count_quieter s off) :)
@[simp] theorem count_banks (off : Nat) : (count off s).banks = s.banks := (congrArg State.banks (count_quieter s off) :)
@[simp] theorem count_pwr (off : Nat) : (count off s).pwr = s.pwr := (congrArg State.pwr (count_quieter s off) :)
@[simp] theorem count_snap (off : Nat) : (count off s).snap = s.snap := (congrArg State.snap (count_quieter s off) :)
@[simp] theorem count_jtag (off : Nat) : (count off s).jtag = s.jtag := (congrArg State.jtag (count_quieter s off) :)
@[simp] theorem count_fresh (off : Nat) : (count off s).fresh = s.fresh := (congrArg State.fresh (count_quieter s off) :)
@[simp] theorem count_pending (off : Nat) : (count off s).pending = s.pending := (congrArg State.pending (count_quieter s off) :)
@[simp] theorem count_pcie_ready (off : Nat) : (count off s).pcie.ready = s.pcie.ready := (congrArg (fun x => x.pcie.ready) (count_quieter s off) :)
@[simp] theorem count_pcie_memSpace (off : Nat) : (count off s).pcie.memSpace = s.pcie.memSpace := (congrArg (fun x => x.pcie.memSpace) (count_quieter s off) :)
@[simp] theorem count_pcie_bme (off : Nat) : (count off s).pcie.bme = s.pcie.bme := (congrArg (fun x => x.pcie.bme) (count_quieter s off) :)
@[simp] theorem count_pcie_d3 (off : Nat) : (count off s).pcie.d3 = s.pcie.d3 := (congrArg (fun x => x.pcie.d3) (count_quieter s off) :)
@[simp] theorem count_pcie_mps (off : Nat) : (count off s).pcie.mps = s.pcie.mps := (congrArg (fun x => x.pcie.mps) (count_quieter s off) :)
@[simp] theorem count_pcie_mrrs (off : Nat) : (count off s).pcie.mrrs = s.pcie.mrrs := (congrArg (fun x => x.pcie.mrrs) (count_quieter s off) :)
@[simp] theorem count_pcie_tenBit (off : Nat) : (count off s).pcie.tenBit = s.pcie.tenBit := (congrArg (fun x => x.pcie.tenBit) (count_quieter s off) :)
@[simp] theorem count_pcie_cto (off : Nat) : (count off s).pcie.cto = s.pcie.cto := (congrArg (fun x => x.pcie.cto) (count_quieter s off) :)
@[simp] theorem count_pcie_ro (off : Nat) : (count off s).pcie.ro = s.pcie.ro := (congrArg (fun x => x.pcie.ro) (count_quieter s off) :)
@[simp] theorem count_pcie_msixEn (off : Nat) : (count off s).pcie.msixEn = s.pcie.msixEn := (congrArg (fun x => x.pcie.msixEn) (count_quieter s off) :)
@[simp] theorem count_pcie_fmask (off : Nat) : (count off s).pcie.fmask = s.pcie.fmask := (congrArg (fun x => x.pcie.fmask) (count_quieter s off) :)
@[simp] theorem count_pcie_reads (off : Nat) : (count off s).pcie.reads = s.pcie.reads := (congrArg (fun x => x.pcie.reads) (count_quieter s off) :)
@[simp] theorem count_pcie_waitq (off : Nat) : (count off s).pcie.waitq = s.pcie.waitq := (congrArg (fun x => x.pcie.waitq) (count_quieter s off) :)
@[simp] theorem count_pcie_quar (off : Nat) : (count off s).pcie.quar = s.pcie.quar := (congrArg (fun x => x.pcie.quar) (count_quieter s off) :)
@[simp] theorem count_pcie_silent (off : Nat) : (count off s).pcie.silent = s.pcie.silent := (congrArg (fun x => x.pcie.silent) (count_quieter s off) :)
@[simp] theorem count_pcie_aerCor (off : Nat) : (count off s).pcie.aerCor = s.pcie.aerCor := (congrArg (fun x => x.pcie.aerCor) (count_quieter s off) :)
@[simp] theorem count_pcie_aerUnc (off : Nat) : (count off s).pcie.aerUnc = s.pcie.aerUnc := (congrArg (fun x => x.pcie.aerUnc) (count_quieter s off) :)
@[simp] theorem count_pcie_aerSev (off : Nat) : (count off s).pcie.aerSev = s.pcie.aerSev := (congrArg (fun x => x.pcie.aerSev) (count_quieter s off) :)
@[simp] theorem count_pcie_aerUncMask (off : Nat) : (count off s).pcie.aerUncMask = s.pcie.aerUncMask := (congrArg (fun x => x.pcie.aerUncMask) (count_quieter s off) :)
@[simp] theorem count_pcie_aerCorMask (off : Nat) : (count off s).pcie.aerCorMask = s.pcie.aerCorMask := (congrArg (fun x => x.pcie.aerCorMask) (count_quieter s off) :)
@[simp] theorem count_pcie_aerFirst (off : Nat) : (count off s).pcie.aerFirst = s.pcie.aerFirst := (congrArg (fun x => x.pcie.aerFirst) (count_quieter s off) :)
@[simp] theorem count_pcie_aerHdr (off : Nat) : (count off s).pcie.aerHdr = s.pcie.aerHdr := (congrArg (fun x => x.pcie.aerHdr) (count_quieter s off) :)
@[simp] theorem count_pcie_cfg (off : Nat) : (count off s).pcie.cfg = s.pcie.cfg := (congrArg (fun x => x.pcie.cfg) (count_quieter s off) :)
@[simp] theorem count_pcie_xfers (off : Nat) : (count off s).pcie.xfers = s.pcie.xfers := (congrArg (fun x => x.pcie.xfers) (count_quieter s off) :)
@[simp] theorem count_pcie_halted (off : Nat) : (count off s).pcie.halted = s.pcie.halted := (congrArg (fun x => x.pcie.halted) (count_quieter s off) :)
@[simp] theorem count_pcie_bars (off : Nat) : (count off s).pcie.bars = s.pcie.bars := (congrArg (fun x => x.pcie.bars) (count_quieter s off) :)
@[simp] theorem count_pcie_ssvid (off : Nat) : (count off s).pcie.ssvid = s.pcie.ssvid := (congrArg (fun x => x.pcie.ssvid) (count_quieter s off) :)
@[simp] theorem count_pcie_ssid (off : Nat) : (count off s).pcie.ssid = s.pcie.ssid := (congrArg (fun x => x.pcie.ssid) (count_quieter s off) :)
@[simp] theorem count_pcie_serial (off : Nat) : (count off s).pcie.serial = s.pcie.serial := (congrArg (fun x => x.pcie.serial) (count_quieter s off) :)
@[simp] theorem countN_part (n off : Nat) : (countN n off s).part = s.part := (congrArg State.part (countN_quieter s n off) :)
@[simp] theorem countN_refstrap (n off : Nat) : (countN n off s).refstrap = s.refstrap := (congrArg State.refstrap (countN_quieter s n off) :)
@[simp] theorem countN_bscan (n off : Nat) : (countN n off s).bscan = s.bscan := (congrArg State.bscan (countN_quieter s n off) :)
@[simp] theorem countN_hold (n off : Nat) : (countN n off s).hold = s.hold := (congrArg State.hold (countN_quieter s n off) :)
@[simp] theorem countN_latch (n off : Nat) : (countN n off s).latch = s.latch := (congrArg State.latch (countN_quieter s n off) :)
@[simp] theorem countN_errlog (n off : Nat) : (countN n off s).errlog = s.errlog := (congrArg State.errlog (countN_quieter s n off) :)
@[simp] theorem countN_guard (n off : Nat) : (countN n off s).guard = s.guard := (congrArg State.guard (countN_quieter s n off) :)
@[simp] theorem countN_tb (n off : Nat) : (countN n off s).tb = s.tb := (congrArg State.tb (countN_quieter s n off) :)
@[simp] theorem countN_house (n off : Nat) : (countN n off s).house = s.house := (congrArg State.house (countN_quieter s n off) :)
@[simp] theorem countN_lanes (n off : Nat) : (countN n off s).lanes = s.lanes := (congrArg State.lanes (countN_quieter s n off) :)
@[simp] theorem countN_train (n off : Nat) : (countN n off s).train = s.train := (congrArg State.train (countN_quieter s n off) :)
@[simp] theorem countN_sent (n off : Nat) : (countN n off s).sent = s.sent := (congrArg State.sent (countN_quieter s n off) :)
@[simp] theorem countN_plans (n off : Nat) : (countN n off s).plans = s.plans := (congrArg State.plans (countN_quieter s n off) :)
@[simp] theorem countN_au (n off : Nat) : (countN n off s).au = s.au := (congrArg State.au (countN_quieter s n off) :)
@[simp] theorem countN_cap (n off : Nat) : (countN n off s).cap = s.cap := (congrArg State.cap (countN_quieter s n off) :)
@[simp] theorem countN_streams (n off : Nat) : (countN n off s).streams = s.streams := (congrArg State.streams (countN_quieter s n off) :)
@[simp] theorem countN_jr (n off : Nat) : (countN n off s).jr = s.jr := (congrArg State.jr (countN_quieter s n off) :)
@[simp] theorem countN_dram (n off : Nat) : (countN n off s).dram = s.dram := (congrArg State.dram (countN_quieter s n off) :)
@[simp] theorem countN_rings (n off : Nat) : (countN n off s).rings = s.rings := (congrArg State.rings (countN_quieter s n off) :)
@[simp] theorem countN_cmds (n off : Nat) : (countN n off s).cmds = s.cmds := (congrArg State.cmds (countN_quieter s n off) :)
@[simp] theorem countN_jobs (n off : Nat) : (countN n off s).jobs = s.jobs := (congrArg State.jobs (countN_quieter s n off) :)
@[simp] theorem countN_cxSteps (n off : Nat) : (countN n off s).cxSteps = s.cxSteps := (congrArg State.cxSteps (countN_quieter s n off) :)
@[simp] theorem countN_seqs (n off : Nat) : (countN n off s).seqs = s.seqs := (congrArg State.seqs (countN_quieter s n off) :)
@[simp] theorem countN_stores (n off : Nat) : (countN n off s).stores = s.stores := (congrArg State.stores (countN_quieter s n off) :)
@[simp] theorem countN_banks (n off : Nat) : (countN n off s).banks = s.banks := (congrArg State.banks (countN_quieter s n off) :)
@[simp] theorem countN_pwr (n off : Nat) : (countN n off s).pwr = s.pwr := (congrArg State.pwr (countN_quieter s n off) :)
@[simp] theorem countN_snap (n off : Nat) : (countN n off s).snap = s.snap := (congrArg State.snap (countN_quieter s n off) :)
@[simp] theorem countN_jtag (n off : Nat) : (countN n off s).jtag = s.jtag := (congrArg State.jtag (countN_quieter s n off) :)
@[simp] theorem countN_fresh (n off : Nat) : (countN n off s).fresh = s.fresh := (congrArg State.fresh (countN_quieter s n off) :)
@[simp] theorem countN_pending (n off : Nat) : (countN n off s).pending = s.pending := (congrArg State.pending (countN_quieter s n off) :)
@[simp] theorem countN_pcie_ready (n off : Nat) : (countN n off s).pcie.ready = s.pcie.ready := (congrArg (fun x => x.pcie.ready) (countN_quieter s n off) :)
@[simp] theorem countN_pcie_memSpace (n off : Nat) : (countN n off s).pcie.memSpace = s.pcie.memSpace := (congrArg (fun x => x.pcie.memSpace) (countN_quieter s n off) :)
@[simp] theorem countN_pcie_bme (n off : Nat) : (countN n off s).pcie.bme = s.pcie.bme := (congrArg (fun x => x.pcie.bme) (countN_quieter s n off) :)
@[simp] theorem countN_pcie_d3 (n off : Nat) : (countN n off s).pcie.d3 = s.pcie.d3 := (congrArg (fun x => x.pcie.d3) (countN_quieter s n off) :)
@[simp] theorem countN_pcie_mps (n off : Nat) : (countN n off s).pcie.mps = s.pcie.mps := (congrArg (fun x => x.pcie.mps) (countN_quieter s n off) :)
@[simp] theorem countN_pcie_mrrs (n off : Nat) : (countN n off s).pcie.mrrs = s.pcie.mrrs := (congrArg (fun x => x.pcie.mrrs) (countN_quieter s n off) :)
@[simp] theorem countN_pcie_tenBit (n off : Nat) : (countN n off s).pcie.tenBit = s.pcie.tenBit := (congrArg (fun x => x.pcie.tenBit) (countN_quieter s n off) :)
@[simp] theorem countN_pcie_cto (n off : Nat) : (countN n off s).pcie.cto = s.pcie.cto := (congrArg (fun x => x.pcie.cto) (countN_quieter s n off) :)
@[simp] theorem countN_pcie_ro (n off : Nat) : (countN n off s).pcie.ro = s.pcie.ro := (congrArg (fun x => x.pcie.ro) (countN_quieter s n off) :)
@[simp] theorem countN_pcie_msixEn (n off : Nat) : (countN n off s).pcie.msixEn = s.pcie.msixEn := (congrArg (fun x => x.pcie.msixEn) (countN_quieter s n off) :)
@[simp] theorem countN_pcie_fmask (n off : Nat) : (countN n off s).pcie.fmask = s.pcie.fmask := (congrArg (fun x => x.pcie.fmask) (countN_quieter s n off) :)
@[simp] theorem countN_pcie_reads (n off : Nat) : (countN n off s).pcie.reads = s.pcie.reads := (congrArg (fun x => x.pcie.reads) (countN_quieter s n off) :)
@[simp] theorem countN_pcie_waitq (n off : Nat) : (countN n off s).pcie.waitq = s.pcie.waitq := (congrArg (fun x => x.pcie.waitq) (countN_quieter s n off) :)
@[simp] theorem countN_pcie_quar (n off : Nat) : (countN n off s).pcie.quar = s.pcie.quar := (congrArg (fun x => x.pcie.quar) (countN_quieter s n off) :)
@[simp] theorem countN_pcie_silent (n off : Nat) : (countN n off s).pcie.silent = s.pcie.silent := (congrArg (fun x => x.pcie.silent) (countN_quieter s n off) :)
@[simp] theorem countN_pcie_aerCor (n off : Nat) : (countN n off s).pcie.aerCor = s.pcie.aerCor := (congrArg (fun x => x.pcie.aerCor) (countN_quieter s n off) :)
@[simp] theorem countN_pcie_aerUnc (n off : Nat) : (countN n off s).pcie.aerUnc = s.pcie.aerUnc := (congrArg (fun x => x.pcie.aerUnc) (countN_quieter s n off) :)
@[simp] theorem countN_pcie_aerSev (n off : Nat) : (countN n off s).pcie.aerSev = s.pcie.aerSev := (congrArg (fun x => x.pcie.aerSev) (countN_quieter s n off) :)
@[simp] theorem countN_pcie_aerUncMask (n off : Nat) : (countN n off s).pcie.aerUncMask = s.pcie.aerUncMask := (congrArg (fun x => x.pcie.aerUncMask) (countN_quieter s n off) :)
@[simp] theorem countN_pcie_aerCorMask (n off : Nat) : (countN n off s).pcie.aerCorMask = s.pcie.aerCorMask := (congrArg (fun x => x.pcie.aerCorMask) (countN_quieter s n off) :)
@[simp] theorem countN_pcie_aerFirst (n off : Nat) : (countN n off s).pcie.aerFirst = s.pcie.aerFirst := (congrArg (fun x => x.pcie.aerFirst) (countN_quieter s n off) :)
@[simp] theorem countN_pcie_aerHdr (n off : Nat) : (countN n off s).pcie.aerHdr = s.pcie.aerHdr := (congrArg (fun x => x.pcie.aerHdr) (countN_quieter s n off) :)
@[simp] theorem countN_pcie_cfg (n off : Nat) : (countN n off s).pcie.cfg = s.pcie.cfg := (congrArg (fun x => x.pcie.cfg) (countN_quieter s n off) :)
@[simp] theorem countN_pcie_xfers (n off : Nat) : (countN n off s).pcie.xfers = s.pcie.xfers := (congrArg (fun x => x.pcie.xfers) (countN_quieter s n off) :)
@[simp] theorem countN_pcie_halted (n off : Nat) : (countN n off s).pcie.halted = s.pcie.halted := (congrArg (fun x => x.pcie.halted) (countN_quieter s n off) :)
@[simp] theorem countN_pcie_bars (n off : Nat) : (countN n off s).pcie.bars = s.pcie.bars := (congrArg (fun x => x.pcie.bars) (countN_quieter s n off) :)
@[simp] theorem countN_pcie_ssvid (n off : Nat) : (countN n off s).pcie.ssvid = s.pcie.ssvid := (congrArg (fun x => x.pcie.ssvid) (countN_quieter s n off) :)
@[simp] theorem countN_pcie_ssid (n off : Nat) : (countN n off s).pcie.ssid = s.pcie.ssid := (congrArg (fun x => x.pcie.ssid) (countN_quieter s n off) :)
@[simp] theorem countN_pcie_serial (n off : Nat) : (countN n off s).pcie.serial = s.pcie.serial := (congrArg (fun x => x.pcie.serial) (countN_quieter s n off) :)
@[simp] theorem raise_part (n d : Nat) : (raise n d s).part = s.part := (congrArg State.part (raise_calm s n d) :)
@[simp] theorem raise_refstrap (n d : Nat) : (raise n d s).refstrap = s.refstrap := (congrArg State.refstrap (raise_calm s n d) :)
@[simp] theorem raise_bscan (n d : Nat) : (raise n d s).bscan = s.bscan := (congrArg State.bscan (raise_calm s n d) :)
@[simp] theorem raise_hold (n d : Nat) : (raise n d s).hold = s.hold := (congrArg State.hold (raise_calm s n d) :)
@[simp] theorem raise_latch (n d : Nat) : (raise n d s).latch = s.latch := (congrArg State.latch (raise_calm s n d) :)
@[simp] theorem raise_guard (n d : Nat) : (raise n d s).guard = s.guard := (congrArg State.guard (raise_calm s n d) :)
@[simp] theorem raise_tb (n d : Nat) : (raise n d s).tb = s.tb := (congrArg State.tb (raise_calm s n d) :)
@[simp] theorem raise_house (n d : Nat) : (raise n d s).house = s.house := (congrArg State.house (raise_calm s n d) :)
@[simp] theorem raise_lanes (n d : Nat) : (raise n d s).lanes = s.lanes := (congrArg State.lanes (raise_calm s n d) :)
@[simp] theorem raise_train (n d : Nat) : (raise n d s).train = s.train := (congrArg State.train (raise_calm s n d) :)
@[simp] theorem raise_sent (n d : Nat) : (raise n d s).sent = s.sent := (congrArg State.sent (raise_calm s n d) :)
@[simp] theorem raise_plans (n d : Nat) : (raise n d s).plans = s.plans := (congrArg State.plans (raise_calm s n d) :)
@[simp] theorem raise_jr (n d : Nat) : (raise n d s).jr = s.jr := (congrArg State.jr (raise_calm s n d) :)
@[simp] theorem raise_rings (n d : Nat) : (raise n d s).rings = s.rings := (congrArg State.rings (raise_calm s n d) :)
@[simp] theorem raise_cmds (n d : Nat) : (raise n d s).cmds = s.cmds := (congrArg State.cmds (raise_calm s n d) :)
@[simp] theorem raise_jobs (n d : Nat) : (raise n d s).jobs = s.jobs := (congrArg State.jobs (raise_calm s n d) :)
@[simp] theorem raise_cxSteps (n d : Nat) : (raise n d s).cxSteps = s.cxSteps := (congrArg State.cxSteps (raise_calm s n d) :)
@[simp] theorem raise_seqs (n d : Nat) : (raise n d s).seqs = s.seqs := (congrArg State.seqs (raise_calm s n d) :)
@[simp] theorem raise_stores (n d : Nat) : (raise n d s).stores = s.stores := (congrArg State.stores (raise_calm s n d) :)
@[simp] theorem raise_banks (n d : Nat) : (raise n d s).banks = s.banks := (congrArg State.banks (raise_calm s n d) :)
@[simp] theorem raise_pwr (n d : Nat) : (raise n d s).pwr = s.pwr := (congrArg State.pwr (raise_calm s n d) :)
@[simp] theorem raise_snap (n d : Nat) : (raise n d s).snap = s.snap := (congrArg State.snap (raise_calm s n d) :)
@[simp] theorem raise_jtag (n d : Nat) : (raise n d s).jtag = s.jtag := (congrArg State.jtag (raise_calm s n d) :)
@[simp] theorem raise_fresh (n d : Nat) : (raise n d s).fresh = s.fresh := (congrArg State.fresh (raise_calm s n d) :)
@[simp] theorem raise_pending (n d : Nat) : (raise n d s).pending = s.pending := (congrArg State.pending (raise_calm s n d) :)
@[simp] theorem raise_pcie_ready (n d : Nat) : (raise n d s).pcie.ready = s.pcie.ready := (congrArg (fun x => x.pcie.ready) (raise_calm s n d) :)
@[simp] theorem raise_pcie_memSpace (n d : Nat) : (raise n d s).pcie.memSpace = s.pcie.memSpace := (congrArg (fun x => x.pcie.memSpace) (raise_calm s n d) :)
@[simp] theorem raise_pcie_bme (n d : Nat) : (raise n d s).pcie.bme = s.pcie.bme := (congrArg (fun x => x.pcie.bme) (raise_calm s n d) :)
@[simp] theorem raise_pcie_d3 (n d : Nat) : (raise n d s).pcie.d3 = s.pcie.d3 := (congrArg (fun x => x.pcie.d3) (raise_calm s n d) :)
@[simp] theorem raise_pcie_mps (n d : Nat) : (raise n d s).pcie.mps = s.pcie.mps := (congrArg (fun x => x.pcie.mps) (raise_calm s n d) :)
@[simp] theorem raise_pcie_mrrs (n d : Nat) : (raise n d s).pcie.mrrs = s.pcie.mrrs := (congrArg (fun x => x.pcie.mrrs) (raise_calm s n d) :)
@[simp] theorem raise_pcie_tenBit (n d : Nat) : (raise n d s).pcie.tenBit = s.pcie.tenBit := (congrArg (fun x => x.pcie.tenBit) (raise_calm s n d) :)
@[simp] theorem raise_pcie_cto (n d : Nat) : (raise n d s).pcie.cto = s.pcie.cto := (congrArg (fun x => x.pcie.cto) (raise_calm s n d) :)
@[simp] theorem raise_pcie_ro (n d : Nat) : (raise n d s).pcie.ro = s.pcie.ro := (congrArg (fun x => x.pcie.ro) (raise_calm s n d) :)
@[simp] theorem raise_pcie_msixEn (n d : Nat) : (raise n d s).pcie.msixEn = s.pcie.msixEn := (congrArg (fun x => x.pcie.msixEn) (raise_calm s n d) :)
@[simp] theorem raise_pcie_fmask (n d : Nat) : (raise n d s).pcie.fmask = s.pcie.fmask := (congrArg (fun x => x.pcie.fmask) (raise_calm s n d) :)
@[simp] theorem raise_pcie_reads (n d : Nat) : (raise n d s).pcie.reads = s.pcie.reads := (congrArg (fun x => x.pcie.reads) (raise_calm s n d) :)
@[simp] theorem raise_pcie_waitq (n d : Nat) : (raise n d s).pcie.waitq = s.pcie.waitq := (congrArg (fun x => x.pcie.waitq) (raise_calm s n d) :)
@[simp] theorem raise_pcie_quar (n d : Nat) : (raise n d s).pcie.quar = s.pcie.quar := (congrArg (fun x => x.pcie.quar) (raise_calm s n d) :)
@[simp] theorem raise_pcie_silent (n d : Nat) : (raise n d s).pcie.silent = s.pcie.silent := (congrArg (fun x => x.pcie.silent) (raise_calm s n d) :)
@[simp] theorem raise_pcie_aerCor (n d : Nat) : (raise n d s).pcie.aerCor = s.pcie.aerCor := (congrArg (fun x => x.pcie.aerCor) (raise_calm s n d) :)
@[simp] theorem raise_pcie_aerUnc (n d : Nat) : (raise n d s).pcie.aerUnc = s.pcie.aerUnc := (congrArg (fun x => x.pcie.aerUnc) (raise_calm s n d) :)
@[simp] theorem raise_pcie_aerSev (n d : Nat) : (raise n d s).pcie.aerSev = s.pcie.aerSev := (congrArg (fun x => x.pcie.aerSev) (raise_calm s n d) :)
@[simp] theorem raise_pcie_aerUncMask (n d : Nat) : (raise n d s).pcie.aerUncMask = s.pcie.aerUncMask := (congrArg (fun x => x.pcie.aerUncMask) (raise_calm s n d) :)
@[simp] theorem raise_pcie_aerCorMask (n d : Nat) : (raise n d s).pcie.aerCorMask = s.pcie.aerCorMask := (congrArg (fun x => x.pcie.aerCorMask) (raise_calm s n d) :)
@[simp] theorem raise_pcie_aerFirst (n d : Nat) : (raise n d s).pcie.aerFirst = s.pcie.aerFirst := (congrArg (fun x => x.pcie.aerFirst) (raise_calm s n d) :)
@[simp] theorem raise_pcie_aerHdr (n d : Nat) : (raise n d s).pcie.aerHdr = s.pcie.aerHdr := (congrArg (fun x => x.pcie.aerHdr) (raise_calm s n d) :)
@[simp] theorem raise_pcie_cfg (n d : Nat) : (raise n d s).pcie.cfg = s.pcie.cfg := (congrArg (fun x => x.pcie.cfg) (raise_calm s n d) :)
@[simp] theorem raise_pcie_xfers (n d : Nat) : (raise n d s).pcie.xfers = s.pcie.xfers := (congrArg (fun x => x.pcie.xfers) (raise_calm s n d) :)
@[simp] theorem raise_pcie_halted (n d : Nat) : (raise n d s).pcie.halted = s.pcie.halted := (congrArg (fun x => x.pcie.halted) (raise_calm s n d) :)
@[simp] theorem raise_pcie_bars (n d : Nat) : (raise n d s).pcie.bars = s.pcie.bars := (congrArg (fun x => x.pcie.bars) (raise_calm s n d) :)
@[simp] theorem raise_pcie_ssvid (n d : Nat) : (raise n d s).pcie.ssvid = s.pcie.ssvid := (congrArg (fun x => x.pcie.ssvid) (raise_calm s n d) :)
@[simp] theorem raise_pcie_ssid (n d : Nat) : (raise n d s).pcie.ssid = s.pcie.ssid := (congrArg (fun x => x.pcie.ssid) (raise_calm s n d) :)
@[simp] theorem raise_pcie_serial (n d : Nat) : (raise n d s).pcie.serial = s.pcie.serial := (congrArg (fun x => x.pcie.serial) (raise_calm s n d) :)
@[simp] theorem raise_dram_refIn (n d : Nat) : (raise n d s).dram.refIn = s.dram.refIn := (congrArg (fun x => x.dram.refIn) (raise_calm s n d) :)
@[simp] theorem raise_dram_refPend (n d : Nat) : (raise n d s).dram.refPend = s.dram.refPend := (congrArg (fun x => x.dram.refPend) (raise_calm s n d) :)
@[simp] theorem raise_dram_mem (n d : Nat) : (raise n d s).dram.mem = s.dram.mem := (congrArg (fun x => x.dram.mem) (raise_calm s n d) :)
@[simp] theorem raise_dram_times (n d : Nat) : (raise n d s).dram.times = s.dram.times := (congrArg (fun x => x.dram.times) (raise_calm s n d) :)
@[simp] theorem raise_dram_reads (n d : Nat) : (raise n d s).dram.reads = s.dram.reads := (congrArg (fun x => x.dram.reads) (raise_calm s n d) :)
@[simp] theorem raise_dram_ids (n d : Nat) : (raise n d s).dram.ids = s.dram.ids := (congrArg (fun x => x.dram.ids) (raise_calm s n d) :)
@[simp] theorem raise_dram_poison (n d : Nat) : (raise n d s).dram.poison = s.dram.poison := (congrArg (fun x => x.dram.poison) (raise_calm s n d) :)
@[simp] theorem raise_dram_trainOrigin (n d : Nat) : (raise n d s).dram.trainOrigin = s.dram.trainOrigin := (congrArg (fun x => x.dram.trainOrigin) (raise_calm s n d) :)

end Sys2Proof.Machine
end

