-- ==== Sys2Proof/Laws/Commands.lean ====
section
/-! SUPPORT. What beginning and ending a command can do (R243 to R248, R155, R156, R298): everything outside `State.beside`'s blanks is as before,
subchannels but for their requests, and sequencers but for what they hold for the command; and how an entry that passes every check is carried out. -/

namespace Sys2Proof.Machine

variable (s : State)

/-- What the operations on rings, the list of open commands and the journal keep: all that `Beside` keeps, and every sequencer. -/
def Kept (s t : State) : Prop := t.beside = s.beside ∧ (∀ sc, (sub t sc).still = (sub s sc).still) ∧ t.seqs = s.seqs

namespace Kept
theorem refl : Kept s s := ⟨rfl, fun _ => rfl, rfl⟩
theorem trans {s t u : State} (h : Kept s t) (k : Kept t u) : Kept s u :=
  ⟨k.1.trans h.1, fun c => (k.2.1 c).trans (h.2.1 c), k.2.2.trans h.2.2⟩
theorem of_calm {s t : State} (h : t.calm = s.calm) : Kept s t :=
  ⟨beside_of_calm h, fun c => by
    have : t.dram.subs = s.dram.subs := (congrArg (fun x => x.dram.subs) h :)
    simp [sub, this], (congrArg State.seqs h :)⟩
theorem of_quiet {s t : State} (h : t.quiet = s.quiet) : Kept s t := of_calm (calm_of_quiet h)
/-- Only blanks of `beside` changed, and neither subchannels nor sequencers. -/
theorem of_eq {s t : State} (h : t.beside = s.beside) (hd : t.dram.subs = s.dram.subs) (hq : t.seqs = s.seqs) : Kept s t :=
  ⟨h, fun c => by simp [sub, hd], hq⟩
end Kept

theorem kept_setSource (n : Nat) : Kept s (setSource n s) := .of_calm (setSource_calm s n)
theorem kept_signal (v : Nat) : Kept s (signal v s) := .of_calm (signal_calm s v)
theorem kept_count (off : Nat) : Kept s (count off s) := .of_calm (count_calm s off)
theorem kept_post (p : Posted) : Kept s (post p s) := .of_eq rfl rfl rfl
theorem kept_setRing (r : Nat) (x : Ring) : Kept s (setRing r x s) := .of_eq rfl rfl rfl
theorem kept_setCmd (c : Cmd) : Kept s (setCmd c s) := .of_eq rfl rfl rfl
theorem kept_setStrm (i : Nat) (x : Stream) : Kept s (setStrm i x s) := .of_eq rfl rfl rfl
theorem kept_logEntry (e : JEntry) : Kept s (logEntry e s) := .of_eq rfl rfl rfl

@[simp] theorem setSource_beside (n : Nat) : (setSource n s).beside = s.beside := (kept_setSource s n).1
@[simp] theorem signal_beside (v : Nat) : (signal v s).beside = s.beside := (kept_signal s v).1
@[simp] theorem count_beside (off : Nat) : (count off s).beside = s.beside := (kept_count s off).1
@[simp] theorem raise_beside (n d : Nat) : (raise n d s).beside = s.beside := beside_of_calm (raise_calm s n d)
@[simp] theorem post_beside (p : Posted) : (post p s).beside = s.beside := rfl
@[simp] theorem setRing_beside (r : Nat) (x : Ring) : (setRing r x s).beside = s.beside := rfl
@[simp] theorem setCmd_beside (c : Cmd) : (setCmd c s).beside = s.beside := rfl
@[simp] theorem logEntry_beside (e : JEntry) : (logEntry e s).beside = s.beside := rfl

/-! ### Requests to DRAM -/

theorem tblGet_mapVals {α : Type} (l : Tbl α) (f : α → α) (k : Nat) (d : α) (h : f d = d) : tblGet (l.map fun p => (p.1, f p.2)) k d = f (tblGet l k d) := by
  induction l with
  | nil => simp [tblGet, h]
  | cons p l ih => simp only [List.map_cons, tblGet]; split <;> simp_all

/-- A sequencer after an update of every one. -/
theorem sq_map (f : Seqr → Seqr) (h : f Seqr.reset = Seqr.reset) (q : Nat) : sq { s with seqs := s.seqs.map fun p => (p.1, f p.2) } q = f (sq s q) :=
  tblGet_mapVals s.seqs f q Seqr.reset h

theorem kept_cancelScrub (a n : Nat) : Kept s (cancelScrub a n s) := by
  refine ⟨rfl, fun c => ?_, rfl⟩
  have := tblGet_mapVals s.dram.subs (fun p => { p with reqs := p.reqs.filter fun r =>
    !(r.by_ == .scrubWrite && decide (r.addr < a + n) && decide (a < r.addr + 64)) }) c SubCh.reset rfl
  show (tblGet _ c SubCh.reset).still = _
  simp only [cancelScrub]
  rw [this]; rfl

theorem kept_setSub {i : Nat} {x : SubCh} (h : x.still = (sub s i).still) : Kept s (setSub i x s) := by
  refine ⟨rfl, fun c => ?_, rfl⟩
  by_cases hc : c = i
  · subst hc; rw [sub_setSub_same, h]
  · rw [sub_setSub_ne _ _ hc]

theorem takeReq_still (n : Nat) (r : DReq) (x : SubCh) : (takeReq n r x).still = x.still := by
  unfold takeReq entersSr SubCh.still
  cases x.sr <;> simp

/-- A request reaches its subchannel (R177, R184, R185). -/
theorem kept_addReq (a cls : Nat) (d : Option (List Byte)) (b : ReqBy) : Kept s (addReq a cls d b s) := by
  unfold addReq
  dsimp only
  have h1 : Kept s (if d.isSome && b != .scrubWrite then cancelScrub (a / 64 * 64) 64 s else s) := by
    split
    · exact kept_cancelScrub s _ _
    · exact .refl s
  generalize (if d.isSome && b != .scrubWrite then cancelScrub (a / 64 * 64) 64 s else s) = u at h1 ⊢
  have h2 : ∀ r n, Kept u (setSub (subOf s a) (takeReq n r (sub u (subOf s a))) { u with dram := { u.dram with arr := u.dram.arr + 1 } }) := by
    intro r n
    refine Kept.trans (t := { u with dram := { u.dram with arr := u.dram.arr + 1 } }) (.of_eq rfl rfl rfl) ?_
    exact kept_setSub _ (takeReq_still _ _ _)
  refine h1.trans ?_
  split
  · exact (h2 _ _).trans (kept_count _ _)
  · exact h2 _ _

/-! ### The journal -/

theorem kept_entryDone (b : JBody) : Kept s (entryDone b s) := by
  unfold entryDone
  cases b with
  | commit i d => exact kept_setStrm s _ _
  | _ => exact .refl s

theorem kept_jwrite (carry : Bool) (b : JBody) : Kept s (jwrite carry b s) := by
  unfold jwrite
  dsimp only
  split
  · refine Kept.trans (t := _) ?_ (kept_addReq _ _ _ _ _)
    refine Kept.trans (t := _) ?_ (kept_addReq _ _ _ _ _)
    exact .of_eq rfl rfl rfl
  · exact (kept_logEntry s _).trans (kept_entryDone _ _)

theorem kept_jcarry (f : Nat) (carry : Bool) (b : JBody) : Kept s (jcarry f carry b s) := by
  induction f generalizing carry b s with
  | zero => exact kept_jwrite s carry b
  | succ f ih =>
    unfold jcarry
    dsimp only
    split
    · exact kept_jwrite s _ _
    · exact ((kept_jwrite s _ _).trans (kept_setSource _ _)).trans (ih _ _ _)

theorem kept_jcommit (b : JBody) : Kept s (jcommit b s) := kept_jcarry s _ _ _
@[simp] theorem jcommit_beside (b : JBody) : (jcommit b s).beside = s.beside := (kept_jcommit s b).1

/-! ### Rings -/

theorem kept_writeEntry (r : Nat) (x : Ring) (e : RingEntry) : Kept s (writeEntry r x e s) := by
  unfold writeEntry
  dsimp only
  split
  · exact Kept.trans (.of_eq rfl rfl rfl) (kept_signal _ _)
  · exact .of_eq rfl rfl rfl

theorem kept_postEntry (r : Nat) (e : RingEntry) : Kept s (postEntry r e s) := by
  unfold postEntry
  split
  · exact .refl s
  · split
    · exact kept_writeEntry s _ _ _
    · dsimp only
      split
      · exact (kept_setRing s _ _).trans (kept_setSource _ _)
      · exact kept_setRing s _ _

theorem kept_postCpl (r : Nat) (tag : W32) (st : Nat) (final : Bool) (x0 x1 x2 : W64) : Kept s (postCpl r tag st final x0 x1 x2 s) := by
  unfold postCpl
  split
  · exact .refl s
  · dsimp only
    split
    · exact kept_postEntry s _ _
    · exact .of_eq rfl rfl rfl

theorem kept_endEvents (st : Nat) : Kept s (endEvents st s) := by
  unfold endEvents
  dsimp only
  repeat' split
  · exact (kept_setSource s _).trans (kept_setSource _ _)
  · exact kept_setSource s _
  · exact kept_setSource s _
  · exact .refl s

theorem kept_passEntry (r : Nat) : Kept s (passEntry r s) := by
  unfold passEntry
  split
  · exact .refl s
  · exact kept_setRing s _ _

/-- A refusal (R246). -/
theorem kept_refuse (r op : Nat) (e : Entry) (v : Refuse) : Kept s (refuse r op e v s) := by
  unfold refuse
  exact ((kept_jcommit s _).trans (kept_postCpl _ _ _ _ _ _ _ _)).trans (kept_setSource _ _)

theorem kept_accept (r op home idx : Nat) (e : Entry) : Kept s (accept r op home idx e s) :=
  (kept_jcommit s _).trans (.of_eq rfl rfl rfl)

@[simp] theorem postCpl_beside (r : Nat) (tag : W32) (st : Nat) (final : Bool) (x0 x1 x2 : W64) :
    (postCpl r tag st final x0 x1 x2 s).beside = s.beside := (kept_postCpl s r tag st final x0 x1 x2).1
@[simp] theorem endEvents_beside (st : Nat) : (endEvents st s).beside = s.beside := (kept_endEvents s st).1
@[simp] theorem passEntry_beside (r : Nat) : (passEntry r s).beside = s.beside := (kept_passEntry s r).1
@[simp] theorem refuse_beside (r op : Nat) (e : Entry) (v : Refuse) : (refuse r op e v s).beside = s.beside := (kept_refuse s r op e v).1

/-! ### Contexts and queues (R288, R298) -/

@[simp] theorem loadRegs_rest (n : Nat) (c : QCmd) (x : Seqr) : (loadRegs n c x).rest = x.rest := rfl
@[simp] theorem loadRegs_ctxs (n : Nat) (c : QCmd) (x : Seqr) : (loadRegs n c x).ctxs = x.ctxs := rfl
@[simp] theorem loadRegs_queue (n : Nat) (c : QCmd) (x : Seqr) : (loadRegs n c x).queue = x.queue := rfl

theorem allot_rest (f n : Nat) (x : Seqr) : (allot f n x).rest = x.rest := by
  induction f generalizing x with
  | zero => rfl
  | succ f ih =>
    unfold allot
    split
    · dsimp only
      rw [ih]
      repeat' split
      all_goals rfl
    · rfl

theorem freeOf_rest (o n : Nat) (x : Seqr) : (freeOf o n x).rest = x.rest := by
  unfold freeOf
  split
  · rw [allot_rest]; rfl
  · rfl

theorem freeOf_none {o n : Nat} {x : Seqr} (h : heldBy o x = false) : freeOf o n x = x := by
  unfold freeOf; simp [h]

@[simp] theorem syncJobs_beside : (syncJobs s).beside = s.beside := by
  simp only [syncJobs, State.beside, State.calm, State.quiet, List.map_map, Function.comp_def]
@[simp] theorem syncJobs_seqs : (syncJobs s).seqs = s.seqs := rfl
@[simp] theorem syncJobs_dram : (syncJobs s).dram = s.dram := rfl

/-- What a sequencer is after a command has ended (R298). -/
theorem sq_releaseCtx (o q : Nat) : sq (releaseCtx o s) q = freeOf o s.tb.time (sq s q) := by
  unfold releaseCtx
  split
  · have h : freeOf o s.tb.time Seqr.reset = Seqr.reset := freeOf_none rfl
    exact sq_map s (freeOf o s.tb.time) h q
  · rename_i hn
    refine (freeOf_none ?_).symm
    have ha : ∀ l : Tbl Seqr, (l.any fun p => heldBy o p.2) = false → heldBy o (tblGet l q Seqr.reset) = false := by
      intro l
      induction l with
      | nil => intro _; rfl
      | cons p l ih =>
        intro h
        simp only [List.any_cons, Bool.or_eq_false_iff] at h
        unfold tblGet
        split
        · exact h.1
        · exact ih h.2
    exact ha s.seqs (by simpa using hn)

@[simp] theorem releaseCtx_beside (o : Nat) : (releaseCtx o s).beside = s.beside := by
  unfold releaseCtx
  split
  · exact syncJobs_beside _
  · rfl
@[simp] theorem releaseCtx_sub (o sc : Nat) : sub (releaseCtx o s) sc = sub s sc := by
  unfold releaseCtx; split <;> rfl
@[simp] theorem releaseCtx_posted (o : Nat) : (releaseCtx o s).posted = s.posted := by unfold releaseCtx; split <;> rfl
@[simp] theorem releaseCtx_rings (o : Nat) : (releaseCtx o s).rings = s.rings := by unfold releaseCtx; split <;> rfl
@[simp] theorem releaseCtx_cmds (o : Nat) : (releaseCtx o s).cmds = s.cmds := by unfold releaseCtx; split <;> rfl
@[simp] theorem releaseCtx_jr (o : Nat) : (releaseCtx o s).jr = s.jr := by unfold releaseCtx; split <;> rfl

/-- DSQ gives a command to its home (R298): the home alone changes, in what it holds for commands. -/
theorem placeCmd_beside (q op : Nat) (e : Entry) (o : Nat) (k : QKind) : Beside q s (placeCmd q op e o k s) := by
  refine ⟨rfl, fun _ => rfl, ?_, fun j hj => ?_⟩
  · simp only [placeCmd, sq, setSq, tblGet_tblSet_same]
    rw [allot_rest]; rfl
  · simp [placeCmd, sq, setSq, tblGet_tblSet_ne _ _ _ hj]

/-! ### `Beside` -/

theorem Beside.refl (q : Nat) : Beside q s s := ⟨rfl, fun _ => rfl, rfl, fun _ _ => rfl⟩
theorem Beside.trans {q : Nat} {s t u : State} (h : Beside q s t) (k : Beside q t u) : Beside q s u :=
  ⟨k.1.trans h.1, fun c => (k.2.1 c).trans (h.2.1 c), k.2.2.1.trans h.2.2.1, fun j hj => (k.2.2.2 j hj).trans (h.2.2.2 j hj)⟩
theorem Kept.within {s t : State} (h : Kept s t) (q : Nat) : Beside q s t :=
  ⟨h.1, h.2.1, by simp [sq, h.2.2], fun j _ => by simp [sq, h.2.2]⟩

/-! ### Ends of commands -/

theorem kept_endPost {c : Cmd} (st : Nat) (o : Nat) (x0 x1 x2 : W64) :
    Kept s (let s0 := if isLong c.opcode || engineEnds st then s else count (sqCtr c.home 5) s
      let s1 := jcommit (.complete c.ring st c.tag x0 x1 x2 (some o) c.opcode) s0
      if c.lost then s1 else postCpl c.ring c.tag st true x0 x1 x2 s1) := by
  dsimp only
  have h0 : Kept s (if isLong c.opcode || engineEnds st then s else count (sqCtr c.home 5) s) := by
    split
    · exact .refl s
    · exact kept_count s _
  split
  · exact h0.trans (kept_jcommit _ _)
  · exact (h0.trans (kept_jcommit _ _)).trans (kept_postCpl _ _ _ _ _ _ _ _)

/-- The end of a command (R155, R246): sequencers that hold nothing for it stay as they are. -/
theorem finishCmd_keeps (o st : Nat) (x0 x1 x2 : W64) :
    (finishCmd o st x0 x1 x2 s).beside = s.beside ∧ (∀ sc, (sub (finishCmd o st x0 x1 x2 s) sc).still = (sub s sc).still) ∧
      ∀ q, (sq (finishCmd o st x0 x1 x2 s) q).rest = (sq s q).rest ∧ (heldBy o (sq s q) = false → sq (finishCmd o st x0 x1 x2 s) q = sq s q) := by
  unfold finishCmd
  split
  · exact ⟨rfl, fun _ => rfl, fun _ => ⟨rfl, fun _ => rfl⟩⟩
  · rename_i c _
    have h := kept_endPost s (c := c) st o x0 x1 x2
    dsimp only at h ⊢
    generalize (if c.lost then _ else _ : State) = u at h ⊢
    have hk : Kept s { u with cmds := u.cmds.filter fun x => x.origin != o } := h.trans (.of_eq rfl rfl rfl)
    have he := kept_endEvents (releaseCtx o { u with cmds := u.cmds.filter fun x => x.origin != o }) st
    have hsq : ∀ q, sq (endEvents st (releaseCtx o { u with cmds := u.cmds.filter fun x => x.origin != o })) q =
        freeOf o u.tb.time (sq s q) := by
      intro q
      have h1 : sq (endEvents st (releaseCtx o { u with cmds := u.cmds.filter fun x => x.origin != o })) q =
          sq (releaseCtx o { u with cmds := u.cmds.filter fun x => x.origin != o }) q := by simp [sq, he.2.2]
      rw [h1, sq_releaseCtx]
      congr 1
      simp [sq, ← h.2.2]
    refine ⟨he.1.trans ((releaseCtx_beside _ _).trans hk.1), fun sc => ?_, fun q => ⟨?_, fun hn => ?_⟩⟩
    · rw [he.2.1, releaseCtx_sub]; exact hk.2.1 sc
    · rw [hsq, freeOf_rest]
    · rw [hsq, freeOf_none hn]

@[simp] theorem finishCmd_beside (o st : Nat) (x0 x1 x2 : W64) : (finishCmd o st x0 x1 x2 s).beside = s.beside := (finishCmd_keeps s o st x0 x1 x2).1

theorem passCommit_reset (o n : Nat) (x0 x1 x2 : W64) : passCommit o n x0 x1 x2 Seqr.reset = Seqr.reset := rfl

@[simp] theorem commitWord_beside (o : Nat) (x0 x1 x2 : W64) : (commitWord o x0 x1 x2 s).beside = s.beside := by
  unfold commitWord
  split
  · rfl
  · rw [jcommit_beside, setCmd_beside, count_beside]; rfl

@[simp] theorem finishLong_beside (o st : Nat) (x0 x1 x2 : W64) : (finishLong o st x0 x1 x2 s).beside = s.beside := by
  unfold finishLong
  simp

@[simp] theorem endBy_beside (o st : Nat) : (endBy o st s).beside = s.beside := by
  unfold endBy
  split <;> simp

/-! ### The journal alone -/

/-- Blank what a journal entry writes: the journal, the requests for its copies, what a committed COMMIT entry tells of its stream, and what counters and its
event write. -/
def State.logged (s : State) : State :=
  let q := s.quieter
  { q with jr := State.reset.jr, streams := [], dram := { q.dram with arr := 0, subs := [] } }

theorem logged_of_quieter {s t : State} (h : t.quieter = s.quieter) : t.logged = s.logged := by
  unfold State.logged; rw [h]

theorem logged_of_quiet {s t : State} (h : t.quiet = s.quiet) : t.logged = s.logged := logged_of_quieter (quieter_of_quiet h)

@[simp] theorem logEntry_logged (e : JEntry) : (logEntry e s).logged = s.logged := rfl

@[simp] theorem addReq_logged (a cls : Nat) (d : Option (List Byte)) (b : ReqBy) : (addReq a cls d b s).logged = s.logged := by
  unfold addReq
  dsimp only
  have h1 : (if d.isSome && b != .scrubWrite then cancelScrub (a / 64 * 64) 64 s else s).logged = s.logged := by split <;> rfl
  generalize (if d.isSome && b != .scrubWrite then cancelScrub (a / 64 * 64) 64 s else s) = u at h1 ⊢
  rw [← h1]
  split
  · rw [logged_of_quieter (count_quieter _ _)]; rfl
  · rfl

@[simp] theorem entryDone_logged (b : JBody) : (entryDone b s).logged = s.logged := by
  unfold entryDone
  cases b <;> rfl

@[simp] theorem jwrite_logged (carry : Bool) (b : JBody) : (jwrite carry b s).logged = s.logged := by
  unfold jwrite
  dsimp only
  split
  · rw [addReq_logged, addReq_logged]; rfl
  · simp

@[simp] theorem jcarry_logged (f : Nat) (carry : Bool) (b : JBody) : (jcarry f carry b s).logged = s.logged := by
  induction f generalizing carry b s with
  | zero => exact jwrite_logged s carry b
  | succ f ih =>
    unfold jcarry
    dsimp only
    split
    · simp
    · rw [ih, logged_of_quiet (setSource_quiet _ _), jwrite_logged]

/-- A journal entry (R155, R156). -/
@[simp] theorem jcommit_logged (b : JBody) : (jcommit b s).logged = s.logged := jcarry_logged s _ _ _
@[simp] theorem jcommit_cmds (b : JBody) : (jcommit b s).cmds = s.cmds := (congrArg State.cmds (jcommit_logged s b) :)
@[simp] theorem jcommit_rings (b : JBody) : (jcommit b s).rings = s.rings := (congrArg State.rings (jcommit_logged s b) :)
@[simp] theorem jcommit_pcie_bme (b : JBody) : (jcommit b s).pcie.bme = s.pcie.bme := (congrArg (fun x => x.pcie.bme) (jcommit_logged s b) :)
@[simp] theorem jcommit_pcie_d3 (b : JBody) : (jcommit b s).pcie.d3 = s.pcie.d3 := (congrArg (fun x => x.pcie.d3) (jcommit_logged s b) :)

/-! ### What is sent to the host only grows -/

/-- `t` has sent what `s` has, and perhaps more. -/
def Sends (s t : State) : Prop := ∃ l, t.posted = l ++ s.posted

theorem Sends.refl : Sends s s := ⟨[], rfl⟩
theorem Sends.trans {s t u : State} (h : Sends s t) (k : Sends t u) : Sends s u := by
  obtain ⟨l, h⟩ := h; obtain ⟨m, k⟩ := k
  exact ⟨m ++ l, by rw [k, h, List.append_assoc]⟩
theorem Sends.of_eq {s t : State} (h : t.posted = s.posted) : Sends s t := ⟨[], h⟩
theorem sends_post (p : Posted) : Sends s (post p s) := ⟨[p], rfl⟩

theorem sends_ctrStep (off : Nat) : Sends s (ctrStep off s).1 := by
  refine .of_eq ?_
  simp only [ctrStep]; split <;> rfl

theorem sends_afterStep (again : Nat → State → State) (h : ∀ v t, Sends t (again v t)) (p : State × Bool) : Sends p.1 (afterStep again p) := by
  unfold afterStep
  split
  · dsimp only
    split
    · exact Sends.trans (.of_eq (setReg_posted _ _ _)) (h _ _)
    · exact .of_eq (setReg_posted _ _ _)
  · exact .refl _

theorem sends_signalVec (f v : Nat) : Sends s (signalVec f v s) := by
  induction f generalizing v s with
  | zero => exact .refl s
  | succ f ih =>
    have ha := fun p => sends_afterStep (signalVec f) (fun v t => ih t v) p
    unfold signalVec
    dsimp only
    split
    · exact .refl s
    · split
      · exact (sends_ctrStep s _).trans (ha _)
      · have h1 : Sends s (if (vec s v).acc = 0 then s else afterStep (signalVec f) (ctrStep msixMergedOff s)) := by
          split
          · exact .refl s
          · exact (sends_ctrStep s _).trans (ha _)
        split
        · split
          · exact h1.trans (.of_eq (setVec_posted _ _ _))
          · exact (h1.trans (.of_eq (setVec_posted _ _ _))).trans ((sends_post _ _).trans ((sends_ctrStep _ _).trans (ha _)))
        · exact h1.trans (.of_eq (setVec_posted _ _ _))

theorem sends_signal (v : Nat) : Sends s (signal v s) := sends_signalVec s 3 v

theorem sends_fire (n : Nat) : Sends s (fire n s) := by
  simp only [fire]; split
  · exact sends_signal s _
  · exact .refl s

theorem sends_traceAdd (flow : Bool) (e : W64) : Sends s (traceAdd flow e s) := by
  unfold traceAdd
  dsimp only
  split
  · exact Sends.trans (.of_eq rfl) (sends_fire _ _)
  · exact .of_eq rfl

theorem sends_setSource (n : Nat) : Sends s (setSource n s) := by
  unfold setSource
  split
  · exact .refl s
  · split
    · split
      · exact .refl s
      · dsimp only
        split
        · exact (Sends.trans (.of_eq (setReg_posted _ _ _)) (sends_fire _ _)).trans (sends_traceAdd _ _ _)
        · exact Sends.trans (.of_eq (setReg_posted _ _ _)) (sends_fire _ _)
    · exact .refl s

theorem sends_count (off : Nat) : Sends s (count off s) := by
  unfold count
  dsimp only
  split
  · exact (sends_ctrStep s off).trans (sends_setSource _ _)
  · exact sends_ctrStep s off

@[simp] theorem logEntry_posted (e : JEntry) : (logEntry e s).posted = s.posted := rfl

theorem sends_addReq (a cls : Nat) (d : Option (List Byte)) (b : ReqBy) : Sends s (addReq a cls d b s) := by
  unfold addReq
  dsimp only
  have h1 : Sends s (if d.isSome && b != .scrubWrite then cancelScrub (a / 64 * 64) 64 s else s) := by split <;> exact .of_eq rfl
  generalize (if d.isSome && b != .scrubWrite then cancelScrub (a / 64 * 64) 64 s else s) = u at h1 ⊢
  refine h1.trans ?_
  split
  · exact Sends.trans (.of_eq rfl) (sends_count _ _)
  · exact .of_eq rfl

@[simp] theorem entryDone_posted (b : JBody) : (entryDone b s).posted = s.posted := by unfold entryDone; cases b <;> rfl

theorem sends_jwrite (carry : Bool) (b : JBody) : Sends s (jwrite carry b s) := by
  unfold jwrite
  dsimp only
  split
  · refine Sends.trans ?_ (sends_addReq _ _ _ _ _)
    refine Sends.trans ?_ (sends_addReq _ _ _ _ _)
    exact ⟨[], rfl⟩
  · exact .of_eq (by simp)

theorem sends_jcarry (f : Nat) (carry : Bool) (b : JBody) : Sends s (jcarry f carry b s) := by
  induction f generalizing carry b s with
  | zero => exact sends_jwrite s carry b
  | succ f ih =>
    unfold jcarry
    dsimp only
    split
    · exact sends_jwrite s carry b
    · exact ((sends_jwrite s carry b).trans (sends_setSource _ _)).trans (ih _ _ _)

theorem sends_jcommit (b : JBody) : Sends s (jcommit b s) := sends_jcarry s _ _ _

theorem sends_endEvents (st : Nat) : Sends s (endEvents st s) := by
  unfold endEvents
  dsimp only
  repeat' split
  · exact (sends_setSource _ _).trans (sends_setSource _ _)
  · exact sends_setSource _ _
  · exact sends_setSource _ _
  · exact .refl s

@[simp] theorem endEvents_rings (st : Nat) : (endEvents st s).rings = s.rings := by
  unfold endEvents; dsimp only; repeat' split
  all_goals simp

@[simp] theorem endEvents_cmds (st : Nat) : (endEvents st s).cmds = s.cmds := by
  unfold endEvents; dsimp only; repeat' split
  all_goals simp

@[simp] theorem postEntry_cmds (r : Nat) (e : RingEntry) : (postEntry r e s).cmds = s.cmds := by
  unfold postEntry writeEntry
  repeat' split
  all_goals try dsimp only
  all_goals try split
  all_goals simp

@[simp] theorem postEntry_jr (r : Nat) (e : RingEntry) : (postEntry r e s).jr = s.jr := by
  unfold postEntry writeEntry
  repeat' split
  all_goals try dsimp only
  all_goals try split
  all_goals simp

@[simp] theorem endEvents_jr (st : Nat) : (endEvents st s).jr = s.jr := by
  unfold endEvents; dsimp only; repeat' split
  all_goals simp

@[simp] theorem postCpl_cmds (r : Nat) (tag : W32) (st : Nat) (final : Bool) (x0 x1 x2 : W64) :
    (postCpl r tag st final x0 x1 x2 s).cmds = s.cmds := by
  unfold postCpl
  split
  · rfl
  · dsimp only
    split
    · simp
    · rfl

theorem sends_postEntry (r : Nat) (e : RingEntry) : Sends s (postEntry r e s) := by
  unfold postEntry
  split
  · exact .refl s
  · split
    · unfold writeEntry
      dsimp only
      split
      · refine Sends.trans ?_ (sends_signal _ _)
        exact ⟨[_], rfl⟩
      · exact ⟨[_], rfl⟩
    · dsimp only
      split
      · refine Sends.trans ?_ (sends_setSource _ _)
        exact ⟨[], rfl⟩
      · exact ⟨[], rfl⟩

theorem sends_postCpl (r : Nat) (tag : W32) (st : Nat) (final : Bool) (x0 x1 x2 : W64) : Sends s (postCpl r tag st final x0 x1 x2 s) := by
  unfold postCpl
  split
  · exact .refl s
  · dsimp only
    split
    · exact sends_postEntry s _ _
    · exact .of_eq rfl

/-! ### Completions told -/

/-- Sending more does not unsay a completion. -/
theorem Told.mono {r st : Nat} {tag : W32} {final : Bool} {x0 x1 x2 : W64} {s t u : State} (h : Told r tag st final x0 x1 x2 s t)
    (k : Sends t u) (hr : u.rings = t.rings) (hj : u.jr.out = t.jr.out) : Told r tag st final x0 x1 x2 s u := by
  have hring : ring? u = ring? t := by funext k; simp [ring?, hr]
  rcases h with ⟨l, h1, a, ph, h2⟩ | ⟨c, h1, h2⟩ | ⟨o, h1, h2⟩
  · obtain ⟨m, k⟩ := k
    exact .inl ⟨m ++ l, by rw [k, h1, List.append_assoc], a, ph, List.mem_append_right _ h2⟩
  · exact .inr (.inl ⟨c, by simpa [pairOf, hring] using h1, h2⟩)
  · exact .inr (.inr ⟨o, by rw [hj]; exact h1, by simpa [pairOf, hring] using h2⟩)

/-- What was sent earlier counts from an earlier state. -/
theorem Told.earlier {r st : Nat} {tag : W32} {final : Bool} {x0 x1 x2 : W64} {s t u : State} (h : Told r tag st final x0 x1 x2 t u)
    (k : Sends s t) : Told r tag st final x0 x1 x2 s u := by
  rcases h with ⟨l, h1, a, ph, h2⟩ | h
  · obtain ⟨m, k⟩ := k
    exact .inl ⟨l ++ m, by rw [h1, k, List.append_assoc], a, ph, List.mem_append_left _ h2⟩
  · exact .inr h

/-- The pair of a ring after its CMP ring was set to one of the same pair. -/
theorem pairOf_setRing {r : Nat} {x c d : Ring} {u : State} (hr : ring? s r = some x) (hc : ring? s x.pair = some c) (hd : d.pair = c.pair)
    (hu : u.rings = (setRing x.pair d s).rings) : pairOf u r = x.pair ∧ ring? u x.pair = some d := by
  have hru : ring? u = ring? (setRing x.pair d s) := by funext k; simp [ring?, hu]
  refine ⟨?_, by rw [hru, ring_setRing_same]⟩
  simp only [pairOf, hru]
  by_cases hx : r = x.pair
  · rw [hx, ring_setRing_same]
    have : some x = some c := by rw [← hr, ← hc, ← hx]
    injection this with this
    show d.pair = x.pair
    rw [hd]; exact (congrArg Ring.pair this).symm
  · rw [ring_setRing_ne _ _ hx, hr]

/-- An entry posted to the CMP ring is written or held (R243). -/
theorem told_postEntry {r : Nat} {x c : Ring} (tag : W32) (st : Nat) (final : Bool) (x0 x1 x2 : W64) (hr : ring? s r = some x)
    (hc : ring? s x.pair = some c) : Told r tag st final x0 x1 x2 s (postEntry x.pair (.cpl tag st final x0 x1 x2) s) := by
  simp only [postEntry, hc]
  split
  · refine .inl ?_
    unfold writeEntry
    dsimp only
    split
    · obtain ⟨l, h⟩ := sends_signal (setRing x.pair { c with eng := (c.eng + 1) % c.z, phase := if (c.eng + 1) % c.z = 0 then !c.phase else c.phase }
        (post (.write (c.base + 32 * c.eng) (entryBytes c.phase (.cpl tag st final x0 x1 x2)) false) s)) c.vector
      exact ⟨l ++ [.write (c.base + 32 * c.eng) (entryBytes c.phase (.cpl tag st final x0 x1 x2)) false], by rw [h]; simp,
        _, _, List.mem_append_right _ (List.mem_singleton.2 rfl)⟩
    · exact ⟨[.write (c.base + 32 * c.eng) (entryBytes c.phase (.cpl tag st final x0 x1 x2)) false], rfl, _, _, List.mem_singleton.2 rfl⟩
  · refine .inr (.inl ⟨{ c with held := c.held ++ [.cpl tag st final x0 x1 x2] }, ?_, by simp⟩)
    have hp : ∀ u : State, u.rings = (setRing x.pair { c with held := c.held ++ [.cpl tag st final x0 x1 x2] } s).rings →
        ring? u (pairOf u r) = some { c with held := c.held ++ [.cpl tag st final x0 x1 x2] } := by
      intro u hu
      obtain ⟨h1, h2⟩ := pairOf_setRing s (d := { c with held := c.held ++ [.cpl tag st final x0 x1 x2] }) hr hc rfl hu
      rw [h1, h2]
    split
    · exact hp _ (by simp)
    · exact hp _ rfl

/-- A completion posted to a SUB ring with a CMP ring is told (R155, R243, R245). -/
theorem told_postCpl {r : Nat} {x c : Ring} (tag : W32) (st : Nat) (final : Bool) (x0 x1 x2 : W64) (hr : ring? s r = some x)
    (hc : ring? s x.pair = some c) : Told r tag st final x0 x1 x2 s (postCpl r tag st final x0 x1 x2 s) := by
  simp only [postCpl, hr]
  split
  · exact told_postEntry s tag st final x0 x1 x2 hr hc
  · refine .inr (.inr ⟨{ gate := s.jr.next, ring := x.pair, entry := .cpl tag st final x0 x1 x2 }, by simp, ?_, rfl⟩)
    have : pairOf s r = x.pair := by simp [pairOf, hr]
    exact this.symm

/-- The end of an open command of a ring that no reset has cleared (R155, R246). -/
theorem told_finishCmd {o : Nat} {k : Cmd} {x c : Ring} (st : Nat) (x0 x1 x2 : W64) (hk : cmd? s o = some k) (hl : k.lost = false)
    (hr : ring? s k.ring = some x) (hc : ring? s x.pair = some c) :
    Told k.ring k.tag st true x0 x1 x2 s (finishCmd o st x0 x1 x2 s) ∧
      (finishCmd o st x0 x1 x2 s).cmds = s.cmds.filter fun y => y.origin != o := by
  have hs0 : ∀ b : Bool, Sends s (if b then s else count (sqCtr k.home 5) s) := by
    intro b; cases b
    · exact sends_count s _
    · exact .refl s
  have hr0 : ∀ b : Bool, ∀ q, ring? (jcommit (.complete k.ring st k.tag x0 x1 x2 (some o) k.opcode) (if b then s else count (sqCtr k.home 5) s)) q = ring? s q := by
    intro b q; cases b <;> simp [ring?]
  constructor
  · simp only [finishCmd, hk, hl, Bool.false_eq_true, if_false]
    refine Told.mono ?_ (sends_endEvents _ _) (endEvents_rings _ _) (by rw [endEvents_jr])
    refine Told.mono (t := postCpl k.ring k.tag st true x0 x1 x2 _) ?_ (.of_eq (by rw [releaseCtx_posted])) (by rw [releaseCtx_rings]) (by rw [releaseCtx_jr])
    exact Told.earlier (told_postCpl _ k.tag st true x0 x1 x2 ((hr0 _ _).trans hr) ((hr0 _ _).trans hc))
      ((hs0 _).trans (sends_jcommit _ _))
  · simp only [finishCmd, hk, hl, Bool.false_eq_true, if_false, endEvents_cmds, releaseCtx_cmds, postCpl_cmds, jcommit_cmds]
    split <;> simp

/-! ### Entries that pass every check -/

/-- A command that R246 has just accepted. -/
def newCmd (r op home : Nat) (e : Entry) (s : State) : Cmd :=
  { ring := r, opcode := op, tag := e.tag, origin := s.jr.next, c0 := 0, c1 := 0, c2 := 0, abort := false, home := home, lost := false }

@[simp] theorem passEntry_cmds (r : Nat) : (passEntry r s).cmds = s.cmds := by unfold passEntry; split <;> rfl
@[simp] theorem passEntry_jr (r : Nat) : (passEntry r s).jr = s.jr := by unfold passEntry; split <;> rfl
@[simp] theorem passEntry_posted (r : Nat) : (passEntry r s).posted = s.posted := by unfold passEntry; split <;> rfl
@[simp] theorem passEntry_regs (r : Nat) : (passEntry r s).regs = s.regs := by unfold passEntry; split <;> rfl
@[simp] theorem passEntry_plans (r : Nat) : (passEntry r s).plans = s.plans := by unfold passEntry; split <;> rfl
@[simp] theorem passEntry_cap (r : Nat) : (passEntry r s).cap = s.cap := by unfold passEntry; split <;> rfl
@[simp] theorem passEntry_tb (r : Nat) : (passEntry r s).tb = s.tb := by unfold passEntry; split <;> rfl
@[simp] theorem passEntry_lanes (r : Nat) : (passEntry r s).lanes = s.lanes := by unfold passEntry; split <;> rfl
@[simp] theorem passEntry_seqs (r : Nat) : (passEntry r s).seqs = s.seqs := by unfold passEntry; split <;> rfl
@[simp] theorem passEntry_jobs (r : Nat) : (passEntry r s).jobs = s.jobs := by unfold passEntry; split <;> rfl
@[simp] theorem passEntry_stores (r : Nat) : (passEntry r s).stores = s.stores := by unfold passEntry; split <;> rfl
@[simp] theorem passEntry_banks (r : Nat) : (passEntry r s).banks = s.banks := by unfold passEntry; split <;> rfl
@[simp] theorem passEntry_guard (r : Nat) : (passEntry r s).guard = s.guard := by unfold passEntry; split <;> rfl
@[simp] theorem passEntry_dram (r : Nat) : (passEntry r s).dram = s.dram := by unfold passEntry; split <;> rfl
@[simp] theorem passEntry_streams (r : Nat) : (passEntry r s).streams = s.streams := by unfold passEntry; split <;> rfl
@[simp] theorem passEntry_part (r : Nat) : (passEntry r s).part = s.part := by unfold passEntry; split <;> rfl
@[simp] theorem passEntry_pcie (r : Nat) : (passEntry r s).pcie = s.pcie := by unfold passEntry; split <;> rfl
@[simp] theorem passEntry_au (r : Nat) : (passEntry r s).au = s.au := by unfold passEntry; split <;> rfl
@[simp] theorem passEntry_trace (r : Nat) : (passEntry r s).trace = s.trace := by unfold passEntry; split <;> rfl
@[simp] theorem passEntry_snap (r : Nat) : (passEntry r s).snap = s.snap := by unfold passEntry; split <;> rfl
@[simp] theorem passEntry_pwr (r : Nat) : (passEntry r s).pwr = s.pwr := by unfold passEntry; split <;> rfl
@[simp] theorem passEntry_train (r : Nat) : (passEntry r s).train = s.train := by unfold passEntry; split <;> rfl
@[simp] theorem passEntry_house (r : Nat) : (passEntry r s).house = s.house := by unfold passEntry; split <;> rfl
@[simp] theorem passEntry_jtag (r : Nat) : (passEntry r s).jtag = s.jtag := by unfold passEntry; split <;> rfl
@[simp] theorem passEntry_fresh (r : Nat) : (passEntry r s).fresh = s.fresh := by unfold passEntry; split <;> rfl
@[simp] theorem passEntry_pending (r : Nat) : (passEntry r s).pending = s.pending := by unfold passEntry; split <;> rfl
@[simp] theorem passEntry_refstrap (r : Nat) : (passEntry r s).refstrap = s.refstrap := by unfold passEntry; split <;> rfl
@[simp] theorem passEntry_bscan (r : Nat) : (passEntry r s).bscan = s.bscan := by unfold passEntry; split <;> rfl
@[simp] theorem passEntry_ctrs (r : Nat) : (passEntry r s).ctrs = s.ctrs := by unfold passEntry; split <;> rfl
@[simp] theorem passEntry_errlog (r : Nat) : (passEntry r s).errlog = s.errlog := by unfold passEntry; split <;> rfl

/-- Readers that look at none of the rings see the same after an entry is passed. -/
@[simp] theorem passEntry_reg (r off : Nat) : reg (passEntry r s) off = reg s off := by simp [reg]
@[simp] theorem passEntry_rf (r off hi lo : Nat) : rf (passEntry r s) off hi lo = rf s off hi lo := by simp [rf]
/-- The home of a command depends on the control stores alone. -/
theorem homeIn_of_stores {s t : State} (h : t.stores = s.stores) (op d : Nat) (e : Entry) : homeIn t op e d = homeIn s op e d := by
  have hd : dispEntry t op = dispEntry s op := by simp only [dispEntry]; rw [h]
  simp only [homeIn, hd]; rw [h]

@[simp] theorem passEntry_homeIn (r op d : Nat) (e : Entry) : homeIn (passEntry r s) op e d = homeIn s op e d := homeIn_of_stores (by simp) op d e
@[simp] theorem passEntry_rowHomes (r op : Nat) (e : Entry) (hs : List Nat) : rowHomes (passEntry r s) op e hs = rowHomes s op e hs := by simp [rowHomes]
@[simp] theorem passEntry_opValid (r op : Nat) : opValid (passEntry r s) op = opValid s op := by simp [opValid, dispEntry]

@[simp] theorem passEntry_commonBusy (r op : Nat) (hs : List Nat) : commonBusy op hs (passEntry r s) = commonBusy op hs s := by
  have hq2 : sqStopped (passEntry r s) = sqStopped s := by funext q; simp [sqStopped, sq]
  have hrf : rf (passEntry r s) = rf s := by funext off hi lo; simp
  unfold commonBusy tripped pwrState openOp admitting
  rw [hrf, passEntry_cmds, passEntry_jobs, passEntry_plans, hq2]

/-- The entry that is next is examined (R246). -/
theorem examinable_iff (s : State) (r : Nat) : examinable s r = true ↔ EntryNext s r := by
  unfold examinable EntryNext
  cases hr : ring? s r with
  | none => simp
  | some x =>
    cases hc : ring? s x.pair with
    | none => simp [hc]
    | some c =>
      have hs : shortOpen s r = false ↔ ∀ k ∈ s.cmds, k.ring = r → isLong k.opcode = true := by
        simp [shortOpen, List.any_eq_false]
      have hq : sqStopped s 0 = false ↔ (sq s 0).state ≠ .stopped := by simp [sqStopped]
      simp only [hc, ← hs, ← hq, Bool.and_eq_true, Bool.not_eq_true', List.isEmpty_iff, beq_iff_eq, bne_iff_ne, Option.some.injEq,
        exists_and_left, exists_eq_left', ne_eq]
      constructor <;> (intro h; simp_all)

/-- The refusals of R407 that concern commands alike. -/
theorem commonBusy_iff (s : State) (op : Nat) (hs : List Nat) : commonBusy op hs s = false ↔ StateAdmits s op hs := by
  have h1 : (tripped s && !tripAllows op) = false ↔ (tripped s = true → tripAllows op = true) := by
    cases tripped s <;> cases tripAllows op <;> simp
  have h2 : hs.any (sqStopped s) = false ↔ ∀ q ∈ hs, (sq s q).state ≠ .stopped := by simp [List.any_eq_false, sqStopped]
  have h3 : (decide (2 ≤ pwrState s) && hs.any gatedHome) = false ↔ (2 ≤ pwrState s → ∀ q ∈ hs, gatedHome q = false) := by
    by_cases h : 2 ≤ pwrState s <;> simp [h, List.any_eq_false]
  have h4 : (pwrState s == 1 && (op == opLaneSet || op == opLinkTrain)) = false ↔ (pwrState s = 1 → op ≠ opLaneSet ∧ op ≠ opLinkTrain) := by
    by_cases h : pwrState s = 1 <;> simp [h]
  have h5 : (admitting s && admitBars op) = false ↔ (admitting s = true → admitBars op = false) := by cases admitting s <;> simp
  have h6 : (single op && (openOp s op).isSome) = false ↔ (single op = true → ∀ k ∈ s.cmds, k.opcode ≠ op) := by
    cases single op <;> simp [openOp]
  have h7 : (isJob op && decide (256 ≤ s.jobs.length)) = false ↔ (isJob op = true → s.jobs.length < 256) := by cases isJob op <;> simp
  simp only [commonBusy, StateAdmits, Bool.or_eq_false_iff, h1, h2, h3, h4, h5, h6, h7, and_assoc]

/-- The conditions of acceptance, as the engine tests them. -/
theorem granted_iff {r op : Nat} {e : Entry} {hs : List Nat} {s : State} : Granted r op e hs s ↔
    Alive s ∧ examinable s r = true ∧ opValid s op = true ∧ (ring0Only op = true → r = 0) ∧ entryClean op e = true ∧
      commonBusy op (rowHomes s op e hs) s = false ∧ freshSeq s = true ∧ preempts op (homeIn s op e (hs.headD 0)) s = false := by
  simp only [Granted, examinable_iff, commonBusy_iff]

/-- Whether R407 finds nothing to refuse. -/
theorem judge_none {r op : Nat} {e : Entry} {k : CmdRow} (hg : Granted r op e k.homes s) (hb : k.bad (passEntry r s) = false)
    (hq : k.busy (passEntry r s) = none) : judge r op e k (passEntry r s) = none := by
  obtain ⟨_, _, hv, h0, hc, hbusy, _, _⟩ := granted_iff.1 hg
  have h2 : (ring0Only op && r != 0) = false := by
    cases h : ring0Only op <;> simp [h] at h0 ⊢; exact h0
  simp [judge, hv, h2, hc, hb, hbusy, hq]

/-- The ring of an examined entry, and the ring its completions go to. -/
theorem examinable_rings {r : Nat} (h : examinable s r = true) : ∃ x c, ring? s r = some x ∧ ring? s x.pair = some c := by
  unfold examinable at h
  split at h
  · cases h
  · rename_i x hx
    refine ⟨x, ?_⟩
    simp only [Bool.and_eq_true] at h
    obtain ⟨_, h⟩ := h
    split at h
    · exact ⟨_, hx, by assumption⟩
    · cases h

/-- Passing an entry keeps rings rings. -/
theorem ring_passEntry {r q : Nat} (h : (ring? s q).isSome = true) : (ring? (passEntry r s) q).isSome = true := by
  unfold passEntry
  split
  · exact h
  · by_cases hq : q = r
    · subst hq; simp
    · rw [ring_setRing_ne _ _ hq]; exact h

/-- The pair of a ring is not what passing an entry changes. -/
theorem pair_passEntry (r q : Nat) : pairOf (passEntry r s) q = pairOf s q := by
  unfold passEntry
  split
  · rfl
  · rename_i x hx
    simp only [pairOf]
    by_cases hq : q = r
    · subst hq; simp [hx]
    · rw [ring_setRing_ne _ _ hq]

/-- What an accepted command finds before its effect: it is open beside the others, and nothing changed beside what its home holds for it. -/
structure Begun (r op : Nat) (e : Entry) (home : Nat) (s u : State) : Prop where
  beside : Beside home s u
  cmds : u.cmds = s.cmds ++ [newCmd r op home e s]
  found : cmd? u s.jr.next = some (newCmd r op home e s)
  sends : Sends s u
  ringed : ∃ x c, ring? u r = some x ∧ ring? u x.pair = some c
  pair : pairOf u r = pairOf s r
  rings : u.rings = (passEntry r s).rings

/-- An accepted command is the one that its ORIGIN finds (R153). -/
theorem found_new {o : Nat} {l : List Cmd} {c : Cmd} (h : (l.all fun x => x.origin != o) = true) (hc : c.origin = o) :
    (l ++ [c]).find? (fun x => x.origin == o) = some c := by
  rw [List.find?_append]
  have : l.find? (fun x => x.origin == o) = none := by
    rw [List.find?_eq_none]
    intro x hx
    have := List.all_eq_true.1 h x hx
    simpa using this
  simp [this, hc]

theorem freshSeq_cmds {s : State} (h : freshSeq s = true) : (s.cmds.all fun c => c.origin != s.jr.next) = true := by
  simp only [freshSeq, Bool.and_eq_true] at h; exact h.1

/-- A sequencer holds nothing for a new JSEQ (R153, R298). -/
theorem freshSeq_held {s : State} (h : freshSeq s = true) (q : Nat) : heldBy s.jr.next (sq s q) = false := by
  simp only [freshSeq, Bool.and_eq_true] at h
  obtain ⟨_, h⟩ := h
  simp only [sq]
  generalize s.seqs = l at h
  induction l with
  | nil => rfl
  | cons p l ih =>
    simp only [List.all_cons, Bool.and_eq_true, Bool.not_eq_true'] at h
    unfold tblGet
    split
    · exact h.1
    · exact ih h.2

/-- A command that has its ACCEPT entry and is open, before it has a context. -/
theorem begun_accept {r op : Nat} {e : Entry} (home idx : Nat) (hx : examinable s r = true) (hf : freshSeq s = true) :
    Begun r op e home s (count (sqCtr home 7) (accept r op home idx e (passEntry r s))) where
  beside := (((kept_passEntry s r).trans (kept_accept _ _ _ _ _ _)).trans (kept_count _ _)).within home
  cmds := by simp [accept, newCmd]
  found := by
    have : (count (sqCtr home 7) (accept r op home idx e (passEntry r s))).cmds = s.cmds ++ [newCmd r op home e s] := by
      simp [accept, newCmd]
    rw [cmd?, this]
    exact found_new (freshSeq_cmds hf) rfl
  sends := by
    refine Sends.trans (t := passEntry r s) (.of_eq (passEntry_posted s r)) ?_
    refine Sends.trans (t := accept r op home idx e (passEntry r s)) ?_ (sends_count _ _)
    obtain ⟨l, hl⟩ := sends_jcommit (passEntry r s) (.accept r op e.tag idx (passEntry r s).jr.next)
    exact ⟨l, hl⟩
  ringed := by
    have hr : ∀ q, ring? (count (sqCtr home 7) (accept r op home idx e (passEntry r s))) q = ring? (passEntry r s) q := by
      intro q; simp [ring?, accept]
    obtain ⟨x, c, h1, h2⟩ := examinable_rings s hx
    have h3 := Option.isSome_iff_exists.1 (ring_passEntry s (r := r) (q := r) (by simp [h1]))
    obtain ⟨y, hy⟩ := h3
    have hp : y.pair = x.pair := by
      have := pair_passEntry s r r
      simpa [pairOf, hy, h1] using this
    obtain ⟨d, hd⟩ := Option.isSome_iff_exists.1 (ring_passEntry s (r := r) (q := x.pair) (by simp [h2]))
    exact ⟨y, d, (hr r).trans hy, (hr _).trans (hp ▸ hd)⟩
  pair := by
    have hr : ring? (count (sqCtr home 7) (accept r op home idx e (passEntry r s))) = ring? (passEntry r s) := by
      funext q; simp [ring?, accept]
    rw [← pair_passEntry s r r]; simp [pairOf, hr]
  rings := by simp [accept]

/-- It takes its place at its home (R298). -/
theorem begun_place {r op home : Nat} {e : Entry} {u : State} (h : Begun r op e home s u) (k : QKind) :
    Begun r op e home s (placeCmd home op e s.jr.next k u) where
  beside := h.beside.trans (placeCmd_beside u home op e s.jr.next k)
  cmds := h.cmds
  found := h.found
  sends := h.sends
  ringed := h.ringed
  pair := h.pair
  rings := h.rings

/-- What acceptance does not change for the home of a command: the dispatch table, and whether a long routine runs there. -/
theorem accept_homeIn (r op home idx : Nat) (e e2 : Entry) (op2 d : Nat) (t : State) : homeIn (accept r op home idx e t) op2 e2 d = homeIn t op2 e2 d := by
  have : (accept r op home idx e t).stores = t.stores := (congrArg State.stores (jcommit_logged t _) :)
  exact homeIn_of_stores this op2 d e2

/-- Every opcode of R251 has its own meaning, and none lies in the open area. -/
theorem listed_not_open {op : Nat} (h : opcodes.contains op = true) : isOpenArea op = false := by
  simp only [opcodes, List.contains_eq_mem, decide_eq_true_eq, List.mem_cons, List.mem_nil_iff, or_false] at h
  rcases h with h | h | h | h | h | h | h | h | h | h | h | h | h | h | h | h | h | h | h | h | h | h | h | h | h | h | h | h | h | h | h | h | h | h | h | h <;>
    subst h <;> decide

/-- A short command that passes every check has its effect (R246, R407). -/
theorem submit_short {r op : Nat} {e : Entry} {k : CmdRow} (hg : Granted r op e k.homes s) (hb : k.bad (passEntry r s) = false)
    (hq : k.busy (passEntry r s) = none) (hz : k.zero = false) (hs : isLong op = false) (hl : opcodes.contains op = true) :
    ∃ u, submit r op e k s = k.run s.jr.next u ∧ Begun r op e (homeIn s op e (k.homes.headD 0)) s u := by
  have hj := judge_none s hg hb hq
  obtain ⟨_, hx, _, _, _, _, hf, hp⟩ := granted_iff.1 hg
  have hbg := begun_accept s (op := op) (e := e) (homeIn s op e (k.homes.headD 0)) (engIdx s r) hx hf
  refine ⟨_, ?_, begun_place s hbg .native⟩
  have hrun : runsLong (count (sqCtr (homeIn s op e (k.homes.headD 0)) 7) (accept r op (homeIn s op e (k.homes.headD 0)) (engIdx s r) e (passEntry r s)))
      (homeIn s op e (k.homes.headD 0)) = runsLong s (homeIn s op e (k.homes.headD 0)) := by
    have hseq := ((kept_passEntry s r).trans (kept_accept _ r op (homeIn s op e (k.homes.headD 0)) (engIdx s r) e)).trans
      (kept_count _ (sqCtr (homeIn s op e (k.homes.headD 0)) 7))
    simp only [runsLong, hbg.cmds, List.any_append, sq, hseq.2.2]
    simp [newCmd, hs]
  simp only [preempts, hs, Bool.not_false, Bool.true_and] at hp
  simp only [submit, hx, submitNow, hj, carryOut, hz, hs, hl, listed_not_open hl, passEntry_jr, passEntry_homeIn, accept_homeIn, Bool.not_true,
    Bool.false_eq_true, if_false, if_true, hrun, hp]

/-- A long command that passes every check is told ACCEPTED and begins (R246). -/
theorem submit_long {r op : Nat} {e : Entry} {k : CmdRow} (hg : Granted r op e k.homes s) (hb : k.bad (passEntry r s) = false)
    (hq : k.busy (passEntry r s) = none) (hz : k.zero = false) (hs : isLong op = true) (hl : opcodes.contains op = true) :
    ∃ u x0 x1, submit r op e k s = k.run s.jr.next u ∧ Beside (homeIn s op e (k.homes.headD 0)) s u ∧
      u.cmds = s.cmds ++ [newCmd r op (homeIn s op e (k.homes.headD 0)) e s] ∧ Told r e.tag stAccepted false x0 x1 0 s u := by
  have hj := judge_none s hg hb hq
  obtain ⟨_, hx, _, _, _, _, hf, _⟩ := granted_iff.1 hg
  generalize hh : homeIn s op e (k.homes.headD 0) = home
  have hbg := begun_accept s (op := op) (e := e) home (engIdx s r) hx hf
  obtain ⟨x, c, hr, hc⟩ := hbg.ringed
  generalize hu : count (sqCtr home 7) (accept r op home (engIdx s r) e (passEntry r s)) = u at hbg hr hc
  refine ⟨placeCmd home op e s.jr.next .native (postCpl r e.tag stAccepted false (k.acc u).1 (k.acc u).2 0 u), (k.acc u).1, (k.acc u).2, ?_, ?_, ?_, ?_⟩
  · simp only [submit, hx, submitNow, hj, carryOut, hz, hs, hl, listed_not_open hl, passEntry_jr, passEntry_homeIn, accept_homeIn, hh, Bool.not_true,
      Bool.false_eq_true, if_false, if_true, hu]
  · exact (hbg.beside.trans ((kept_postCpl _ _ _ _ _ _ _ _).within home)).trans (placeCmd_beside _ _ _ _ _ _)
  · show (postCpl _ _ _ _ _ _ _ _).cmds = _
    rw [postCpl_cmds]; exact hbg.cmds
  · exact (Told.earlier (told_postCpl _ e.tag stAccepted false _ _ 0 hr hc) hbg.sends).mono (.of_eq rfl) rfl rfl

/-- The end of a command that has begun leaves nothing changed beside its home (R246). -/
theorem beside_finish {home : Nat} {v : State} (st : Nat) (x0 x1 x2 : W64) (hf : freshSeq s = true) (h : Beside home s v) :
    Beside home s (finishCmd s.jr.next st x0 x1 x2 v) := by
  obtain ⟨h1, h2, h3⟩ := finishCmd_keeps v s.jr.next st x0 x1 x2
  refine ⟨h1.trans h.1, fun sc => (h2 sc).trans (h.2.1 sc), (h3 home).1.trans h.2.2.1, fun k hk => ?_⟩
  have hs := h.2.2.2 k hk
  rw [(h3 k).2 (by rw [hs]; exact freshSeq_held hf k), hs]

/-- The end of a short command that has begun (R246). -/
theorem done_finish {r op home : Nat} {e : Entry} {u v : State} (st : Nat) (x0 x1 x2 : W64) (h : Begun r op e home s u)
    (hf : freshSeq s = true) (hc : v.cmds = u.cmds) (hr : v.rings = u.rings) (hs : Sends u v) :
    Done r e.tag st x0 x1 x2 s (finishCmd s.jr.next st x0 x1 x2 v) := by
  obtain ⟨x, c, h1, h2⟩ := h.ringed
  have hv : ring? v = ring? u := by funext q; simp [ring?, hr]
  have hk : cmd? v s.jr.next = some (newCmd r op home e s) := by
    have := h.found; simpa [cmd?, hc] using this
  have ht := told_finishCmd v st x0 x1 x2 hk rfl (x := x) (c := c) (by rw [hv]; exact h1) (by rw [hv]; exact h2)
  refine ⟨Told.earlier ht.1 (h.sends.trans hs), ?_⟩
  rw [ht.2, hc, h.cmds, List.filter_append]
  have h3 : s.cmds.filter (fun y => y.origin != s.jr.next) = s.cmds := by
    rw [List.filter_eq_self]
    intro a ha
    exact List.all_eq_true.1 (freshSeq_cmds hf) a ha
  rw [h3]
  simp [newCmd]

end Sys2Proof.Machine
end

