-- ==== Sys2Proof/Laws/PerInstr.lean ====
section
/-! SUPPORT. Facts about every command as syntax, one lemma per constructor. -/

namespace Sys2Proof.Laws.Family

/-- The submission ring through which a command reaches the engine (R239), if it is one that host software submits. -/
def ringOf (i : Instr) : Option Nat :=
  match i with
  | .nop r _ => some r
  | .identify r _ => some r
  | .inventory r _ => some r
  | .populationSet r _ => some r
  | .dramTrain r _ => some r
  | .dramTrainEnd _ _ => none
  | .laneSet r _ => some r
  | .linkTrain r _ => some r
  | .trainingStateExit _ => none
  | .trainingTimeout _ => none
  | .waveEnd => none
  | .timebaseSet r _ => some r
  | .conjunction r _ => some r
  | .syncOut => none
  | .syncIn _ => none
  | .cascadeHop _ _ _ => none
  | .conjunctionTimeout _ => none
  | .timebaseRealign r _ => some r
  | .step => none
  | .planLoad r _ => some r
  | .planAdmit r _ => some r
  | .planRelease r _ => some r
  | .arm r _ => some r
  | .captureBegin => none
  | .forceTrigger r _ => some r
  | .stop r _ => some r
  | .abortCommand r _ => some r
  | .disarm r _ => some r
  | .streamOpen r _ => some r
  | .streamClose r _ => some r
  | .record _ => none
  | .jobSearch r _ => some r
  | .jobExtract r _ => some r
  | .jobCompress r _ => some r
  | .jobDecompress r _ => some r
  | .jobVerify r _ => some r
  | .jobTurn _ _ => none
  | .resultBatch _ => none
  | .marchRun r _ => some r
  | .marchSlice _ _ => none
  | .sliceAbort _ _ => none
  | .scrubSet r _ => some r
  | .patrolScrub _ => none
  | .counterSnapshot r _ => some r
  | .take _ => none
  | .snapshotCopy => none
  | .traceSet r _ => some r
  | .powerState r _ => some r
  | .psdone => none
  | .thermalProfile r _ => some r
  | .patchLoad r _ => some r
  | .openAreaLoad r _ => some r
  | .openAreaCommand r _ _ => some r
  | .custodyGrant r _ => some r
  | .custodyRelease r _ => some r
  | .ringCreate r _ => some r
  | .ringDestroy r _ => some r
  | .ringResume r _ => some r
  | .doorbell _ _ _ => none
  | .en _ => none
  | .resume _ => none
  | .sliceEvaluation _ _ => none
  | .tallyCompletion _ _ => none
  | .timerExpiry _ => none
  | .trigOut => none
  | .trigOutFall => none
  | .cascadeFrameSend => none
  | .cascadeEvent => none
  | .sampleLeavesDelayLine _ _ _ _ => none
  | .writerOverrunResume _ => none
  | .densityRecovery _ => none
  | .phaseClosure => none
  | .segmentEnd => none
  | .captureEnd => none
  | .sample _ _ => none
  | .markFrame _ _ => none
  | .echoSend _ => none
  | .echoReply _ _ _ => none
  | .formatAck _ _ => none
  | .txeqReq _ _ => none
  | .txeqAck _ _ => none
  | .passThroughFrame _ _ => none
  | .txgo _ _ => none
  | .mailboxSend _ => none
  | .rxack _ _ => none
  | .uncorrectableCodeword _ => none
  | .lossOfLock _ => none
  | .resumed _ _ => none
  | .resumetimeout _ => none
  | .lanecommit _ _ => none
  | .firstLock => none
  | .eclipse _ => none
  | .referenceValid _ => none
  | .offset _ => none
  | .locked _ => none
  | .tbcommit _ _ => none
  | .fswitch => none
  | .flockloss => none
  | .relock => none
  | .fabricClockMachineCheck => none
  | .sysResetN _ _ _ _ => none
  | .warmResetN _ => none
  | .warmResetRelease => none
  | .flr => none
  | .pcieHotReset => none
  | .perst => none
  | .busMasterEnableClear => none
  | .busMasterEnableSet => none
  | .completion _ _ _ => none
  | .completionTimeout _ => none
  | .quarantineEnd _ => none
  | .linkchg _ _ _ => none
  | .unsupportedRequest _ => none
  | .reservedOffsetRead _ _ => none
  | .scratchBankViewAccess _ => none
  | .dramApertureRead _ _ => none
  | .evmapWrite _ _ => none
  | .vcoalWrite _ _ => none
  | .apbaseWrite _ _ => none
  | .sourceFire _ => none
  | .coalescingTime _ => none
  | .msiXUnmask _ => none
  | .rcRead _ => none
  | .loHalfRead _ => none
  | .guardkey _ _ => none
  | .guardedWrite _ _ _ => none
  | .dcommit _ _ _ => none
  | .controlStoreWordWrite _ _ _ _ => none
  | .obs0en _ => none
  | .obs1en _ => none
  | .registerWrite _ _ _ _ _ => none
  | .bankownWrite _ _ _ => none
  | .handover _ => none
  | .bankRead _ _ _ _ => none
  | .bankWrite _ _ _ _ _ => none
  | .fetchAdd _ _ _ _ _ => none
  | .swap _ _ _ _ _ => none
  | .correctedWriteBack _ _ => none
  | .microword _ => none
  | .cmt _ => none
  | .trap _ => none
  | .trapret _ => none
  | .wdog _ => none
  | .machineCheck _ _ => none
  | .wr _ _ => none
  | .free _ _ _ => none
  | .ref _ => none
  | .refsb _ => none
  | .drfm _ => none
  | .turn _ => none
  | .orbitBoundary _ => none
  | .dimmThermalRead _ _ => none
  | .idleScheduleRefresh _ => none
  | .agePromo _ => none
  | .srIdle _ => none
  | .selfRefreshExit _ => none
  | .sensorConversion _ _ => none
  | .thermalEstimate => none
  | .peakexp => none
  | .trip _ => none
  | .idcode => none
  | .regaddr _ => none
  | .regdata => none
  | .extest => none
  | .samplePreload => none
  | .extestPulse => none
  | .extestTrain => none
  | .bypass _ => none
  | .trainingLossOfLock _ => none
  | .lanectlWrite _ _ => none
  | .idleFrame _ _ => none
  | .reservedTypeFrame _ _ => none
  | .settingsWordCheck _ _ _ => none
  | .standbyPllRelock => none
  | .d3hot => none
  | .returnToD0 => none
  | .msiXEnableClear => none
  | .configurationRequest _ => none
  | .aerError _ _ => none
  | .badOpcode r _ _ => some r
  | .marchTestEnd _ => none
  | .prechargePowerDown _ => none
  | .obsFrameSend _ => none

/-- A well-formed command that host software submits names one of the 65,536 rings (R239). -/
def Statement (i : Instr) : Prop := i.wf = true → ∀ r, ringOf i = some r → r < 65536

theorem of_ring {i : Instr} {r : Nat} (hr : ringOf i = some r) (hw : i.wf = true → ringOk r = true) : Statement i := by
  intro h k hk
  rw [hr] at hk
  cases hk
  exact of_decide_eq_true (hw h)

theorem of_none {i : Instr} (hn : ringOf i = none) : Statement i := by
  intro _ k hk
  rw [hn] at hk
  cases hk

theorem left {a b : Bool} (h : (a && b) = true) : a = true := by cases a <;> simp_all

end Sys2Proof.Laws.Family

open Sys2Proof

theorem Sys2Proof.Laws.Family.nop (r : Nat) (e : Entry) : Sys2Proof.Laws.Family.Statement (.nop r e) := Sys2Proof.Laws.Family.of_ring rfl fun h => h
theorem Sys2Proof.Laws.Family.identify (r : Nat) (e : Entry) : Sys2Proof.Laws.Family.Statement (.identify r e) := Sys2Proof.Laws.Family.of_ring rfl fun h => h
theorem Sys2Proof.Laws.Family.inventory (r : Nat) (e : Entry) : Sys2Proof.Laws.Family.Statement (.inventory r e) := Sys2Proof.Laws.Family.of_ring rfl fun h => h
theorem Sys2Proof.Laws.Family.populationSet (r : Nat) (e : Entry) : Sys2Proof.Laws.Family.Statement (.populationSet r e) := Sys2Proof.Laws.Family.of_ring rfl fun h => h
theorem Sys2Proof.Laws.Family.dramTrain (r : Nat) (e : Entry) : Sys2Proof.Laws.Family.Statement (.dramTrain r e) := Sys2Proof.Laws.Family.of_ring rfl fun h => h
theorem Sys2Proof.Laws.Family.dramTrainEnd (ready : BitVec 8) (bad : List MarchFail) : Sys2Proof.Laws.Family.Statement (.dramTrainEnd ready bad) := Sys2Proof.Laws.Family.of_none rfl
theorem Sys2Proof.Laws.Family.laneSet (r : Nat) (e : Entry) : Sys2Proof.Laws.Family.Statement (.laneSet r e) := Sys2Proof.Laws.Family.of_ring rfl fun h => h
theorem Sys2Proof.Laws.Family.linkTrain (r : Nat) (e : Entry) : Sys2Proof.Laws.Family.Statement (.linkTrain r e) := Sys2Proof.Laws.Family.of_ring rfl fun h => h
theorem Sys2Proof.Laws.Family.trainingStateExit (lane : Nat) : Sys2Proof.Laws.Family.Statement (.trainingStateExit lane) := Sys2Proof.Laws.Family.of_none rfl
theorem Sys2Proof.Laws.Family.trainingTimeout (lane : Nat) : Sys2Proof.Laws.Family.Statement (.trainingTimeout lane) := Sys2Proof.Laws.Family.of_none rfl
theorem Sys2Proof.Laws.Family.waveEnd : Sys2Proof.Laws.Family.Statement .waveEnd := Sys2Proof.Laws.Family.of_none rfl
theorem Sys2Proof.Laws.Family.timebaseSet (r : Nat) (e : Entry) : Sys2Proof.Laws.Family.Statement (.timebaseSet r e) := Sys2Proof.Laws.Family.of_ring rfl fun h => h
theorem Sys2Proof.Laws.Family.conjunction (r : Nat) (e : Entry) : Sys2Proof.Laws.Family.Statement (.conjunction r e) := Sys2Proof.Laws.Family.of_ring rfl fun h => h
theorem Sys2Proof.Laws.Family.syncOut : Sys2Proof.Laws.Family.Statement .syncOut := Sys2Proof.Laws.Family.of_none rfl
theorem Sys2Proof.Laws.Family.syncIn (toRef : Nat) : Sys2Proof.Laws.Family.Statement (.syncIn toRef) := Sys2Proof.Laws.Family.of_none rfl
theorem Sys2Proof.Laws.Family.cascadeHop (d16 : Nat) (pos : Nat) (up : Nat) : Sys2Proof.Laws.Family.Statement (.cascadeHop d16 pos up) := Sys2Proof.Laws.Family.of_none rfl
theorem Sys2Proof.Laws.Family.conjunctionTimeout (cause : Nat) : Sys2Proof.Laws.Family.Statement (.conjunctionTimeout cause) := Sys2Proof.Laws.Family.of_none rfl
theorem Sys2Proof.Laws.Family.timebaseRealign (r : Nat) (e : Entry) : Sys2Proof.Laws.Family.Statement (.timebaseRealign r e) := Sys2Proof.Laws.Family.of_ring rfl fun h => h
theorem Sys2Proof.Laws.Family.step : Sys2Proof.Laws.Family.Statement .step := Sys2Proof.Laws.Family.of_none rfl
theorem Sys2Proof.Laws.Family.planLoad (r : Nat) (e : Entry) : Sys2Proof.Laws.Family.Statement (.planLoad r e) := Sys2Proof.Laws.Family.of_ring rfl fun h => h
theorem Sys2Proof.Laws.Family.planAdmit (r : Nat) (e : Entry) : Sys2Proof.Laws.Family.Statement (.planAdmit r e) := Sys2Proof.Laws.Family.of_ring rfl fun h => h
theorem Sys2Proof.Laws.Family.planRelease (r : Nat) (e : Entry) : Sys2Proof.Laws.Family.Statement (.planRelease r e) := Sys2Proof.Laws.Family.of_ring rfl fun h => h
theorem Sys2Proof.Laws.Family.arm (r : Nat) (e : Entry) : Sys2Proof.Laws.Family.Statement (.arm r e) := Sys2Proof.Laws.Family.of_ring rfl fun h => h
theorem Sys2Proof.Laws.Family.captureBegin : Sys2Proof.Laws.Family.Statement .captureBegin := Sys2Proof.Laws.Family.of_none rfl
theorem Sys2Proof.Laws.Family.forceTrigger (r : Nat) (e : Entry) : Sys2Proof.Laws.Family.Statement (.forceTrigger r e) := Sys2Proof.Laws.Family.of_ring rfl fun h => h
theorem Sys2Proof.Laws.Family.stop (r : Nat) (e : Entry) : Sys2Proof.Laws.Family.Statement (.stop r e) := Sys2Proof.Laws.Family.of_ring rfl fun h => h
theorem Sys2Proof.Laws.Family.abortCommand (r : Nat) (e : Entry) : Sys2Proof.Laws.Family.Statement (.abortCommand r e) := Sys2Proof.Laws.Family.of_ring rfl fun h => h
theorem Sys2Proof.Laws.Family.disarm (r : Nat) (e : Entry) : Sys2Proof.Laws.Family.Statement (.disarm r e) := Sys2Proof.Laws.Family.of_ring rfl fun h => h
theorem Sys2Proof.Laws.Family.streamOpen (r : Nat) (e : Entry) : Sys2Proof.Laws.Family.Statement (.streamOpen r e) := Sys2Proof.Laws.Family.of_ring rfl fun h => h
theorem Sys2Proof.Laws.Family.streamClose (r : Nat) (e : Entry) : Sys2Proof.Laws.Family.Statement (.streamClose r e) := Sys2Proof.Laws.Family.of_ring rfl fun h => h
theorem Sys2Proof.Laws.Family.record (ring : Nat) : Sys2Proof.Laws.Family.Statement (.record ring) := Sys2Proof.Laws.Family.of_none rfl
theorem Sys2Proof.Laws.Family.jobSearch (r : Nat) (e : Entry) : Sys2Proof.Laws.Family.Statement (.jobSearch r e) := Sys2Proof.Laws.Family.of_ring rfl fun h => h
theorem Sys2Proof.Laws.Family.jobExtract (r : Nat) (e : Entry) : Sys2Proof.Laws.Family.Statement (.jobExtract r e) := Sys2Proof.Laws.Family.of_ring rfl fun h => h
theorem Sys2Proof.Laws.Family.jobCompress (r : Nat) (e : Entry) : Sys2Proof.Laws.Family.Statement (.jobCompress r e) := Sys2Proof.Laws.Family.of_ring rfl fun h => h
theorem Sys2Proof.Laws.Family.jobDecompress (r : Nat) (e : Entry) : Sys2Proof.Laws.Family.Statement (.jobDecompress r e) := Sys2Proof.Laws.Family.of_ring rfl fun h => h
theorem Sys2Proof.Laws.Family.jobVerify (r : Nat) (e : Entry) : Sys2Proof.Laws.Family.Statement (.jobVerify r e) := Sys2Proof.Laws.Family.of_ring rfl fun h => h
theorem Sys2Proof.Laws.Family.jobTurn (q : Nat) (shadowOk : Bool) : Sys2Proof.Laws.Family.Statement (.jobTurn q shadowOk) := Sys2Proof.Laws.Family.of_none rfl
theorem Sys2Proof.Laws.Family.resultBatch (job : Nat) : Sys2Proof.Laws.Family.Statement (.resultBatch job) := Sys2Proof.Laws.Family.of_none rfl
theorem Sys2Proof.Laws.Family.marchRun (r : Nat) (e : Entry) : Sys2Proof.Laws.Family.Statement (.marchRun r e) := Sys2Proof.Laws.Family.of_ring rfl fun h => h
theorem Sys2Proof.Laws.Family.marchSlice (bad : List MarchFail) (bufBad : Option (Nat × Nat)) : Sys2Proof.Laws.Family.Statement (.marchSlice bad bufBad) := Sys2Proof.Laws.Family.of_none rfl
theorem Sys2Proof.Laws.Family.sliceAbort (k : Nat) (w : Nat) : Sys2Proof.Laws.Family.Statement (.sliceAbort k w) := Sys2Proof.Laws.Family.of_none rfl
theorem Sys2Proof.Laws.Family.scrubSet (r : Nat) (e : Entry) : Sys2Proof.Laws.Family.Statement (.scrubSet r e) := Sys2Proof.Laws.Family.of_ring rfl fun h => h
theorem Sys2Proof.Laws.Family.patrolScrub (sc : Nat) : Sys2Proof.Laws.Family.Statement (.patrolScrub sc) := Sys2Proof.Laws.Family.of_none rfl
theorem Sys2Proof.Laws.Family.counterSnapshot (r : Nat) (e : Entry) : Sys2Proof.Laws.Family.Statement (.counterSnapshot r e) := Sys2Proof.Laws.Family.of_ring rfl fun h => h
theorem Sys2Proof.Laws.Family.take (v : W32) : Sys2Proof.Laws.Family.Statement (.take v) := Sys2Proof.Laws.Family.of_none rfl
theorem Sys2Proof.Laws.Family.snapshotCopy : Sys2Proof.Laws.Family.Statement .snapshotCopy := Sys2Proof.Laws.Family.of_none rfl
theorem Sys2Proof.Laws.Family.traceSet (r : Nat) (e : Entry) : Sys2Proof.Laws.Family.Statement (.traceSet r e) := Sys2Proof.Laws.Family.of_ring rfl fun h => h
theorem Sys2Proof.Laws.Family.powerState (r : Nat) (e : Entry) : Sys2Proof.Laws.Family.Statement (.powerState r e) := Sys2Proof.Laws.Family.of_ring rfl fun h => h
theorem Sys2Proof.Laws.Family.psdone : Sys2Proof.Laws.Family.Statement .psdone := Sys2Proof.Laws.Family.of_none rfl
theorem Sys2Proof.Laws.Family.thermalProfile (r : Nat) (e : Entry) : Sys2Proof.Laws.Family.Statement (.thermalProfile r e) := Sys2Proof.Laws.Family.of_ring rfl fun h => h
theorem Sys2Proof.Laws.Family.patchLoad (r : Nat) (e : Entry) : Sys2Proof.Laws.Family.Statement (.patchLoad r e) := Sys2Proof.Laws.Family.of_ring rfl fun h => h
theorem Sys2Proof.Laws.Family.openAreaLoad (r : Nat) (e : Entry) : Sys2Proof.Laws.Family.Statement (.openAreaLoad r e) := Sys2Proof.Laws.Family.of_ring rfl fun h => h
theorem Sys2Proof.Laws.Family.openAreaCommand (r : Nat) (sub : BitVec 8) (e : Entry) : Sys2Proof.Laws.Family.Statement (.openAreaCommand r sub e) := Sys2Proof.Laws.Family.of_ring rfl fun h => h
theorem Sys2Proof.Laws.Family.custodyGrant (r : Nat) (e : Entry) : Sys2Proof.Laws.Family.Statement (.custodyGrant r e) := Sys2Proof.Laws.Family.of_ring rfl fun h => h
theorem Sys2Proof.Laws.Family.custodyRelease (r : Nat) (e : Entry) : Sys2Proof.Laws.Family.Statement (.custodyRelease r e) := Sys2Proof.Laws.Family.of_ring rfl fun h => h
theorem Sys2Proof.Laws.Family.ringCreate (r : Nat) (e : Entry) : Sys2Proof.Laws.Family.Statement (.ringCreate r e) := Sys2Proof.Laws.Family.of_ring rfl fun h => h
theorem Sys2Proof.Laws.Family.ringDestroy (r : Nat) (e : Entry) : Sys2Proof.Laws.Family.Statement (.ringDestroy r e) := Sys2Proof.Laws.Family.of_ring rfl fun h => h
theorem Sys2Proof.Laws.Family.ringResume (r : Nat) (e : Entry) : Sys2Proof.Laws.Family.Statement (.ringResume r e) := Sys2Proof.Laws.Family.of_ring rfl fun h => h
theorem Sys2Proof.Laws.Family.doorbell (r : Nat) (v : W64) (lower : Bool) : Sys2Proof.Laws.Family.Statement (.doorbell r v lower) := Sys2Proof.Laws.Family.of_none rfl
theorem Sys2Proof.Laws.Family.en (v : W32) : Sys2Proof.Laws.Family.Statement (.en v) := Sys2Proof.Laws.Family.of_none rfl
theorem Sys2Proof.Laws.Family.resume (v : W32) : Sys2Proof.Laws.Family.Statement (.resume v) := Sys2Proof.Laws.Family.of_none rfl
theorem Sys2Proof.Laws.Family.sliceEvaluation (trig : List W32) (flips : List LineFlip) : Sys2Proof.Laws.Family.Statement (.sliceEvaluation trig flips) := Sys2Proof.Laws.Family.of_none rfl
theorem Sys2Proof.Laws.Family.tallyCompletion (a : Nat) (u : Nat) : Sys2Proof.Laws.Family.Statement (.tallyCompletion a u) := Sys2Proof.Laws.Family.of_none rfl
theorem Sys2Proof.Laws.Family.timerExpiry (i : Nat) : Sys2Proof.Laws.Family.Statement (.timerExpiry i) := Sys2Proof.Laws.Family.of_none rfl
theorem Sys2Proof.Laws.Family.trigOut : Sys2Proof.Laws.Family.Statement .trigOut := Sys2Proof.Laws.Family.of_none rfl
theorem Sys2Proof.Laws.Family.trigOutFall : Sys2Proof.Laws.Family.Statement .trigOutFall := Sys2Proof.Laws.Family.of_none rfl
theorem Sys2Proof.Laws.Family.cascadeFrameSend : Sys2Proof.Laws.Family.Statement .cascadeFrameSend := Sys2Proof.Laws.Family.of_none rfl
theorem Sys2Proof.Laws.Family.cascadeEvent : Sys2Proof.Laws.Family.Statement .cascadeEvent := Sys2Proof.Laws.Family.of_none rfl
theorem Sys2Proof.Laws.Family.sampleLeavesDelayLine (st : Nat) (l : Nat) (stamp : Nat) (qe : Option QuadErr) : Sys2Proof.Laws.Family.Statement (.sampleLeavesDelayLine st l stamp qe) := Sys2Proof.Laws.Family.of_none rfl
theorem Sys2Proof.Laws.Family.writerOverrunResume (st : Nat) : Sys2Proof.Laws.Family.Statement (.writerOverrunResume st) := Sys2Proof.Laws.Family.of_none rfl
theorem Sys2Proof.Laws.Family.densityRecovery (st : Nat) : Sys2Proof.Laws.Family.Statement (.densityRecovery st) := Sys2Proof.Laws.Family.of_none rfl
theorem Sys2Proof.Laws.Family.phaseClosure : Sys2Proof.Laws.Family.Statement .phaseClosure := Sys2Proof.Laws.Family.of_none rfl
theorem Sys2Proof.Laws.Family.segmentEnd : Sys2Proof.Laws.Family.Statement .segmentEnd := Sys2Proof.Laws.Family.of_none rfl
theorem Sys2Proof.Laws.Family.captureEnd : Sys2Proof.Laws.Family.Statement .captureEnd := Sys2Proof.Laws.Family.of_none rfl
theorem Sys2Proof.Laws.Family.sample (lane : Nat) (f : RxFrame) : Sys2Proof.Laws.Family.Statement (.sample lane f) := Sys2Proof.Laws.Family.of_none rfl
theorem Sys2Proof.Laws.Family.markFrame (lane : Nat) (f : RxFrame) : Sys2Proof.Laws.Family.Statement (.markFrame lane f) := Sys2Proof.Laws.Family.of_none rfl
theorem Sys2Proof.Laws.Family.echoSend (lane : Nat) : Sys2Proof.Laws.Family.Statement (.echoSend lane) := Sys2Proof.Laws.Family.of_none rfl
theorem Sys2Proof.Laws.Family.echoReply (lane : Nat) (f : RxFrame) (trx16 : Nat) : Sys2Proof.Laws.Family.Statement (.echoReply lane f trx16) := Sys2Proof.Laws.Family.of_none rfl
theorem Sys2Proof.Laws.Family.formatAck (lane : Nat) (f : RxFrame) : Sys2Proof.Laws.Family.Statement (.formatAck lane f) := Sys2Proof.Laws.Family.of_none rfl
theorem Sys2Proof.Laws.Family.txeqReq (lane : Nat) (f : RxFrame) : Sys2Proof.Laws.Family.Statement (.txeqReq lane f) := Sys2Proof.Laws.Family.of_none rfl
theorem Sys2Proof.Laws.Family.txeqAck (lane : Nat) (f : RxFrame) : Sys2Proof.Laws.Family.Statement (.txeqAck lane f) := Sys2Proof.Laws.Family.of_none rfl
theorem Sys2Proof.Laws.Family.passThroughFrame (lane : Nat) (f : RxFrame) : Sys2Proof.Laws.Family.Statement (.passThroughFrame lane f) := Sys2Proof.Laws.Family.of_none rfl
theorem Sys2Proof.Laws.Family.txgo (lane : Nat) (v : W32) : Sys2Proof.Laws.Family.Statement (.txgo lane v) := Sys2Proof.Laws.Family.of_none rfl
theorem Sys2Proof.Laws.Family.mailboxSend (lane : Nat) : Sys2Proof.Laws.Family.Statement (.mailboxSend lane) := Sys2Proof.Laws.Family.of_none rfl
theorem Sys2Proof.Laws.Family.rxack (lane : Nat) (v : W32) : Sys2Proof.Laws.Family.Statement (.rxack lane v) := Sys2Proof.Laws.Family.of_none rfl
theorem Sys2Proof.Laws.Family.uncorrectableCodeword (lane : Nat) : Sys2Proof.Laws.Family.Statement (.uncorrectableCodeword lane) := Sys2Proof.Laws.Family.of_none rfl
theorem Sys2Proof.Laws.Family.lossOfLock (lane : Nat) : Sys2Proof.Laws.Family.Statement (.lossOfLock lane) := Sys2Proof.Laws.Family.of_none rfl
theorem Sys2Proof.Laws.Family.resumed (lane : Nat) (f : RxFrame) : Sys2Proof.Laws.Family.Statement (.resumed lane f) := Sys2Proof.Laws.Family.of_none rfl
theorem Sys2Proof.Laws.Family.resumetimeout (lane : Nat) : Sys2Proof.Laws.Family.Statement (.resumetimeout lane) := Sys2Proof.Laws.Family.of_none rfl
theorem Sys2Proof.Laws.Family.lanecommit (lane : Nat) (v : W32) : Sys2Proof.Laws.Family.Statement (.lanecommit lane v) := Sys2Proof.Laws.Family.of_none rfl
theorem Sys2Proof.Laws.Family.firstLock : Sys2Proof.Laws.Family.Statement .firstLock := Sys2Proof.Laws.Family.of_none rfl
theorem Sys2Proof.Laws.Family.eclipse (cause : LockFail) : Sys2Proof.Laws.Family.Statement (.eclipse cause) := Sys2Proof.Laws.Family.of_none rfl
theorem Sys2Proof.Laws.Family.referenceValid (delta16 : Int) : Sys2Proof.Laws.Family.Statement (.referenceValid delta16) := Sys2Proof.Laws.Family.of_none rfl
theorem Sys2Proof.Laws.Family.offset (delta16 : Int) : Sys2Proof.Laws.Family.Statement (.offset delta16) := Sys2Proof.Laws.Family.of_none rfl
theorem Sys2Proof.Laws.Family.locked (residual16 : Int) : Sys2Proof.Laws.Family.Statement (.locked residual16) := Sys2Proof.Laws.Family.of_none rfl
theorem Sys2Proof.Laws.Family.tbcommit (m : Master) (v : W32) : Sys2Proof.Laws.Family.Statement (.tbcommit m v) := Sys2Proof.Laws.Family.of_none rfl
theorem Sys2Proof.Laws.Family.fswitch : Sys2Proof.Laws.Family.Statement .fswitch := Sys2Proof.Laws.Family.of_none rfl
theorem Sys2Proof.Laws.Family.flockloss : Sys2Proof.Laws.Family.Statement .flockloss := Sys2Proof.Laws.Family.of_none rfl
theorem Sys2Proof.Laws.Family.relock : Sys2Proof.Laws.Family.Statement .relock := Sys2Proof.Laws.Family.of_none rfl
theorem Sys2Proof.Laws.Family.fabricClockMachineCheck : Sys2Proof.Laws.Family.Statement .fabricClockMachineCheck := Sys2Proof.Laws.Family.of_none rfl
theorem Sys2Proof.Laws.Family.sysResetN (refsel : BitVec 2) (bscan : Bool) (flash : Flash) (csBad : BitVec 28) : Sys2Proof.Laws.Family.Statement (.sysResetN refsel bscan flash csBad) := Sys2Proof.Laws.Family.of_none rfl
theorem Sys2Proof.Laws.Family.warmResetN (width : Nat) : Sys2Proof.Laws.Family.Statement (.warmResetN width) := Sys2Proof.Laws.Family.of_none rfl
theorem Sys2Proof.Laws.Family.warmResetRelease : Sys2Proof.Laws.Family.Statement .warmResetRelease := Sys2Proof.Laws.Family.of_none rfl
theorem Sys2Proof.Laws.Family.flr : Sys2Proof.Laws.Family.Statement .flr := Sys2Proof.Laws.Family.of_none rfl
theorem Sys2Proof.Laws.Family.pcieHotReset : Sys2Proof.Laws.Family.Statement .pcieHotReset := Sys2Proof.Laws.Family.of_none rfl
theorem Sys2Proof.Laws.Family.perst : Sys2Proof.Laws.Family.Statement .perst := Sys2Proof.Laws.Family.of_none rfl
theorem Sys2Proof.Laws.Family.busMasterEnableClear : Sys2Proof.Laws.Family.Statement .busMasterEnableClear := Sys2Proof.Laws.Family.of_none rfl
theorem Sys2Proof.Laws.Family.busMasterEnableSet : Sys2Proof.Laws.Family.Statement .busMasterEnableSet := Sys2Proof.Laws.Family.of_none rfl
theorem Sys2Proof.Laws.Family.completion (tag : Nat) (bytes : List Byte) (poisoned : Bool) : Sys2Proof.Laws.Family.Statement (.completion tag bytes poisoned) := Sys2Proof.Laws.Family.of_none rfl
theorem Sys2Proof.Laws.Family.completionTimeout (tag : Nat) : Sys2Proof.Laws.Family.Statement (.completionTimeout tag) := Sys2Proof.Laws.Family.of_none rfl
theorem Sys2Proof.Laws.Family.quarantineEnd (tag : Nat) : Sys2Proof.Laws.Family.Statement (.quarantineEnd tag) := Sys2Proof.Laws.Family.of_none rfl
theorem Sys2Proof.Laws.Family.linkchg (speed : Nat) (width : Nat) (flit : Bool) : Sys2Proof.Laws.Family.Statement (.linkchg speed width flit) := Sys2Proof.Laws.Family.of_none rfl
theorem Sys2Proof.Laws.Family.unsupportedRequest (k : UrKind) : Sys2Proof.Laws.Family.Statement (.unsupportedRequest k) := Sys2Proof.Laws.Family.of_none rfl
theorem Sys2Proof.Laws.Family.reservedOffsetRead (off : Nat) (len : Nat) : Sys2Proof.Laws.Family.Statement (.reservedOffsetRead off len) := Sys2Proof.Laws.Family.of_none rfl
theorem Sys2Proof.Laws.Family.scratchBankViewAccess (q : ViewReq) : Sys2Proof.Laws.Family.Statement (.scratchBankViewAccess q) := Sys2Proof.Laws.Family.of_none rfl
theorem Sys2Proof.Laws.Family.dramApertureRead (x : Nat) (len : Nat) : Sys2Proof.Laws.Family.Statement (.dramApertureRead x len) := Sys2Proof.Laws.Family.of_none rfl
theorem Sys2Proof.Laws.Family.evmapWrite (src : Nat) (v : W32) : Sys2Proof.Laws.Family.Statement (.evmapWrite src v) := Sys2Proof.Laws.Family.of_none rfl
theorem Sys2Proof.Laws.Family.vcoalWrite (vec : Nat) (v : W32) : Sys2Proof.Laws.Family.Statement (.vcoalWrite vec v) := Sys2Proof.Laws.Family.of_none rfl
theorem Sys2Proof.Laws.Family.apbaseWrite (hi : Bool) (v : W32) : Sys2Proof.Laws.Family.Statement (.apbaseWrite hi v) := Sys2Proof.Laws.Family.of_none rfl
theorem Sys2Proof.Laws.Family.sourceFire (src : Nat) : Sys2Proof.Laws.Family.Statement (.sourceFire src) := Sys2Proof.Laws.Family.of_none rfl
theorem Sys2Proof.Laws.Family.coalescingTime (vec : Nat) : Sys2Proof.Laws.Family.Statement (.coalescingTime vec) := Sys2Proof.Laws.Family.of_none rfl
theorem Sys2Proof.Laws.Family.msiXUnmask (vec : Option Nat) : Sys2Proof.Laws.Family.Statement (.msiXUnmask vec) := Sys2Proof.Laws.Family.of_none rfl
theorem Sys2Proof.Laws.Family.rcRead (off : Nat) : Sys2Proof.Laws.Family.Statement (.rcRead off) := Sys2Proof.Laws.Family.of_none rfl
theorem Sys2Proof.Laws.Family.loHalfRead (off : Nat) : Sys2Proof.Laws.Family.Statement (.loHalfRead off) := Sys2Proof.Laws.Family.of_none rfl
theorem Sys2Proof.Laws.Family.guardkey (m : Master) (v : W32) : Sys2Proof.Laws.Family.Statement (.guardkey m v) := Sys2Proof.Laws.Family.of_none rfl
theorem Sys2Proof.Laws.Family.guardedWrite (m : Master) (off : Nat) (v : W32) : Sys2Proof.Laws.Family.Statement (.guardedWrite m off v) := Sys2Proof.Laws.Family.of_none rfl
theorem Sys2Proof.Laws.Family.dcommit (m : Master) (ch : Nat) (v : W32) : Sys2Proof.Laws.Family.Statement (.dcommit m ch v) := Sys2Proof.Laws.Family.of_none rfl
theorem Sys2Proof.Laws.Family.controlStoreWordWrite (m : Master) (q : Nat) (w : Nat) (v : W32) : Sys2Proof.Laws.Family.Statement (.controlStoreWordWrite m q w v) := Sys2Proof.Laws.Family.of_none rfl
theorem Sys2Proof.Laws.Family.obs0en (v : W32) : Sys2Proof.Laws.Family.Statement (.obs0en v) := Sys2Proof.Laws.Family.of_none rfl
theorem Sys2Proof.Laws.Family.obs1en (v : W32) : Sys2Proof.Laws.Family.Statement (.obs1en v) := Sys2Proof.Laws.Family.of_none rfl
theorem Sys2Proof.Laws.Family.registerWrite (off : Nat) (len : Nat) (be : BitVec 8) (v : W64) (poisoned : Bool) : Sys2Proof.Laws.Family.Statement (.registerWrite off len be v poisoned) := Sys2Proof.Laws.Family.of_none rfl
theorem Sys2Proof.Laws.Family.bankownWrite (m : BankUser) (k : Nat) (v : W32) : Sys2Proof.Laws.Family.Statement (.bankownWrite m k v) := Sys2Proof.Laws.Family.of_none rfl
theorem Sys2Proof.Laws.Family.handover (k : Nat) : Sys2Proof.Laws.Family.Statement (.handover k) := Sys2Proof.Laws.Family.of_none rfl
theorem Sys2Proof.Laws.Family.bankRead (m : BankUser) (k : Nat) (w : Nat) (ecc : Ecc) : Sys2Proof.Laws.Family.Statement (.bankRead m k w ecc) := Sys2Proof.Laws.Family.of_none rfl
theorem Sys2Proof.Laws.Family.bankWrite (m : BankUser) (k : Nat) (w : Nat) (v : W64) (other : Option (BankUser × PortOp)) : Sys2Proof.Laws.Family.Statement (.bankWrite m k w v other) := Sys2Proof.Laws.Family.of_none rfl
theorem Sys2Proof.Laws.Family.fetchAdd (m : BankUser) (k : Nat) (w : Nat) (d : W64) (other : Option (BankUser × PortOp)) : Sys2Proof.Laws.Family.Statement (.fetchAdd m k w d other) := Sys2Proof.Laws.Family.of_none rfl
theorem Sys2Proof.Laws.Family.swap (m : BankUser) (k : Nat) (w : Nat) (v : W64) (other : Option (BankUser × PortOp)) : Sys2Proof.Laws.Family.Statement (.swap m k w v other) := Sys2Proof.Laws.Family.of_none rfl
theorem Sys2Proof.Laws.Family.correctedWriteBack (k : Nat) (w : Nat) : Sys2Proof.Laws.Family.Statement (.correctedWriteBack k w) := Sys2Proof.Laws.Family.of_none rfl
theorem Sys2Proof.Laws.Family.microword (q : Nat) : Sys2Proof.Laws.Family.Statement (.microword q) := Sys2Proof.Laws.Family.of_none rfl
theorem Sys2Proof.Laws.Family.cmt (q : Nat) : Sys2Proof.Laws.Family.Statement (.cmt q) := Sys2Proof.Laws.Family.of_none rfl
theorem Sys2Proof.Laws.Family.trap (q : Nat) : Sys2Proof.Laws.Family.Statement (.trap q) := Sys2Proof.Laws.Family.of_none rfl
theorem Sys2Proof.Laws.Family.trapret (q : Nat) : Sys2Proof.Laws.Family.Statement (.trapret q) := Sys2Proof.Laws.Family.of_none rfl
theorem Sys2Proof.Laws.Family.wdog (q : Nat) : Sys2Proof.Laws.Family.Statement (.wdog q) := Sys2Proof.Laws.Family.of_none rfl
theorem Sys2Proof.Laws.Family.machineCheck (q : Nat) (cause : Nat) : Sys2Proof.Laws.Family.Statement (.machineCheck q cause) := Sys2Proof.Laws.Family.of_none rfl
theorem Sys2Proof.Laws.Family.wr (sc : Nat) (qe : Option QuadErr) : Sys2Proof.Laws.Family.Statement (.wr sc qe) := Sys2Proof.Laws.Family.of_none rfl
theorem Sys2Proof.Laws.Family.free (sc : Nat) (ecc : Ecc) (qe : Option QuadErr) : Sys2Proof.Laws.Family.Statement (.free sc ecc qe) := Sys2Proof.Laws.Family.of_none rfl
theorem Sys2Proof.Laws.Family.ref (sc : Nat) : Sys2Proof.Laws.Family.Statement (.ref sc) := Sys2Proof.Laws.Family.of_none rfl
theorem Sys2Proof.Laws.Family.refsb (sc : Nat) : Sys2Proof.Laws.Family.Statement (.refsb sc) := Sys2Proof.Laws.Family.of_none rfl
theorem Sys2Proof.Laws.Family.drfm (sc : Nat) : Sys2Proof.Laws.Family.Statement (.drfm sc) := Sys2Proof.Laws.Family.of_none rfl
theorem Sys2Proof.Laws.Family.turn (sc : Nat) : Sys2Proof.Laws.Family.Statement (.turn sc) := Sys2Proof.Laws.Family.of_none rfl
theorem Sys2Proof.Laws.Family.orbitBoundary (sc : Nat) : Sys2Proof.Laws.Family.Statement (.orbitBoundary sc) := Sys2Proof.Laws.Family.of_none rfl
theorem Sys2Proof.Laws.Family.dimmThermalRead (ch : Nat) (temp16 : Int) : Sys2Proof.Laws.Family.Statement (.dimmThermalRead ch temp16) := Sys2Proof.Laws.Family.of_none rfl
theorem Sys2Proof.Laws.Family.idleScheduleRefresh (sc : Nat) : Sys2Proof.Laws.Family.Statement (.idleScheduleRefresh sc) := Sys2Proof.Laws.Family.of_none rfl
theorem Sys2Proof.Laws.Family.agePromo (sc : Nat) : Sys2Proof.Laws.Family.Statement (.agePromo sc) := Sys2Proof.Laws.Family.of_none rfl
theorem Sys2Proof.Laws.Family.srIdle (sc : Nat) : Sys2Proof.Laws.Family.Statement (.srIdle sc) := Sys2Proof.Laws.Family.of_none rfl
theorem Sys2Proof.Laws.Family.selfRefreshExit (sc : Nat) : Sys2Proof.Laws.Family.Statement (.selfRefreshExit sc) := Sys2Proof.Laws.Family.of_none rfl
theorem Sys2Proof.Laws.Family.sensorConversion (i : Nat) (temp16 : Option Int) : Sys2Proof.Laws.Family.Statement (.sensorConversion i temp16) := Sys2Proof.Laws.Family.of_none rfl
theorem Sys2Proof.Laws.Family.thermalEstimate : Sys2Proof.Laws.Family.Statement .thermalEstimate := Sys2Proof.Laws.Family.of_none rfl
theorem Sys2Proof.Laws.Family.peakexp : Sys2Proof.Laws.Family.Statement .peakexp := Sys2Proof.Laws.Family.of_none rfl
theorem Sys2Proof.Laws.Family.trip (i : Nat) : Sys2Proof.Laws.Family.Statement (.trip i) := Sys2Proof.Laws.Family.of_none rfl
theorem Sys2Proof.Laws.Family.idcode : Sys2Proof.Laws.Family.Statement .idcode := Sys2Proof.Laws.Family.of_none rfl
theorem Sys2Proof.Laws.Family.regaddr (off : W32) : Sys2Proof.Laws.Family.Statement (.regaddr off) := Sys2Proof.Laws.Family.of_none rfl
theorem Sys2Proof.Laws.Family.regdata : Sys2Proof.Laws.Family.Statement .regdata := Sys2Proof.Laws.Family.of_none rfl
theorem Sys2Proof.Laws.Family.extest : Sys2Proof.Laws.Family.Statement .extest := Sys2Proof.Laws.Family.of_none rfl
theorem Sys2Proof.Laws.Family.samplePreload : Sys2Proof.Laws.Family.Statement .samplePreload := Sys2Proof.Laws.Family.of_none rfl
theorem Sys2Proof.Laws.Family.extestPulse : Sys2Proof.Laws.Family.Statement .extestPulse := Sys2Proof.Laws.Family.of_none rfl
theorem Sys2Proof.Laws.Family.extestTrain : Sys2Proof.Laws.Family.Statement .extestTrain := Sys2Proof.Laws.Family.of_none rfl
theorem Sys2Proof.Laws.Family.bypass (code : BitVec 8) : Sys2Proof.Laws.Family.Statement (.bypass code) := Sys2Proof.Laws.Family.of_none rfl
theorem Sys2Proof.Laws.Family.trainingLossOfLock (lane : Nat) : Sys2Proof.Laws.Family.Statement (.trainingLossOfLock lane) := Sys2Proof.Laws.Family.of_none rfl
theorem Sys2Proof.Laws.Family.lanectlWrite (lane : Nat) (v : W32) : Sys2Proof.Laws.Family.Statement (.lanectlWrite lane v) := Sys2Proof.Laws.Family.of_none rfl
theorem Sys2Proof.Laws.Family.idleFrame (lane : Nat) (f : RxFrame) : Sys2Proof.Laws.Family.Statement (.idleFrame lane f) := Sys2Proof.Laws.Family.of_none rfl
theorem Sys2Proof.Laws.Family.reservedTypeFrame (lane : Nat) (f : RxFrame) : Sys2Proof.Laws.Family.Statement (.reservedTypeFrame lane f) := Sys2Proof.Laws.Family.of_none rfl
theorem Sys2Proof.Laws.Family.settingsWordCheck (u : TableUnit) (off : Nat) (ecc : Ecc) : Sys2Proof.Laws.Family.Statement (.settingsWordCheck u off ecc) := Sys2Proof.Laws.Family.of_none rfl
theorem Sys2Proof.Laws.Family.standbyPllRelock : Sys2Proof.Laws.Family.Statement .standbyPllRelock := Sys2Proof.Laws.Family.of_none rfl
theorem Sys2Proof.Laws.Family.d3hot : Sys2Proof.Laws.Family.Statement .d3hot := Sys2Proof.Laws.Family.of_none rfl
theorem Sys2Proof.Laws.Family.returnToD0 : Sys2Proof.Laws.Family.Statement .returnToD0 := Sys2Proof.Laws.Family.of_none rfl
theorem Sys2Proof.Laws.Family.msiXEnableClear : Sys2Proof.Laws.Family.Statement .msiXEnableClear := Sys2Proof.Laws.Family.of_none rfl
theorem Sys2Proof.Laws.Family.configurationRequest (q : CfgReq) : Sys2Proof.Laws.Family.Statement (.configurationRequest q) := Sys2Proof.Laws.Family.of_none rfl
theorem Sys2Proof.Laws.Family.aerError (sev : AerSev) (bit : Nat) : Sys2Proof.Laws.Family.Statement (.aerError sev bit) := Sys2Proof.Laws.Family.of_none rfl
theorem Sys2Proof.Laws.Family.badOpcode (r : Nat) (opcode : BitVec 16) (e : Entry) : Sys2Proof.Laws.Family.Statement (.badOpcode r opcode e) := Sys2Proof.Laws.Family.of_ring rfl fun h => h
theorem Sys2Proof.Laws.Family.marchTestEnd (bad : List MarchFail) : Sys2Proof.Laws.Family.Statement (.marchTestEnd bad) := Sys2Proof.Laws.Family.of_none rfl
theorem Sys2Proof.Laws.Family.prechargePowerDown (sc : Nat) : Sys2Proof.Laws.Family.Statement (.prechargePowerDown sc) := Sys2Proof.Laws.Family.of_none rfl
theorem Sys2Proof.Laws.Family.obsFrameSend (port : Nat) : Sys2Proof.Laws.Family.Statement (.obsFrameSend port) := Sys2Proof.Laws.Family.of_none rfl
end

