-- ==== Sys2Proof/Laws/Steps.lean ====
section
/-! SUPPORT. From a meaning to its step: a working engine answers the state that the meaning makes, when that keeps what lies outside the
engine; and one lemma that takes a short command from its entry to its end. -/

namespace Sys2Proof.Machine

variable {s t u : State}

theorem engineStep_alive (h : Alive s) (t : State) : engineStep s t = .next (keepOutside s t) := by
  simp [engineStep, h.1, h.2]

/-- Every command but SYS_RESET_N and the TAP's is an engine step. -/
theorem exec_engineStep (c : Instr) (h : outsideEngine c = false) (s : State) : ∃ t, exec c s = engineStep s t := by
  cases c
  case sysResetN => cases h
  all_goals first | (cases h; done) | exact ⟨_, rfl⟩

/-- A register outside the event and log registers reads alike in states that agree beside commands. -/
theorem reg_of_beside (h : t.beside = s.beside) {off : Nat} (ho : isLogReg off = false) : reg t off = reg s off := by
  have hr : t.regs.filter (fun p => !isLogReg p.1) = s.regs.filter fun p => !isLogReg p.1 := congrArg State.regs h
  simp only [reg]
  rw [← tblGet_filter t.regs off _ (fun k => !isLogReg k) (by simp [ho]), ← tblGet_filter s.regs off _ (fun k => !isLogReg k) (by simp [ho]), hr]

/-- What lies outside the engine is the same in both states. -/
def sameOutside (s t : State) : Prop :=
  t.part = s.part ∧ t.refstrap = s.refstrap ∧ t.bscan = s.bscan ∧ t.jtag = s.jtag ∧ t.pending = s.pending

theorem keepOutside_same (h : sameOutside s t) : keepOutside s t = t := by
  obtain ⟨h1, h2, h3, h4, h5⟩ := h
  cases t
  simp_all [keepOutside]

theorem sameOutside_keep (s t : State) : sameOutside s (keepOutside s t) := ⟨rfl, rfl, rfl, rfl, rfl⟩

theorem sameOutside_of_beside (h : t.beside = u.beside) (k : sameOutside s u) : sameOutside s t := by
  obtain ⟨k1, k2, k3, k4, k5⟩ := k
  exact ⟨(congrArg State.part h :).trans k1, (congrArg State.refstrap h :).trans k2, (congrArg State.bscan h :).trans k3,
    (congrArg State.jtag h :).trans k4, (congrArg State.pending h :).trans k5⟩

theorem sameOutside_of_quiet (h : t.quiet = u.quiet) (k : sameOutside s u) : sameOutside s t :=
  sameOutside_of_beside (beside_of_quiet h) k

theorem sameOutside_refl (s : State) : sameOutside s s := ⟨rfl, rfl, rfl, rfl, rfl⟩

/-- A step of a working engine answers what its meaning makes. -/
theorem answers_intro {c : Instr} {p : State → Prop} (ha : Alive s) (he : exec c s = engineStep s t) (hs : sameOutside s t) (hp : p t) :
    Answers c s p :=
  ⟨t, by rw [he, engineStep_alive ha, keepOutside_same hs], hp⟩

theorem sameOutside_of_within {q : Nat} (h : Beside q s t) : sameOutside s t := sameOutside_of_beside h.1 (sameOutside_refl s)

/-- A short command that passes every check, and whose effect makes `v` before it ends, completes. -/
theorem answers_short {c : Instr} {p : State → Prop} {r op : Nat} {e : Entry} {k : CmdRow} (he : exec c s = engineStep s (submit r op e k s))
    (hg : Granted r op e k.homes s) (hb : k.bad (passEntry r s) = false) (hq : k.busy (passEntry r s) = none) (hz : k.zero = false)
    (hs : isLong op = false) (hl : opcodes.contains op = true)
    (hrun : ∀ u, Begun r op e (homeIn s op e (k.homes.headD 0)) s u → sameOutside s (k.run s.jr.next u) ∧ p (k.run s.jr.next u)) : Answers c s p := by
  obtain ⟨u, h1, h2⟩ := submit_short s hg hb hq hz hs hl
  obtain ⟨h3, h4⟩ := hrun u h2
  exact answers_intro hg.1 (h1 ▸ he) h3 h4

/-- A command with nothing to do completes at once (R259). -/
theorem answers_zero {c : Instr} {p : State → Prop} {r op : Nat} {e : Entry} {k : CmdRow} (he : exec c s = engineStep s (submit r op e k s))
    (hg : Granted r op e k.homes s) (hb : k.bad (passEntry r s) = false) (hq : k.busy (passEntry r s) = none) (hz : k.zero = true)
    (hrun : ∀ u, Begun r op e (homeIn s op e (k.homes.headD 0)) s u → sameOutside s (k.zrun s.jr.next u) ∧ p (k.zrun s.jr.next u)) : Answers c s p := by
  have hj := judge_none s hg hb hq
  obtain ⟨ha, hx, _, _, _, _, hf, _⟩ := granted_iff.1 hg
  have hbg := begun_accept s (op := op) (e := e) (homeIn s op e (k.homes.headD 0)) (engIdx s r) hx hf
  obtain ⟨h3, h4⟩ := hrun _ hbg
  refine answers_intro ha ?_ h3 h4
  rw [he]
  simp only [submit, hx, submitNow, hj, carryOut, hz, passEntry_jr, passEntry_homeIn, accept_homeIn, if_true]

/-- A long command that passes every check begins: ACCEPTED is told, and it is open (R246). -/
theorem answers_long {c : Instr} {p : State → Prop} {r op : Nat} {e : Entry} {k : CmdRow} (he : exec c s = engineStep s (submit r op e k s))
    (hg : Granted r op e k.homes s) (hb : k.bad (passEntry r s) = false) (hq : k.busy (passEntry r s) = none) (hz : k.zero = false)
    (hs : isLong op = true) (hl : opcodes.contains op = true)
    (hrun : ∀ u x0 x1, Beside (homeIn s op e (k.homes.headD 0)) s u → u.cmds = s.cmds ++ [newCmd r op (homeIn s op e (k.homes.headD 0)) e s] →
      Told r e.tag stAccepted false x0 x1 0 s u → sameOutside s (k.run s.jr.next u) ∧ p (k.run s.jr.next u)) : Answers c s p := by
  obtain ⟨u, x0, x1, h1, h2, h3, h4⟩ := submit_long s hg hb hq hz hs hl
  obtain ⟨h5, h6⟩ := hrun u x0 x1 h2 h3 h4
  exact answers_intro hg.1 (h1 ▸ he) h5 h6

/-- Ending a short command at once, with nothing done beside it. -/
theorem done_now {r op home : Nat} {e : Entry} (st : Nat) (x0 x1 x2 : W64) (h : Begun r op e home s u) (hf : freshSeq s = true) :
    sameOutside s (finishCmd s.jr.next st x0 x1 x2 u) ∧ Done r e.tag st x0 x1 x2 s (finishCmd s.jr.next st x0 x1 x2 u) ∧
      Beside home s (finishCmd s.jr.next st x0 x1 x2 u) := by
  have hb := beside_finish s st x0 x1 x2 hf h.beside
  exact ⟨sameOutside_of_within hb, done_finish s st x0 x1 x2 h hf rfl rfl (.refl u), hb⟩

end Sys2Proof.Machine
end

