-- ==== Sys2Proof/Laws/Sources.lean ====
section
/-! SUPPORT. Event bits (R232, R236): an event sets its bit, and no event or report clears one. -/

namespace Sys2Proof.Machine

variable (s : State)

theorem bit_eq_testBit (v i : Nat) : bit v i = v.testBit i := by
  simp only [bit, Nat.testBit_eq_decide_div_mod_eq]
  by_cases h : v / 2 ^ i % 2 = 1 <;> simp [h]

theorem bit_or (x y : W32) (i : Nat) : bit (x ||| y).toNat i = (bit x.toNat i || bit y.toNat i) := by
  simp [bit_eq_testBit]

theorem bit_pow {b : Nat} (h : b < 32) : bit (BitVec.ofNat 32 (2 ^ b)).toNat b = true := by
  rw [bit_eq_testBit]
  have : 2 ^ b < 2 ^ 32 := Nat.pow_lt_pow_right (by omega) h
  simp only [BitVec.toNat_ofNat, Nat.mod_eq_of_lt this, Nat.testBit_two_pow_self]

/-- Every bit set in a register of `s` is set in `t`. -/
def Rises (s t : State) : Prop := ∀ off b, bit (reg s off).toNat b = true → bit (reg t off).toNat b = true

theorem Rises.refl : Rises s s := fun _ _ h => h
theorem Rises.trans {s t u : State} (h : Rises s t) (k : Rises t u) : Rises s u := fun o b x => k o b (h o b x)
theorem Rises.of_eq {s t : State} (h : t.regs = s.regs) : Rises s t := fun o b x => by simpa [reg, h] using x

theorem rises_or (off : Nat) (v : W32) : Rises s (setReg off (reg s off ||| v) s) := by
  intro o b h
  by_cases ho : o = off
  · subst ho; rw [reg_setReg_same, bit_or, h]; rfl
  · rwa [reg_setReg_ne _ _ ho]

theorem ctrStep_regs (off : Nat) : (ctrStep off s).1.regs = s.regs := by
  simp only [ctrStep]; split <;> rfl

theorem rises_afterStep (again : Nat → State → State) (h : ∀ v t, Rises t (again v t)) (p : State × Bool) : Rises p.1 (afterStep again p) := by
  unfold afterStep
  split
  · dsimp only
    split
    · exact (rises_or _ _ _).trans (h _ _)
    · exact rises_or _ _ _
  · exact .refl _

theorem rises_signalVec (f v : Nat) : Rises s (signalVec f v s) := by
  induction f generalizing v s with
  | zero => exact .refl s
  | succ f ih =>
    have ha := fun p => rises_afterStep (signalVec f) (fun v t => ih t v) p
    have hm : ∀ off t, Rises t (afterStep (signalVec f) (ctrStep off t)) := fun off t => Rises.trans (.of_eq (ctrStep_regs t off)) (ha _)
    unfold signalVec
    dsimp only
    split
    · exact .refl s
    · split
      · exact hm _ _
      · have h1 : Rises s (if (vec s v).acc = 0 then s else afterStep (signalVec f) (ctrStep msixMergedOff s)) := by
          split
          · exact .refl s
          · exact hm _ _
        split
        · split
          · exact h1.trans (.of_eq (setVec_regs _ _ _))
          · exact (h1.trans (.of_eq (setVec_regs _ _ _))).trans ((Rises.of_eq (post_regs _ _)).trans (hm _ _))
        · exact h1.trans (.of_eq (setVec_regs _ _ _))

theorem rises_fire (n : Nat) : Rises s (fire n s) := by
  simp only [fire]; split
  · exact rises_signalVec s _ _
  · exact .refl s

theorem rises_traceAdd (flow : Bool) (e : W64) : Rises s (traceAdd flow e s) := by
  unfold traceAdd
  dsimp only
  split
  · exact ((Rises.of_eq (t := withTrace (traceWith flow e s.trace).1 s) rfl).trans (rises_or _ _ _)).trans (rises_fire _ _)
  · exact .of_eq rfl

/-- An event clears no bit of a register. -/
theorem rises_setSource (n : Nat) : Rises s (setSource n s) := by
  unfold setSource
  split
  · exact .refl s
  · split
    · split
      · exact .refl s
      · dsimp only
        split
        · exact ((rises_or _ _ _).trans (rises_fire _ _)).trans (rises_traceAdd _ _ _)
        · exact (rises_or _ _ _).trans (rises_fire _ _)
    · exact .refl s

theorem rises_count (off : Nat) : Rises s (count off s) := by
  unfold count
  dsimp only
  split
  · exact Rises.trans (.of_eq (ctrStep_regs s off)) (rises_setSource _ _)
  · exact .of_eq (ctrStep_regs s off)

/-- An event sets its bit (R232, R236). -/
theorem setSource_sets {n off b : Nat} (h : srcReg n = some (off, b)) (hd : srcDefined n = true) (hp : srcPresent s n = true) (hb : b < 32) :
    bit (reg (setSource n s) off).toNat b = true := by
  have hset : bit (reg (setReg off (reg s off ||| BitVec.ofNat 32 (2 ^ b)) s) off).toNat b = true := by
    rw [reg_setReg_same, bit_or, bit_pow hb, Bool.or_true]
  unfold setSource
  simp only [h, hd, hp, Bool.and_self, if_true]
  split
  · assumption
  · split
    · exact ((rises_fire _ _).trans (rises_traceAdd _ _ _)) _ _ hset
    · exact rises_fire _ _ _ _ hset

end Sys2Proof.Machine
end

