-- ==== Sys2Proof/Laws/Rings.lean ====
section
/-! SUPPORT. Ring contexts that a command or an entry does not touch stay as they are (R240, R243). -/

namespace Sys2Proof.Machine

/-- An entry posted to one ring leaves the others (R243). -/
theorem ring_postEntry_ne {s : State} {r k : Nat} (e : RingEntry) (h : k ≠ r) : ring? (postEntry r e s) k = ring? s k := by
  unfold postEntry
  split
  · rfl
  · split
    · unfold writeEntry; dsimp only; split <;> simp [ring?, setRing, tblFind_tblSet_ne _ _ h]
    · dsimp only; split <;> simp [ring?, setRing, tblFind_tblSet_ne _ _ h]

theorem ring_postCpl_ne {s : State} {r k : Nat} {tag : W32} {st : Nat} {f x0 x1 x2} (h : k ≠ pairOf s r) :
    ring? (postCpl r tag st f x0 x1 x2 s) k = ring? s k := by
  unfold postCpl
  split
  · rfl
  · rename_i x hx
    dsimp only
    split
    · exact ring_postEntry_ne _ (by simpa [pairOf, hx] using h)
    · rfl

theorem ring_finishCmd_ne {s : State} {o st k : Nat} {x0 x1 x2} {c : Cmd} (hc : cmd? s o = some c) (h : k ≠ pairOf s c.ring) :
    ring? (finishCmd o st x0 x1 x2 s) k = ring? s k := by
  simp only [finishCmd, hc]
  have he : ∀ u : State, ring? (endEvents st u) k = ring? u k := fun u => by simp [ring?]
  have hr : ∀ u : State, ring? (releaseCtx o u) k = ring? u k := fun u => by simp [ring?]
  have hf : ∀ u : State, ring? ({ u with cmds := u.cmds.filter fun x => x.origin != o } : State) k = ring? u k := fun _ => rfl
  have hj : ∀ (b : Bool) q, ring? (jcommit (.complete c.ring st c.tag x0 x1 x2 (some o) c.opcode) (if b then s else count (sqCtr c.home 5) s)) q = ring? s q :=
    fun b q => by cases b <;> simp [ring?]
  rw [he, hr, hf]
  split
  · exact hj _ _
  · rw [ring_postCpl_ne, hj]
    simpa only [pairOf, hj] using h

theorem ring_passEntry_ne {s : State} {r k : Nat} (h : k ≠ r) : ring? (passEntry r s) k = ring? s k := by
  unfold passEntry; split
  · rfl
  · exact ring_setRing_ne _ _ h

theorem ring_eq {s t : State} (h : t.rings = s.rings) : ring? t = ring? s := by funext k; simp [ring?, h]

/-- The end of a short command whose effect changed rings, but not its own (R246). -/
theorem done_ringed {s : State} {r op home : Nat} {e : Entry} {u v : State} (st : Nat) (x0 x1 x2 : W64) (h : Begun r op e home s u)
    (hf : freshSeq s = true) (hc : v.cmds = u.cmds) (hr : ∃ x c, ring? v r = some x ∧ ring? v x.pair = some c)
    (hs : Sends u v) : Done r e.tag st x0 x1 x2 s (finishCmd s.jr.next st x0 x1 x2 v) := by
  obtain ⟨x, c, h1, h2⟩ := hr
  have hk : cmd? v s.jr.next = some (newCmd r op home e s) := by
    have := h.found; simpa [cmd?, hc] using this
  have ht := told_finishCmd v st x0 x1 x2 hk rfl (x := x) (c := c) h1 h2
  refine ⟨Told.earlier ht.1 (h.sends.trans hs), ?_⟩
  rw [ht.2, hc, h.cmds, List.filter_append]
  have h3 : s.cmds.filter (fun y => y.origin != s.jr.next) = s.cmds := by
    rw [List.filter_eq_self]
    intro a ha
    exact List.all_eq_true.1 (freshSeq_cmds hf) a ha
  rw [h3]; simp [newCmd]

/-- The end of an accepted command touches its completion ring alone. -/
theorem ring_done {s u v : State} {r op home k : Nat} {e : Entry} {st : Nat} {x0 x1 x2 : W64} (h : Begun r op e home s u)
    (hc : v.cmds = u.cmds) (hk : k ≠ pairOf v r) : ring? (finishCmd s.jr.next st x0 x1 x2 v) k = ring? v k := by
  refine ring_finishCmd_ne (c := newCmd r op home e s) ?_ hk
  have := h.found
  simpa [cmd?, hc] using this

end Sys2Proof.Machine
end

