-- ==== Sys2Proof/Machine/Fec.lean ====
section
/-! DEFINITION. What a transmitted frame is on the line: header and message (R35), scrambler and RS(544,514) codeword (R34). `State.sent` lists
frames; `lineSymbols` gives the symbols that carry one. -/

namespace Sys2Proof.Machine

/-- TYPE and SEQ of a transmitted frame (R35). -/
def txType (f : TxFrame) : Nat := match f with | .idle _ => 0 | .sample _ _ => 1 | .control _ _ _ => 3 | .echo _ _ _ => 4
def txSeq (f : TxFrame) : Nat := match f with | .idle q => q | .sample q _ => q | .control q _ _ => q | .echo q _ _ => q

/-- The 640 payload bytes of a transmitted frame (R37, R123). -/
def txPayload (f : TxFrame) : List Byte :=
  match f with
  | .idle _ => padTo 640 []
  | .sample _ b => memTake b 0 640
  | .control _ _ b => memTake b 0 640
  | .echo _ t k => padTo 640 (leBytes 8 t ++ leBytes 2 k)

/-- The 20 header bits; the reserved bits and ATTN are written 0 (R35). -/
def txHeader (f : TxFrame) : Nat := txType f * 2 ^ 17 + txSeq f % 4096 * 2 ^ 5

/-- The 5,140 message bits as a number: header in bits 0 to 19, payload above it (R35). -/
def txMessage (f : TxFrame) : Nat := txHeader f + leVal (txPayload f) * 2 ^ 20

/-- Bits of a number, bit 0 first. -/
def bitsLE (n v : Nat) : List Bool :=
  match n with
  | 0 => []
  | k + 1 => (v % 2 == 1) :: bitsLE k (v / 2)

/-- The scrambler x^23 + x^18 + 1 from a register of 23 bits: each bit sent is the message bit plus the register's feedback (R34).
(DESIGN CHOICE: log entry 82.) -/
def scramble (r : Nat) (bs : List Bool) : List Bool :=
  match bs with
  | [] => []
  | b :: rest =>
    let k := bit r 22 != bit r 17
    (b != k) :: scramble (r * 2 % 2 ^ 23 + b2n k) rest

/-- Ten bits as a symbol, the first bit transmitted least significant. -/
def symbolOf (bs : List Bool) : Nat := bs.foldr (fun b v => 2 * v + b2n b) 0

/-- The bits in symbols of ten. -/
def symbolsOf (n : Nat) (bs : List Bool) : List Nat :=
  match n with
  | 0 => []
  | k + 1 => symbolOf (bs.take 10) :: symbolsOf k (bs.drop 10)

/-- A product in GF(2^10) with x^10 + x^3 + 1, the field of the IEEE 802.3 code (PRESUMED: log entry 82); `n` bits of `b` remain. -/
def gfMul (n a b : Nat) : Nat :=
  match n with
  | 0 => 0
  | k + 1 =>
    let rest := gfMul k (if bit a 9 then (a * 2 % 1024) ^^^ 9 else a * 2) (b / 2)
    if b % 2 = 1 then a ^^^ rest else rest

/-- α^i in the field. -/
def gfPow (i : Nat) : Nat := match i with | 0 => 1 | k + 1 => gfMul 10 (gfPow k) 2

/-- A polynomial, highest coefficient first, times x + c. -/
def polyMulLin (c : Nat) (p : List Nat) : List Nat :=
  (List.range (p.length + 1)).map fun i => p.getD i 0 ^^^ (if i = 0 then 0 else gfMul 10 c (p.getD (i - 1) 0))

/-- The generator polynomial: the product of x - α^i for i from 0 to 29 (PRESUMED: log entry 82). -/
def rsGen : List Nat := (List.range 30).foldl (fun p i => polyMulLin (gfPow i) p) [1]

/-- One message symbol enters the encoder: the 30 parity symbols, highest first. -/
def rsStep (g : List Nat) (par : List Nat) (m : Nat) : List Nat :=
  let k := m ^^^ par.headD 0
  (List.range 30).map fun i => par.getD (i + 1) 0 ^^^ gfMul 10 k (g.getD (i + 1) 0)

/-- The 30 parity symbols of 514 message symbols (R34). -/
def rsParity (ms : List Nat) : List Nat := ms.foldl (rsStep rsGen) (List.replicate 30 0)

/-- The 544 symbols of the codeword that carries a frame: the scrambled message and its parity (R34, R35). -/
def lineSymbols (f : TxFrame) : List Nat :=
  let ms := symbolsOf 514 (scramble (2 ^ 23 - 1) (bitsLE 5140 (txMessage f)))
  ms ++ rsParity ms

end Sys2Proof.Machine
end

