-- ==== Sys2Proof/Machine/Pins.lean ====
section
/-! DEFINITION. The pins: the ball map (R383 to R387), and what the engine's outputs show (R72, R389, R392 to R394). -/

namespace Sys2Proof.Machine

/-! ### Ball map -/

/-- A ball as row and column, each from 1 to 74 (R382). -/
abbrev Ball := Nat × Nat

/-- A leg of a serial link: transmitter or receiver, true or complement. -/
inductive Leg where
  | txp | txn | rxp | rxn
  deriving DecidableEq, Repr

/-- How far a leg's row of balls stands from the edge of the strip, from 0 on: 2, 3, 6, 7 (R383). -/
def legDepth (l : Leg) : Nat := match l with | .txp => 2 | .txn => 3 | .rxp => 6 | .rxn => 7

/-- The ball of a leg of lane n (R383). -/
def laneBall (n : Nat) (l : Leg) : Ball :=
  let d := legDepth l
  let a := 21 + n % 32
  match n / 32 with
  | 0 => (d, a)
  | 1 => (a, 75 - d)
  | 2 => (75 - d, a)
  | _ => (a, d)

/-- The ball of a leg of cascade lane Kj, and of PCLKn (R383). -/
def cascadeBall (j : Nat) (l : Leg) : Ball := (legDepth l, 2 + j)
def pclkBall (n : Nat) (complement : Bool) : Ball := (if complement then 3 else 2, 57 + n)

/-- The window of DRAM channel ch: first row, first column, width (R384). -/
def dramWindow (ch : Nat) : Nat × Nat × Nat :=
  [(11, 21, 20), (11, 41, 20), (21, 55, 10), (41, 55, 10), (55, 15, 20), (55, 35, 20), (15, 11, 10), (35, 11, 10)].getD ch (11, 21, 20)

/-- The ball at position p of a channel's window, and of signal slot k (R384). -/
def dramPos (ch p : Nat) : Ball := let w := dramWindow ch; (w.1 + p / w.2.2, w.2.1 + p % w.2.2)
def dramBall (ch k : Nat) : Ball := dramPos ch (k + k / 3)

/-- The signal of a slot (R384). -/
inductive DramSignal where
  | dq (b : Bool) (i : Nat)
  | cb (b : Bool) (i : Nat)
  | dqs (b : Bool) (i : Nat) (complement : Bool)
  | dca (b : Bool) (i : Nat)
  | dpar (b : Bool)
  | dcsN (b : Bool) (i : Nat)
  | dck (b : Bool) (complement : Bool)
  | drstN | dalertN | hscl | hsda | vss
  deriving DecidableEq, Repr

/-- The signal of slot k; `b` tells subchannel B from A (R384). -/
def dramSignal (k : Nat) : DramSignal :=
  let b := decide (72 ≤ k)
  let j := k % 72
  if 144 ≤ k then [.drstN, .dalertN, .hscl, .hsda].getD (k - 144) .vss
  else if j < 32 then .dq b j
  else if j < 40 then .cb b (j - 32)
  else if j < 60 then .dqs b ((j - 40) / 2) (j % 2 == 1)
  else if j < 67 then .dca b (j - 60)
  else if j = 67 then .dpar b
  else if j < 70 then .dcsN b (j - 68)
  else .dck b (j == 71)

/-- The ball of a leg of PCIe lane j (R385). -/
def pcieBall (j : Nat) (l : Leg) : Ball := ((match l with | .txp => 26 | .txn => 27 | .rxp => 30 | .rxn => 31), 24 + 2 * j)

/-- The other balls of R385 and those of R386, in the order of its table read down the left columns and then the right ones. -/
def otherBalls : List (String × Ball) :=
  [("PCIE_REFCLK_P", 33, 24), ("PCIE_REFCLK_N", 33, 25), ("PERST_N", 33, 27), ("REFCLK_P", 62, 70), ("REFCLK_N", 62, 71), ("SYNC_IN_P", 64, 70),
   ("SYNC_IN_N", 64, 71), ("SYNC_OUT_P", 64, 72), ("SYNC_OUT_N", 64, 73), ("TRIG_OUT_P", 66, 70), ("TRIG_OUT_N", 66, 71)] ++
  [("TRIG_IN0_P", 68, 70), ("TRIG_IN0_N", 68, 71), ("TRIG_IN1_P", 68, 72), ("TRIG_IN1_N", 68, 73), ("TRIG_IN2_P", 70, 70), ("TRIG_IN2_N", 70, 71),
   ("TRIG_IN3_P", 70, 72), ("TRIG_IN3_N", 70, 73), ("OBS0_P", 72, 70), ("OBS0_N", 72, 71), ("OBS1_P", 72, 72), ("OBS1_N", 72, 73)] ++
  [("SD_RCAL0", 65, 2), ("SD_RCAL1", 65, 4), ("SD_RCAL2", 65, 6), ("SD_RCAL3", 65, 8), ("QSPI_SCK", 67, 2), ("QSPI_CS_N", 67, 4),
   ("QSPI_IO0", 67, 6), ("QSPI_IO1", 67, 8), ("QSPI_IO2", 67, 10), ("QSPI_IO3", 67, 12)] ++
  [("TCK", 69, 2), ("TMS", 69, 4), ("TDI", 69, 6), ("TDO", 69, 8), ("TRST_N", 69, 10), ("SYS_RESET_N", 71, 2), ("WARM_RESET_N", 71, 4),
   ("THERM_TRIP_N", 71, 6), ("ALERT_N", 71, 8), ("REFSEL0", 71, 10), ("REFSEL1", 71, 12), ("BSCAN_EN", 73, 2), ("TDIODE_P", 73, 4),
   ("TDIODE_N", 73, 6), ("DDR_ZQ0", 65, 10), ("DDR_ZQ1", 65, 12), ("DDR_ZQ2", 65, 14), ("DDR_ZQ3", 65, 16)]

/-- A supply rail (R396), or ground. -/
inductive Rail where
  | core | sram | sdA | sdH | ddr | pcie | pll | io | vss
  deriving DecidableEq, Repr

/-- n lies in [a, b]. -/
def within (a b n : Nat) : Bool := decide (a ≤ n) && decide (n ≤ b)

/-- The position of a ball in some channel's window (R384). -/
def dramAt (x : Ball) : Option (Nat × Nat) :=
  (List.range 8).findSome? fun ch =>
    let w := dramWindow ch
    let p := (x.1 - w.1) * w.2.2 + (x.2 - w.2.1)
    if w.1 ≤ x.1 ∧ w.2.1 ≤ x.2 ∧ x.2 < w.2.1 + w.2.2 ∧ p < 200 then some (ch, p) else none

/-- The supply of a ball that carries no signal (R384, R385, R387). -/
def railAt (x : Ball) : Rail :=
  let r := x.1
  let c := x.2
  let strip (a b : Nat) : Bool := ((r == a || r == b) && within 21 52 c) || ((c == a || c == b) && within 21 52 r)
  match dramAt x with
  | some (_, p) => if p % 8 = 7 then .ddr else .vss
  | none =>
    if within 34 54 r && within 21 54 c && (r + c) % 3 != 0 then .core
    else if within 21 25 r && within 21 54 c && (r + c) % 2 == 0 then .sram
    else if strip 9 66 then .sdA
    else if strip 10 65 then .sdH
    else if (r == 28 || r == 29) && within 24 54 c then .pcie
    else if r == 60 && within 66 73 c then .pll
    else if (r == 68 || r == 70) && within 2 16 c && c % 2 == 0 then .io
    else .vss

/-! ### Outputs -/

/-- The levels of THERM_TRIP_N and ALERT_N (R392). (DESIGN CHOICE: log entry 79.) -/
def thermTripN (s : State) : Bool := !tripped s
def alertN (s : State) : Bool := !(warnOn s || tripped s || s.seqs.any fun p => p.2.state == .stopped)

/-- Whether PCLK k runs: enabled as its output follows PCLKCTL, and not in INITIAL. (DESIGN CHOICE: log entry 79.) -/
def pclkRuns (s : State) (k : Nat) : Bool := decide (k < 4 * quads s) && bit s.tb.pclk k && tbState s != tbInitial

/-- The level of PCLKk at the first tick of the slice: rising edges at multiples of 128, both legs low when it does not run (R72). -/
def pclkLevel (s : State) (k : Nat) : Bool := pclkRuns s k && decide (s.tb.tick % 128 < 64)

/-- TRIG_OUT and SYNC_OUT are driven low in the WARM_RESET_N sequence, in PS3 and while tripped (R393). -/
def drivenLow (s : State) : Bool := s.pwr.warm || pwrState s == 3 || tripped s
def trigOutLevel (s : State) : Bool := s.au.trigOut && !drivenLow s
def syncOutLevel (s : State) : Bool := syncOutPin s && !drivenLow s

/-- A link's transmitter is in electrical idle (R44, R393). -/
def electricalIdle (s : State) (n : Nat) : Bool := drivenLow s || !transmits s n

/-- The engine releases the sideband bus of a channel that is UNPOP (R394). -/
def sidebandReleased (s : State) (ch : Nat) : Bool := chState s ch == 0

/-- An observation port is idle: switched off, or in the WARM_RESET_N sequence (R393). -/
def obsIdle (s : State) (port : Nat) : Bool := s.pwr.warm || rf s 0xC port port == 0

end Sys2Proof.Machine
end

