-- ==== Sys2Proof/Tests/Slice0.lean ====
section
/-! SUPPORT. Own tests: what the checks of WellFormed refuse, decoding, and, for every statement, states and operands that meet its
hypotheses. Each is about one step, or about none. -/

namespace Sys2Proof.Tests

set_option Elab.async false

open Sys2Proof Sys2Proof.Machine

/-! ### Small states -/

/-- A submission entry with P0 to P3 and the flags. -/
def entry (p0 p1 p2 p3 : W64) (flags : BitVec 8 := 0) : Entry :=
  { flags := flags, rsvd := 0, tag := 0x77, p0 := p0, p1 := p1, p2 := p2, p3 := p3, p4 := 0, p5 := 0, p6 := 0 }

/-- A state with some registers set. -/
def withRegs (l : List (Nat × W32)) (s : State) : State := l.foldl (fun z p => setReg p.1 p.2 z) s

/-- Out of reset with a boot image, the link up, one submission ring (0) with an entry waiting, its completion ring (1), a stream ring (2) and
the dispatch entries `ops` valid. -/
def ready (ops : List Nat) : State :=
  withRegs [(0x4001C, 0x14000000), (0x18004, 0x90000000)]
  { State.reset with
    stores := { State.reset.stores with base := some Image.empty, disp := ops.map fun i => (i, BitVec.ofNat 32 (2 ^ 31 + 2 ^ 22 * if isJob i then 28 else homeOf i)), oaEntry := [(3, 0x3005)] },
    pcie := { Pcie.reset with ready := true, bme := true, memSpace := true },
    rings := [(0, { newRing .sub 0x10000 16 1 0 false with host := 3, got := 3 }), (1, newRing .cmp 0x20000 16 0 0 true), (2, newRing .str 0x30000 16 0 0 false)] }

/-- An open command. -/
def openCmd (op tag o home : Nat) : Cmd :=
  { ring := 0, opcode := op, tag := BitVec.ofNat 32 tag, origin := o, c0 := 1, c1 := 2, c2 := 3, abort := false, home := home, lost := false }

/-- `ready` with the dispatch entries of all commands, and of one open-area command. -/
def up : State :=
  ready [opNop, opIdentify, opInventory, opPopulationSet, opDramTrain, opLaneSet, opLinkTrain, opTimebaseSet, opConjunction,
    opTimebaseRealign, opPlanLoad, opPlanAdmit, opPlanRelease, opArm, opForceTrigger, opStop, opDisarm, opStreamOpen,
    opStreamClose, opJobSearch, opJobExtract, opJobCompress, opJobDecompress, opJobVerify, opMarchRun, opScrubSet,
    opCounterSnapshot, opTraceSet, opPowerState, opThermalProfile, opPatchLoad, opCustodyGrant, opCustodyRelease,
    opRingCreate, opRingDestroy, opRingResume, 0x203]

/-- `up` with open commands. -/
def busy (cs : List Cmd) : State := { up with cmds := cs }




/-- A byte string from fields (offset, size, value). -/
def image (len : Nat) (fs : List (Nat × Nat × Nat)) : Image := { len := len, bytes := fs.foldl (fun m f => memPut m f.1 (leBytes f.2.1 f.2.2)) [] }

/-- The sections of a small plan: (type, offset, size). -/
def sections : List (Nat × Nat × Nat) :=
  [(1, 256, 528), (2, 0x1000, 262144), (3, 0x42000, 32768), (4, 0x4A000, 67584), (5, 0x5A800, 1552), (6, 0x5B000, 16384), (7, 0x5F000, 16448),
   (8, 0x64000, 262144), (9, 0xA4000, 16), (10, 0xA4040, 16)]

/-- Offset of a section. -/
def sec (t : Nat) : Nat := (sections.getD (t - 1) (0, 0, 0)).2.1

/-- A plan with lane 0 in use, stream 0 DENSE over it, a tally of threshold 5, and a few orbit slots. -/
def plan1 : Image :=
  image 0xA5000 ([(0, 8, 0x4E414C50424D454C), (8, 2, 1), (10, 2, 10), (16, 4, 0xA5000), (20, 4, 0x1234)] ++
    ((List.range 10).flatMap fun i =>
      let d := sections.getD i (0, 0, 0)
      [(64 + 16 * i, 2, d.1), (66 + 16 * i, 2, 1), (68 + 16 * i, 4, d.2.1), (72 + 16 * i, 4, d.2.2)]) ++
    [(sec 1, 4, 6000), (sec 1 + 16, 1, 1), (sec 4, 4, 0x45), (sec 5 + 1536, 4, 4096), (sec 5, 4, 0x3000), (sec 5 + 8, 8, 2 ^ 64 - 1), (sec 5 + 16, 8, 5),
     (sec 5 + 1024, 4, 0x10), (sec 7 + 64, 1, 1), (sec 7 + 65, 1, 16), (sec 7 + 66, 1, 1), (sec 7 + 72, 8, 0x10000), (sec 7 + 80, 8, 0x10000),
     (sec 7 + 88, 4, 4096), (sec 10, 2, 100), (sec 10 + 2, 2, 200), (sec 10 + 4, 4, 5),
     (sec 8, 2, 0x5000), (sec 8 + 2, 2, 0x2001), (sec 8 + 4, 2, 0x3005), (sec 8 + 6, 2, 0x4006), (sec 8 + 8, 2, 0x1000)])

/-- `s` with the small plan active. -/
def planned (s : State) : State := { s with plans := { s.plans with active := some plan1 } }

/-- Every channel READY with a population. -/
def withDram (s : State) : State :=
  withRegs ((List.range 8).flatMap fun ch => [(chBase ch, 0x1C200202), (chBase ch + 4, 0x30000000)])
    { s with dram := { s.dram with times := { PopTimes.reset with tRFC1 := 410000, tRFCsb := 160000, tDRFMsb := 200000 } } }

/-- `s` at a tick and an elapsed time in ticks. -/
def clock (tick time : Nat) (s : State) : State := { s with tb := { s.tb with tick := tick, time := time } }

/-- The host holds custody of every class, and both masters have a class armed. -/
def keyed (c : GwClass) (s : State) : State := withRegs [(0x14, 0x801F0000)] { s with guard := { s.guard with hostArm := some c, csqArm := some c } }

/-- A lane enabled, in a state, with its settings. -/
def inLane (n st : Nat) (f : LaneSt → LaneSt) (s : State) : State :=
  let s1 := setLaneState n st 0 (withRegs [(laneBase n, 0x1000), (laneBase n + 4, 0xFC800000), (laneBase n + 8, 1)] s)
  setLane n (f (lane s1 n)) s1

/-- A received frame of a TYPE and SEQ. -/
def frame_ (ty seq : Nat) (pay : Mem) : RxFrame := { hdr := BitVec.ofNat 20 (ty * 2 ^ 17 + seq * 32), payload := pay, wrong := 0 }

/-- Lanes in a state. -/
def inLanes (l : List Nat) (st : Nat) (s : State) : State := l.foldl (fun z n => inLane n st id z) s

/-- The timebase in a state. -/
def inTb (st : Nat) (wait : Bool) (s : State) : State := setWaitHost wait (setTbState st s)

/-- A microword from fields (place, value), and a sequencer in a command at an address. -/
def word (fs : List (Nat × Nat)) : BitVec 144 := sealWord (fs.foldl (fun a f => a + f.2 * 2 ^ f.1) 0)
def running (p : Nat) : Seqr :=
  { Seqr.reset with state := .run, pc := p, ctxs := [{ Ctx.reset with origin := some 9 }, Ctx.reset, Ctx.reset, Ctx.reset], stack := [0x3005#64],
                    w := (List.range 32).map fun i => BitVec.ofNat 64 (100 + i), lc := [1, 2, 3, 4] }
def seqS (q : Nat) (x : Seqr) (ws : List (Nat × BitVec 144)) : State :=
  let s := busy [openCmd opNop 0x99 9 q]
  { s with seqs := [(q, x)], stores := { s.stores with words := ws.map fun p => (16384 * q + p.1, p.2) } }

/-- A home bank owned by its sequencer. -/
def ownHome (q : Nat) (s : State) : State := withRegs [(ownOff (seqBank q), BitVec.ofNat 32 (17 * seqMaster q))] s

/-- Every bank with an owner and a guest. -/
def ownBanks (owner guest : Nat) (s : State) : State :=
  withRegs ((List.range 12).map fun k => (ownOff k, BitVec.ofNat 32 (17 * owner + 4096 * guest))) s

/-- A capture that waits or runs, with stream 0 active. -/
def inCap (st : CapState) (tick : Nat) (last : Option Nat) (segs : List Seg) (e : Option (Nat × EndReason)) (f : Stream → Stream) (s : State) : State :=
  let z := planned (clock tick (tick + 7) s)
  { z with cap := { z.cap with state := st, origin := 9, ring := 0, tag := 5, t0 := 4096, endAt := e, segs := segs, begun := 1 },
           au := { z.au with lastSlice := last }, streams := [(0, f (freshStream plan1 0 4096))],
           cmds := [openCmd opArm 0x99 9 0] }

/-- A subchannel in an orbit (1 normal, 2 hot, 0 idle), at a slot. -/
def inOrbit (o slot : Nat) (f : SubCh → SubCh) (s : State) : State :=
  let s1 := setOrb 0 o s
  setSub 0 { f (sub s1 0) with slots := slot } s1

/-- A request for DRAM. -/
def req (a arr : Nat) (write : Bool) : DReq :=
  { arr := arr, addr := a, cls := 3, at_ := 5, promoted := false, data := if write then some (List.replicate 64 7#8) else none,
    by_ := if write then .job else .part 0 }

/-- A read of granule 0 for the aperture, with some granules left. -/
def apReading (left : Nat) : State :=
  let s := inOrbit 0 0 (fun x => { x with reqs := [req 0 1 false] }) (withDram up)
  { s with dram := { s.dram with reads := [{ id := 0, grans := [0], left := left, got := [], bad := [], by_ := .aperture 0 64 }] } }

/-- A job. -/
def job (k : JobKind) (p : List W64) (todo : List RecMeta) : Job :=
  { origin := 9, kind := k, quad := 0, running := true, p := p, unlim := false, pred := image 128 [(0, 2, 1), (2, 1, 1), (64, 1, 1), (66, 1, 2), (72, 8, 5)],
    plan := plan1, todo := todo, pos := 0, done := 0, count := 0, published := 0, batch := [], batchAt := 0, lastTs := 0, crc := 0, wrote := 0,
    inbuf := none, inbad := [], waiting := false }
def recAt (a seq : Nat) : RecMeta := { addr := a, len := 1, seq := seq, rtype := 1, ts := 500, last := 600, segno := 0, coma := false, gone := false, head := [] }

/-- A march in progress. -/
def marching_ (todo : List (Nat × Nat)) (destructive : Bool) (n : Nat) (s : State) : State :=
  withRegs [(0x60100, 0x80000000), (ownOff 0, 0x000400CC), (ownOff 5, 0x0001B0CC)]
    { s with
      banks := { s.banks with
        march := some {
          origin := 9, destructive := destructive, mask := 0x21, first := 256, count := 256, todo := todo,
          tries := [(0, n), (1024 * 5 + 2, 3)], failBanks := 0, firstFail := none, aborts := 4 } } }

/-- Stream 4 bound to ring 2, with a committed record, one that is gone, or none. -/
def delivering (recs : List RecMeta) (through : Nat) (live : Bool) (ready : Option (List Byte)) (reading : Bool) : State :=
  { up with
    rings := tblSet up.rings 2 { newRing .str 0x30000 16 0 0 true with
      bound := some { stream := 4, buf := 0x100000, size := 0x1000, nextSeq := 5, off := 0xFC0, held := [], live := live, reading := reading, ready := ready } },
    cap := { Cap.reset with state := .ended, anyBegun := true },
    streams := [(4, { Stream.reset with recs := recs, commit := some { segno := 0, seq := some (through - 1), next := through, through := through } })] }

/-- Every ring halted. -/
def halted (s : State) : State := { s with rings := s.rings.map fun p => (p.1, { p.2 with halted := some .busMasterOff }) }

/-- The administration rings set up in their registers, and not created. -/
def admin (attr : W32) : State :=
  withRegs [(0x180000, 0x1000), (0x180004, 2), (0x180008, 0x2000), (0x18000C, 3), (0x180010, attr)] { up with rings := [] }

/-- A population image. -/
def population : Image := image 128 [(0, 2, 7200), (2, 1, 1), (3, 1, 2), (4, 1, 1), (7, 1, 8), (8, 4, 1), (12, 2, 10), (14, 2, 50)]

/-- The DRAM declared and not trained. -/
def untrained : State := withRegs ((List.range 8).map fun ch => (chBase ch + 4, 0x10000000)) up

/-- Traps pending at a trap-safe point. -/
def trapping (q : Nat) (l : List (TrapCause × Nat)) : State :=
  ownHome q (seqS q { running 7 with pendTrap := l, tsafe := true } [])

/-- A short command that waits for the preemption handler. -/
def preempting : State :=
  let s := trapping 4 [(.preempt, 11)]
  setSq 4 { sq s 4 with queue := [{ origin := 11, entryPc := 0, opword := 0, params := [], kind := .preempt }] }
    { s with cmds := [openCmd opNop 0x99 9 4, openCmd opThermalProfile 0x9A 11 4] }

/-- A watchdog of 50 cycles and a sequencer that has run for some ticks. -/
def watched (t : Nat) (hit : Bool) : State :=
  let s := clock t t (seqS 4 { running 7 with wdogHit := hit } [])
  { s with stores := { s.stores with base := some (image 2070624 [(24, 4, 50)]) } }

/-- A LINK_TRAIN under way. -/
def inTrain (waves : List (List Nat)) (cur : List Nat) (st : Nat) : State :=
  { inLanes cur st (busy [openCmd opLinkTrain 0x99 9 4]) with train := some { origin := 9, waves := waves, cur := cur, failed := [] } }

/-- The fabric PLLs. -/
def plls (stat : W32) (auto : W32) (lost : Option Nat) (tick : Nat) : State :=
  let s := clock tick tick (withRegs [(0x40044, stat), (0x40040, auto)] (inTb tbLocked false up))
  { s with tb := { s.tb with fabLost := lost } }

/-- A CONJUNCTION under way. -/
def inConj (p n : Nat) (ph : ConjPhase) (time : Nat) : State :=
  let s := clock 50 time (busy [openCmd opConjunction 0x99 9 0])
  { s with tb := { s.tb with conj := some { p := p, n := n, conjT := 1000000, origin := 9, start := 0, phase := ph, commits := 0, echoes := false, hopAt := none } } }

/-- A CONJUNCTION in its hop. -/
def hopping (p n time : Nat) : State :=
  let s := inConj p n .aligned time
  { s with tb := { s.tb with conj := s.tb.conj.map fun c => { c with echoes := true, hopAt := some 0 } } }

/-- A capture with a cascade entry received. -/
def receiving (v : Nat) (seen : List CasEvent) : State :=
  let s := inCap .running 6000 (some 5984) [] none id up
  { s with au := { Autos.reset with lastSlice := some 5984, rxq := [v], seen := seen } }

/-- A step ordered. -/
def stepping (tick : Nat) : State :=
  let s := clock tick 500000 (inTb tbEclipse true (busy [openCmd opTimebaseRealign 0x99 9 0]))
  { s with tb := { s.tb with order := some { origin := 9, accepted := 4000, ds := 32, r16 := 5, rate := 3, delta16 := 517 } } }

/-- A capture with samples of lane 0. -/
def sampled (tick last : Nat) (segs : List Seg) (l : List Smp) (f : Stream → Stream) : State :=
  let s := inCap .running tick (some last) segs none f up
  setLane 0 { lane s 0 with samples := l, placed := true } (setReg (laneBase 0 + 8) 1 s)

/-- `s` with 100,000 ticks of coma. -/
def deep (s : State) : State :=
  { s with plans := { s.plans with active := s.plans.active.map fun m => { m with bytes := memPut m.bytes (sec 7) (leBytes 8 100000) } } }

/-- Jobs of quadrant 0. -/
def inJobs (js : List Job) (bme : Bool) : State :=
  { planned (clock 0 (10 ^ 8) (busy [openCmd opJobSearch 0x99 9 9])) with jobs := js, pcie := { up.pcie with bme := bme } }

/-- A march under way for its command. -/
def inMarch (todo : List (Nat × Nat)) (destructive : Bool) (n : Nat) : State := marching_ todo destructive n (busy [openCmd opMarchRun 0x99 9 3])

/-- A power transition of lane 0. -/
def inPower (st target : Nat) : State := 
  { inLane 0 st id (busy [openCmd opPowerState 0x99 9 1]) with pwr := { up.pwr with orders := [(9, target)] } }

/-- A read of host memory under way for a ring. -/
def fetching_ (tag ring len : Nat) : HRead := { tag := tag, addr := 0x10000, len := len, at_ := 5, data := [], by_ := .fetch ring }

/-- Vector 0 with a message that is due, and vector 1 with one that is pending. -/
def vectors : State :=
  let s := clock 0 (10 ^ 9) (withRegs [(0x10000, 0x80000000), (0x14000, 0x00040100)] up)
  { s with
    pcie := { s.pcie with
      msixEn := true, vecs := [(0, { Vec.reset with masked := false, acc := 3, first := 5 }), (1, { Vec.reset with masked := true, pend := true })] } }

/-- Sensor 3 at 106 °C and others. -/
def hotSensor (v : W32) : State := withRegs [(0x50100 + 12, v)] up

/-! ### Transfers from host memory -/

/-- The first transfer for an operation, and the read that brings its last bytes. -/
def arrival (s : State) (tag : Nat) (w : XferFor) : Option (HRead × Xfer) :=
  (readOf s tag).bind fun x => (s.pcie.xfers.find? fun z => z.whose == w).map fun y => (x, y)

/-- The bytes of a transfer that the completion `tag` ends. -/
def arrived (s : State) (tag : Nat) (bs : List Byte) (w : XferFor) : Image :=
  match arrival s tag w with
  | some (x, y) => { len := y.len, bytes := memPut y.got (x.addr - y.addr) ((x.data ++ bs).take x.len) }
  | none => Image.empty

/-- The state without that read and that transfer. -/
def afterArrival (s : State) (tag : Nat) (w : XferFor) : State :=
  { dropRead tag s with pcie := { (dropRead tag s).pcie with xfers := s.pcie.xfers.filter fun z => z.whose != w } }

/-- A transfer of `len` bytes for a submission entry, of which the bytes in `m` have arrived and the last `n` are on their way under tag 5. -/
def moving (op : Nat) (e : Entry) (len n : Nat) (m : Mem) (s : State) : State :=
  let w := XferFor.cmd 0 op e
  { s with pcie := { s.pcie with
      xfers := [{ whose := w, addr := pn e.p0, len := len, got := m }],
      reads := [{ tag := 5, addr := pn e.p0 + (len - n), len := n, at_ := 0, data := [], by_ := .xfer w }] } }

/-- `s` booted with a public key. -/
def withKey (x y : Nat) (s : State) : State := { s with stores := { s.stores with base := some (image 2070624 [(32, 48, x), (80, 48, y)]) } }

/-- A custody grant of class CLK for serial number 1 and nonce 0x11, its signature, and an engine whose key verifies it. -/
def grant : Image :=
  image 128 [(0, 8, grantMagic), (8, 8, 1), (16, 8, 0x11), (24, 1, 1),
    (32, 48, 0x954245fb7008fe9009bace2a760c87acfe485baf5e5e2f8bf251bee93c95c0e211d54bfb01a688ff49af201fcc47c473),
    (80, 48, 0x954245fb7008fe9009bace2a760c87acfe485baf5e5e2f8bf251bee93c95c0e211d54bfb01a688ff49af201fcc47c473)]
def granting : State :=
  withKey
    0xbb329db45e0a093c389ab4d732440fc8cbd12f1f968ac54869d3ff8953e3bf20094029ae854e4dd5024f053660c5a85a
    0x7a031559746fccd996da7ecfa278197737930ae49aba638c990d7e493d8df2cdd1dddf958bceed470b2e1a113e2f2a00
    (withRegs [(0x20, 0x11)] { up with pcie := { up.pcie with serial := 1 } })

/-- A vendor patch of one dispatch entry, and an engine whose key verifies it. -/
def vendor : Image :=
  image 184 [(0, 8, patchMagic), (8, 1, 1), (14, 2, 1), (16, 4, 1), (20, 4, 184), (64, 1, 7), (66, 2, 1), (68, 4, 0x80000000),
    (88, 48, 0x5c60bb91205fe5fbd685af517475d4023df31c97b1ba997b41220c3adf28df32792586e6be945627b4a19bdf61d7be1),
    (136, 48, 0x5c60bb91205fe5fbd685af517475d4023df31c97b1ba997b41220c3adf28df32792586e6be945627b4a19bdf61d7be1)]
def patching : State :=
  withKey
    0x69a155e9eee00082213ea436604abf1a48912ffc6b1449416da45d6f9ddb3297139c5ad404b2d61c94c5a3df0ae585d
    0x90e307491c026fbf2d20297aee43700e38a92e994f9b91202e066ddfeb390d71ca2fa2a71be208ea650b7434f0af4bd8
    up

/-- A state after a capture, and the parameters of a search. -/
def hadCapture : State := planned { up with cap := { up.cap with state := .ended, anyBegun := true } }
def searching : Entry := { entry 0x1000 128 0 0 with p4 := 100000, p5 := 0x4000, p6 := 0x4000000010 }

/-! ### What the checks of WellFormed refuse -/

theorem test_wf_ring : Instr.wf (.nop 65536 (entry 0 0 0 0)) = false := by decide
theorem test_wf_ring_last : Instr.wf (.nop 65535 (entry 0 0 0 0)) = true := by decide
theorem test_wf_image_beyond_length :
    Instr.wf (.sysResetN 0 false { slotA := { len := 1, bytes := [(1, 5)] }, slotB := Image.empty } 0) = false := by decide
theorem test_wf_image_not_canonical :
    Instr.wf (.sysResetN 0 false { slotA := { len := 9, bytes := [(1, 0)] }, slotB := Image.empty } 0) = false := by decide
theorem test_wf_completion_tag : Instr.wf (.completion 1024 [] false) = false := by decide
theorem test_wf_frame_payload : Instr.wf (.idleFrame 0 (frame_ 0 0 [(640, 1)])) = false := by decide
theorem test_wf_frame_symbols : Instr.wf (.idleFrame 0 { frame_ 0 0 [] with wrong := 545 }) = false := by decide
theorem test_wf_lane : Instr.wf (.lossOfLock 132) = false := by decide
theorem test_wf_lane_k3 : Instr.wf (.lossOfLock 131) = true := by decide
theorem test_wf_subchannel : Instr.wf (.ref 16) = false := by decide
theorem test_wf_channel : Instr.wf (.dcommit .host 8 1) = false := by decide
theorem test_wf_bank : Instr.wf (.handover 12) = false := by decide
theorem test_wf_bank_word : Instr.wf (.correctedWriteBack 0 262144) = false := by decide
theorem test_wf_sequencer : Instr.wf (.cmt 28) = false := by decide
theorem test_wf_cause : Instr.wf (.machineCheck 0 256) = false := by decide
theorem test_wf_user : Instr.wf (.bankRead (.codec 4) 0 0 .good) = false := by decide
theorem test_wf_offset_unaligned : Instr.wf (.rcRead 2) = false := by decide
theorem test_wf_offset_range : Instr.wf (.registerWrite (2 ^ 26) 4 15 0 false) = false := by decide
theorem test_wf_march_fail : Instr.wf (.marchTestEnd [{ bank := 12, word := 0 }]) = false := by decide
theorem test_wf_march_word : Instr.wf (.marchSlice [] (some (256, 0))) = false := by decide
theorem test_wf_tag : Instr.wf (.quarantineEnd 1024) = false := by decide
theorem test_wf_cluster : Instr.wf (.settingsWordCheck (.cluster 16) 0 .good) = false := by decide
theorem test_wf_automaton : Instr.wf (.settingsWordCheck (.automaton 8) 0 .good) = false := by decide
theorem test_wf_settings_offset : Instr.wf (.settingsWordCheck (.cluster 0) 65536 .good) = false := by decide
theorem test_wf_tick : Instr.wf (.sampleLeavesDelayLine 0 0 (2 ^ 64) none) = false := by decide
theorem test_wf_stream : Instr.wf (.writerOverrunResume 256) = false := by decide
theorem test_wf_lane_index : Instr.wf (.sampleLeavesDelayLine 0 8 0 none) = false := by decide
theorem test_wf_view : Instr.wf (.scratchBankViewAccess (.read (2 ^ 25) 1)) = false := by decide
theorem test_wf_aperture : Instr.wf (.dramApertureRead (2 ^ 23) 4) = false := by decide
theorem test_wf_bar0_read : Instr.wf (.reservedOffsetRead (2 ^ 26) 4) = false := by decide
theorem test_wf_config_offset : Instr.wf (.configurationRequest (.read 4096)) = false := by decide
theorem test_wf_config_timeout : Instr.wf (.configurationRequest (.cplTimeout 16)) = false := by decide
theorem test_wf_config_vector : Instr.wf (.configurationRequest (.vectorEntry 2048 0 0)) = false := by decide
theorem test_wf_config_bar : Instr.wf (.configurationRequest (.bar 6 0)) = false := by decide
theorem test_wf_config_table : Instr.wf (.configurationRequest (.tableRead 65536)) = false := by decide
theorem test_wf_source : Instr.wf (.sourceFire 1792) = false := by decide
theorem test_wf_vector : Instr.wf (.msiXUnmask (some 2048)) = false := by decide
theorem test_wf_sensor : Instr.wf (.sensorConversion 24 none) = false := by decide
theorem test_wf_quadrant : Instr.wf (.jobTurn 4 false) = false := by decide
theorem test_wf_tally : Instr.wf (.tallyCompletion 0 4) = false := by decide
theorem test_wf_timer : Instr.wf (.timerExpiry 32) = false := by decide
theorem test_wf_line_flip : Instr.wf (.sliceEvaluation [] [{ quad := 0, i := 0, line := 2708 }]) = false := by decide
theorem test_wf_trig_lines : Instr.wf (.sliceEvaluation [0, 0, 0, 0, 0] []) = false := by decide
theorem test_wf_cascade_hop : Instr.wf (.cascadeHop 0 16 0) = false := by decide
theorem test_wf_conjunction_cause : Instr.wf (.conjunctionTimeout 0) = false := by decide
theorem test_wf_link_width : Instr.wf (.linkchg 0 32 false) = false := by decide
theorem test_wf_store_word : Instr.wf (.controlStoreWordWrite .host 0 16384 0) = false := by decide
theorem test_wf_aer_bit : Instr.wf (.aerError .correctable 32) = false := by decide
theorem test_wf_observation_port : Instr.wf (.obsFrameSend 2) = false := by decide

/-- No word spells a command: the table gives no row bits. -/
theorem test_no_word_decodes : decodeTableWord 32 0xFFFFFFFF = none := rfl

/-! ### Worked examples of the spec -/

/-- R277: the CRC-32C of "123456789". -/
theorem test_crc32c_check_value : crc32c [0x31, 0x32, 0x33, 0x34, 0x35, 0x36, 0x37, 0x38, 0x39] = 0xE3069283 := by decide +kernel

/-- The example after R281: 0, 1, 0, 1, ... codes in PLANE mode to 16 + 24 bytes. -/
theorem test_plane_block :
    let b := codeBlock ((List.range 64).map fun i => if i % 16 = 8 then 1 else 0) false
    b.length = 40 ∧ b.take 4 = [0x01, 0x02, 0x18, 0x00] ∧ b.drop 16 = [1, 0, 0, 0, 0, 0, 0, 0, 0, 0, 0, 0, 0, 0, 0, 0, 7, 1, 1, 1, 1, 1, 1, 1] := by
  decide +kernel

/-- The example after R387: lane 77 and D5A_DQ7. -/
theorem test_balls : laneBall 77 .txp = (73, 34) ∧ laneBall 77 .txn = (72, 34) ∧ laneBall 77 .rxp = (69, 34) ∧ laneBall 77 .rxn = (68, 34) ∧
    dramBall 5 7 = (55, 44) := by decide +kernel

/-- The example after R51: D = 1,230.1875 ticks, in 1/32 tick. -/
theorem test_echo_delay : echoD32 { ttx := 4000000, num := 0, sref := 700000, fr := 6, turn := 2048, trx16 := 4004508 * 16 + 6 } = 39366 := by decide

/-- The example after R79: an offset of 1,234.5 ticks rounds to a step of 1,248. -/
theorem test_step_size : stepSize 19752 = 1248 := by decide

/-- The example after R309: the frame of q = 15. -/
theorem test_frame_slot : seqBank 15 = 4 ∧ 8 * frameWord 15 = 0x1F0A00 := by decide

/-- The example after R372: C(310 W) at 93.0 °C. -/
theorem test_thermal_credit : credit (withRegs [(0x50100, 0x800005D0)] up) 310 = 41588 := by decide +kernel

/-- The first example of FIPS 180-4 for SHA-384. -/
theorem test_sha384 : sha384 [0x61, 0x62, 0x63] / 2 ^ 320 = 0xcb00753f45a35e8b := by decide +kernel


/-! ### States and operands that meet the hypotheses of the statements -/

theorem tellable_iff (s : State) (o : Nat) (k : Cmd) :
    Tellable s o k ↔ cmd? s o = some k ∧ k.lost = false ∧ ((ring? s k.ring).bind fun i => ring? s i.pair).isSome = true := by
  unfold Tellable
  cases h : ring? s k.ring with
  | none => simp
  | some i => cases h2 : ring? s i.pair <;> simp [h2]

theorem arrives_of {s : State} {tag : Nat} {bs : List Byte} {w : XferFor}
    (h : ∃ p ∈ arrival s tag w, p.1.by_ = .xfer w ∧ p.1.len ≤ (p.1.data ++ bs).length ∧
      (∀ z ∈ s.pcie.reads, z.tag ≠ tag → z.by_ ≠ .xfer w) ∧ ∀ z ∈ s.pcie.waitq, z.by_ ≠ .xfer w) :
    Arrives s tag bs w (arrived s tag bs w) (afterArrival s tag w) := by
  obtain ⟨⟨x, y⟩, hp, h1, h2, h3, h4⟩ := h
  have hq : arrival s tag w = some (x, y) := hp
  unfold arrival at hp
  cases hx : readOf s tag with
  | none => rw [hx] at hp; simp at hp
  | some x' =>
    cases hy : s.pcie.xfers.find? fun z => z.whose == w with
    | none => rw [hx, hy] at hp; simp at hp
    | some y' =>
      rw [hx, hy] at hp
      simp at hp
      obtain ⟨rfl, rfl⟩ := hp
      exact ⟨x', y', hx, h1, h2, hy, h3, h4, by simp [arrived, hq], rfl⟩

/-- A stream with no backlog is below half its share. -/
theorem belowHalf_of (s : State) (i : Nat) (h : backlog s i = 0) (g : 0 < (shareOf s i).2) : belowHalf s i = true := by
  simp only [belowHalf, shareOf, h, Nat.mul_zero, Nat.zero_mul, decide_eq_true_eq] at *
  omega

theorem mayResume_of (s : State) (i b : Nat) (h : backlog s i = 0) (g : 0 < (shareOf s i).2)
    (k : ((strm s i).active && evaluated s b &&
      (match headSeg s with | some y => (match y.e with | some e => decide (b ≤ e) | none => true) | none => false)) = true) :
    mayResume s i b = true := by
  simp only [mayResume, belowHalf_of s i h g, Bool.and_true]
  exact k
theorem witness_QueryCommandsComplete :
    (∃ (r : Nat), ∃ (e : Entry), ∃ (s : State), Granted r opNop e [homeOf opNop] s) ∧
    (∃ (r : Nat), ∃ (e : Entry), ∃ (s : State), Granted r opIdentify e [homeOf opIdentify] s) ∧
    (∃ (r : Nat), ∃ (e : Entry), ∃ (s : State), Granted r opInventory e [homeOf opInventory] s ∧ pn e.p1 ≠ 0 ∧ pn e.p0 % 64 = 0 ∧ pn e.p1 % 64 = 0 ∧ 64 * (1 + (pStreams (plan s)).length) ≤ pn e.p1 ∧ s.pcie.bme = true ∧ s.pcie.d3 = false) ∧
    (∃ (r : Nat), ∃ (e : Entry), ∃ (s : State), Granted r opThermalProfile e [homeOf opThermalProfile] s) :=
  ⟨⟨0, entry 0 0 0 0, up, granted_iff.2 (by unfold Alive; decide +kernel)⟩,
   ⟨0, entry 0 0 0 0, up, granted_iff.2 (by unfold Alive; decide +kernel)⟩,
   ⟨0, entry 0x100000 0x1000 0 0, up, granted_iff.2 (by unfold Alive; decide +kernel), by decide +kernel⟩,
   ⟨0, entry 0 0 0 0, up, granted_iff.2 (by unfold Alive; decide +kernel)⟩⟩

theorem witness_JtagLeavesTheEngine :
    ∃ (code : BitVec 8), jtagListed code = false :=
  ⟨0xFF, by decide +kernel⟩

theorem witness_EmptyWorkCompletesAtOnce :
    (∃ (r : Nat), ∃ (e : Entry), ∃ (s : State), Granted r opInventory e [homeOf opInventory] s ∧ pn e.p0 % 64 = 0 ∧ pn e.p1 = 0) ∧
    (∃ (r : Nat), ∃ (e : Entry), ∃ (s : State), Granted r opPlanLoad e [homeOf opPlanLoad] s ∧ pn e.p1 = 0) ∧
    (∃ (r : Nat), ∃ (e : Entry), ∃ (s : State), Granted r opPopulationSet e [homeOf opPopulationSet] s ∧ pn e.p1 = 0) ∧
    (∃ (r : Nat), ∃ (e : Entry), ∃ (s : State), Granted r opLaneSet e [4] s ∧ maskLanes e = [] ∧ laneSetBad e s = false ∧ armed s = false) ∧
    (∃ (r : Nat), ∃ (e : Entry), ∃ (s : State), Granted r opLinkTrain e [4] s ∧ maskLanes e = [] ∧ maskCascade e = []) ∧
    (∃ (r : Nat), ∃ (e : Entry), ∃ (s : State), Granted r opPatchLoad e [homeOf opPatchLoad] s ∧ pn e.p1 = 0 ∧ armed s = false ∧ s.cmds = []) ∧
    (∃ (r : Nat), ∃ (e : Entry), ∃ (s : State), Granted r opPatchLoad e [homeOf opPatchLoad] s ∧ pn e.p1 = 0 ∧ armed s = false ∧ s.cmds = []) ∧
    (∃ (r : Nat), ∃ (e : Entry), ∃ (s : State), Granted r opCustodyGrant e [homeOf opCustodyGrant] s ∧ pn e.p1 = 0) ∧
    (∃ (r : Nat), ∃ (e : Entry), ∃ (s : State), Granted r opMarchRun e [homeOf opMarchRun] s ∧ marchBad e = false ∧ marchZero e = true ∧ ∀ (k : Cmd), k ∈ s.cmds → k.opcode ≠ opDramTrain) :=
  ⟨⟨0, entry 0 0 0 0, up, granted_iff.2 (by unfold Alive; decide +kernel), by decide +kernel⟩,
   ⟨0, entry 0 0 0 0, up, granted_iff.2 (by unfold Alive; decide +kernel), by decide +kernel⟩,
   ⟨0, entry 0 0 0 0, up, granted_iff.2 (by unfold Alive; decide +kernel), by decide +kernel⟩,
   ⟨0, entry 0 0 0 0, up, granted_iff.2 (by unfold Alive; decide +kernel), by decide +kernel⟩,
   ⟨0, entry 0 0 0 0, up, granted_iff.2 (by unfold Alive; decide +kernel), by decide +kernel⟩,
   ⟨0, entry 0 0 0 0, up, granted_iff.2 (by unfold Alive; decide +kernel), by decide +kernel⟩,
   ⟨0, entry 0 0 0 0, up, granted_iff.2 (by unfold Alive; decide +kernel), by decide +kernel⟩,
   ⟨0, entry 0 0 0 0, up, granted_iff.2 (by unfold Alive; decide +kernel), by decide +kernel⟩,
   ⟨0, entry 0 0 0 0, up, granted_iff.2 (by unfold Alive; decide +kernel), by decide +kernel⟩⟩

theorem witness_EngineStopsOnlyInABoundaryScanTest :
    (∃ (s : State), s.jtag.testMode = false) ∧
    (∃ (c : Instr), ∃ (s : State), s.jtag.testMode = true ∧ outsideEngine c = false) ∧
    (∃ (c : Instr), ∃ (s : State), s.jtag.testMode = false ∧ s.tb.dead = true ∧ outsideEngine c = false) :=
  ⟨⟨up, by decide +kernel⟩,
   ⟨.peakexp, { up with jtag := { up.jtag with testMode := true } }, by decide +kernel⟩,
   ⟨.peakexp, { up with tb := { up.tb with dead := true } }, by decide +kernel⟩⟩

theorem witness_RefusedEntryHasNoOtherEffect :
    (∃ (r : Nat), ∃ (op : Nat), ∃ (e : Entry), ∃ (k : CmdRow), ∃ (s : State), ∃ (v : Refuse), EntryNext s r ∧ judge r op e k (passEntry r s) = some v) ∧
    (∃ (r : Nat), ∃ (op : Nat), ∃ (e : Entry), ∃ (k : HostRead → CmdRow), ∃ (s : State), ∃ (v : Refuse), EntryNext s r ∧ judge r op e (k HostRead.pending) (passEntry r s) = some v) ∧
    (∃ (r : Nat), ∃ (op : BitVec 16), ∃ (s : State), Alive s ∧ EntryNext s r ∧ opValid s op.toNat = false) :=
  ⟨⟨0, 0, entry 0 0 0 0, { baseRow opNop with busy := busyIf fun _ => true }, up, ({ status := 257, x0 := 0x0000000000000000#64, x1 := 0x0000000000000000#64, x2 := 0x0000000000000000#64 }), (examinable_iff _ _).1 (by decide +kernel), by decide +kernel⟩,
   ⟨0, 0, entry 0 0 0 0, fun _ => { baseRow opNop with busy := busyIf fun _ => true }, up, ({ status := 257, x0 := 0x0000000000000000#64, x1 := 0x0000000000000000#64, x2 := 0x0000000000000000#64 }), (examinable_iff _ _).1 (by decide +kernel), by decide +kernel⟩,
   ⟨0, 0xF123, up, by unfold Alive; decide +kernel, (examinable_iff _ _).1 (by decide +kernel), by decide +kernel⟩⟩

theorem witness_RingContextsComplete :
    (∃ (r : Nat), ∃ (e : Entry), ∃ (s : State), Granted r opRingCreate e [homeOf opRingCreate] s ∧ ringCreateBad e (passEntry r s) = false) ∧
    (∃ (r : Nat), ∃ (e : Entry), ∃ (s : State), Granted r opRingDestroy e [homeOf opRingDestroy] s ∧ 2 ≤ pf e.p0 15 0 ∧ (ring? s (pf e.p0 15 0)).isSome = true ∧ ringDestroyBusy e (passEntry r s) = false ∧ pairOf s r ≠ pf e.p0 15 0) ∧
    (∃ (r : Nat), ∃ (e : Entry), ∃ (s : State), Granted r opRingResume e [homeOf opRingResume] s ∧ s.pcie.bme = true ∧ (eOpt e = true ∨ 2 ≤ pf e.p0 15 0 ∧ (ring? s (pf e.p0 15 0)).isSome = true)) :=
  ⟨⟨0, entry 0x10006 0x1000 16 1, up, granted_iff.2 (by unfold Alive; decide +kernel), by decide +kernel⟩,
   ⟨0, entry 2 0 0 0, up, granted_iff.2 (by unfold Alive; decide +kernel), by decide +kernel⟩,
   ⟨0, entry 2 0 0 0, up, granted_iff.2 (by unfold Alive; decide +kernel), by decide +kernel⟩⟩

theorem witness_StreamBindingCompletes :
    (∃ (r : Nat), ∃ (e : Entry), ∃ (s : State), Granted r opStreamOpen e [homeOf opStreamOpen] s ∧ streamOpenBad e (passEntry r s) = false ∧ streamBound (passEntry r s) (pf e.p0 23 16) = false ∧ pairOf s r ≠ pf e.p0 15 0) ∧
    (∃ (r : Nat), ∃ (e : Entry), ∃ (s : State), ∃ (x : Ring), Granted r opStreamClose e [homeOf opStreamClose] s ∧ ring? (passEntry r s) (pf e.p0 15 0) = some x ∧ x.type = RingType.str ∧ pairOf s r ≠ pf e.p0 15 0) :=
  ⟨⟨0, entry 0x00002 0 0x200000 0x100000, planned up, granted_iff.2 (by unfold Alive; decide +kernel), by decide +kernel⟩,
   ⟨0, entry 2 0 0 0, up, ({ type := Sys2Proof.Machine.RingType.str, base := 196608, z := 16, pair := 0, vector := 0, ien := false, eng := 0, host := 0, phase := true, halted := none, held := [], bound := none, got := 0 }), granted_iff.2 (by unfold Alive; decide +kernel), by decide +kernel⟩⟩

theorem witness_DoorbellMovesTheHostIndex :
    (∃ (s : State), Alive s ∧ s.pcie.memSpace = false) ∧
    (∃ (s : State), Alive s ∧ s.pcie.memSpace = true) ∧
    (∃ (r : Nat), ∃ (v : W64), ∃ (s : State), Alive s ∧ s.pcie.memSpace = true ∧ (ring? s r = none ∨ ∃ (x : Ring), ring? s r = some x ∧ x.z ≤ pf v 15 0)) ∧
    (∃ (r : Nat), ∃ (v : W64), ∃ (s : State), ∃ (x : Ring), Alive s ∧ s.pcie.memSpace = true ∧ ring? s r = some x ∧ pf v 15 0 < x.z) :=
  ⟨⟨{ up with pcie := { up.pcie with memSpace := false } }, by unfold Alive; decide +kernel, by decide +kernel⟩,
   ⟨up, by unfold Alive; decide +kernel, by decide +kernel⟩,
   ⟨5, 1, up, by unfold Alive; decide +kernel, by decide +kernel, by and_intros <;> first | decide +kernel | exact .inl (by decide +kernel) | (intro x h; cases h; done) | (intro c; cases c <;> decide +kernel)⟩,
   ⟨0, 1, up, ({ type := Sys2Proof.Machine.RingType.sub, base := 65536, z := 16, pair := 1, vector := 0, ien := false, eng := 0, host := 3, phase := true, halted := none, held := [], bound := none, got := 3 }), by unfold Alive; decide +kernel, by decide +kernel⟩⟩

theorem witness_AdmctlStartsAndResumesTheAdministrationRings :
    (∃ (v : W32), ∃ (s : State), Alive s ∧ s.pcie.memSpace = true ∧ bit (BitVec.toNat (reg s 1572884)) 0 = false ∧ bit (BitVec.toNat v) 0 = true ∧ bit (BitVec.toNat v) 1 = false ∧ 4 ≤ rf s 1572880 4 0 ∧ rf s 1572880 4 0 ≤ 16 ∧ 4 ≤ rf s 1572880 12 8 ∧ rf s 1572880 12 8 ≤ 16) ∧
    (∃ (v : W32), ∃ (s : State), Alive s ∧ s.pcie.memSpace = true ∧ bit (BitVec.toNat (reg s 1572884)) 0 = bit (BitVec.toNat v) 0 ∧ bit (BitVec.toNat v) 1 = true ∧ s.pcie.bme = true) ∧
    (∃ (v : W32), ∃ (s : State), Alive s ∧ s.pcie.memSpace = true ∧ (bit (BitVec.toNat (reg s 1572884)) 0 = true ∧ bit (BitVec.toNat v) 0 = false ∨ bit (BitVec.toNat (reg s 1572884)) 0 = false ∧ bit (BitVec.toNat v) 0 = true ∧ (rf s 1572880 4 0 < 4 ∨ 16 < rf s 1572880 4 0) ∨ bit (BitVec.toNat v) 1 = true ∧ s.pcie.bme = false)) ∧
    (∃ (v : W32), ∃ (s : State), Alive s ∧ s.pcie.memSpace = true ∧ (bit (BitVec.toNat (reg s 1572884)) 0 = true ∧ bit (BitVec.toNat v) 0 = false ∨ bit (BitVec.toNat (reg s 1572884)) 0 = false ∧ bit (BitVec.toNat v) 0 = true ∧ (rf s 1572880 4 0 < 4 ∨ 16 < rf s 1572880 4 0) ∨ bit (BitVec.toNat v) 1 = true ∧ s.pcie.bme = false)) :=
  ⟨⟨1, admin 0x80050404, by unfold Alive; decide +kernel, by decide +kernel⟩,
   ⟨2, up, by unfold Alive; decide +kernel, by decide +kernel⟩,
   ⟨1, up, by unfold Alive; decide +kernel, by decide +kernel⟩,
   ⟨1, up, by unfold Alive; decide +kernel, by decide +kernel⟩⟩

theorem witness_RecordIsDelivered :
    (∃ (k : Nat), ∃ (s : State), ∃ (x : Ring), Alive s ∧ ring? s k = some x ∧ x.bound = none) ∧
    (∃ (k : Nat), ∃ (s : State), ∃ (x : Ring), ∃ (b : Binding), Alive s ∧ ring? s k = some x ∧ x.bound = some b ∧ b.reading = true) ∧
    (∃ (k : Nat), ∃ (s : State), ∃ (x : Ring), ∃ (b : Binding), Alive s ∧ ring? s k = some x ∧ x.bound = some b ∧ b.reading = false ∧ x.type = RingType.str ∧ canWrite s x = true ∧ b.live = true ∧ s.cap.anyBegun = true ∧ committedTo s b.stream ≤ b.nextSeq ∧ s.cap.state = CapState.ended ∧ s.cap.closing = false) ∧
    (∃ (k : Nat), ∃ (s : State), ∃ (x : Ring), ∃ (b : Binding), Alive s ∧ ring? s k = some x ∧ x.bound = some b ∧ b.reading = false ∧ x.type = RingType.str ∧ canWrite s x = true ∧ b.live = true ∧ s.cap.anyBegun = true ∧ 0 < goneRun (strm s b.stream) (committedTo s b.stream - b.nextSeq) b.nextSeq (committedTo s b.stream) ∧ b.nextSeq < committedTo s b.stream) ∧
    (∃ (k : Nat), ∃ (s : State), ∃ (x : Ring), ∃ (b : Binding), ∃ (m : RecMeta), Alive s ∧ ring? s k = some x ∧ x.bound = some b ∧ b.reading = false ∧ x.type = RingType.str ∧ canWrite s x = true ∧ b.live = true ∧ s.cap.anyBegun = true ∧ b.nextSeq < committedTo s b.stream ∧ recOf (strm s b.stream) b.nextSeq = some m ∧ m.gone = false ∧ spaceTaken b (if b.size < b.off + 64 * m.len then 0 else b.off) (64 * m.len) = false ∧ b.ready = none) ∧
    (∃ (k : Nat), ∃ (s : State), ∃ (x : Ring), ∃ (b : Binding), ∃ (m : RecMeta), ∃ (bs : List Byte), Alive s ∧ ring? s k = some x ∧ x.bound = some b ∧ b.reading = false ∧ x.type = RingType.str ∧ canWrite s x = true ∧ b.live = true ∧ s.cap.anyBegun = true ∧ b.nextSeq < committedTo s b.stream ∧ recOf (strm s b.stream) b.nextSeq = some m ∧ m.gone = false ∧ spaceTaken b (if b.size < b.off + 64 * m.len then 0 else b.off) (64 * m.len) = false ∧ b.ready = some bs) :=
  ⟨⟨0, up, ({ type := Sys2Proof.Machine.RingType.sub, base := 65536, z := 16, pair := 1, vector := 0, ien := false, eng := 0, host := 3, phase := true, halted := none, held := [], bound := none, got := 3 }), by unfold Alive; decide +kernel, by decide +kernel⟩,
   ⟨2, delivering [] 5 true none true, ({ type := Sys2Proof.Machine.RingType.str, base := 196608, z := 16, pair := 0, vector := 0, ien := true, eng := 0, host := 0, phase := true, halted := none, held := [], bound := some { stream := 4, buf := 1048576, size := 4096, nextSeq := 5, off := 4032, held := [], live := true, reading := true, ready := none }, got := 0 }), ({ stream := 4, buf := 1048576, size := 4096, nextSeq := 5, off := 4032, held := [], live := true, reading := true, ready := none }), by unfold Alive; decide +kernel, by decide +kernel⟩,
   ⟨2, delivering [] 5 true none false, ({ type := Sys2Proof.Machine.RingType.str, base := 196608, z := 16, pair := 0, vector := 0, ien := true, eng := 0, host := 0, phase := true, halted := none, held := [], bound := some { stream := 4, buf := 1048576, size := 4096, nextSeq := 5, off := 4032, held := [], live := true, reading := false, ready := none }, got := 0 }), ({ stream := 4, buf := 1048576, size := 4096, nextSeq := 5, off := 4032, held := [], live := true, reading := false, ready := none }), by unfold Alive; decide +kernel, by decide +kernel⟩,
   ⟨2, delivering [{ recAt 0x1000 5 with gone := true }, recAt 0x1040 6] 9 true none false, ({ type := Sys2Proof.Machine.RingType.str, base := 196608, z := 16, pair := 0, vector := 0, ien := true, eng := 0, host := 0, phase := true, halted := none, held := [], bound := some { stream := 4, buf := 1048576, size := 4096, nextSeq := 5, off := 4032, held := [], live := true, reading := false, ready := none }, got := 0 }), ({ stream := 4, buf := 1048576, size := 4096, nextSeq := 5, off := 4032, held := [], live := true, reading := false, ready := none }), by unfold Alive; decide +kernel, by decide +kernel⟩,
   ⟨2, delivering [recAt 0x1000 5, recAt 0x1040 6] 9 true none false, ({ type := Sys2Proof.Machine.RingType.str, base := 196608, z := 16, pair := 0, vector := 0, ien := true, eng := 0, host := 0, phase := true, halted := none, held := [], bound := some { stream := 4, buf := 1048576, size := 4096, nextSeq := 5, off := 4032, held := [], live := true, reading := false, ready := none }, got := 0 }), ({ stream := 4, buf := 1048576, size := 4096, nextSeq := 5, off := 4032, held := [], live := true, reading := false, ready := none }), ({ addr := 4096, len := 1, seq := 5, rtype := 1, ts := 500, last := 600, segno := 0, coma := false, gone := false, head := [] }), by unfold Alive; decide +kernel, by decide +kernel⟩,
   ⟨2, delivering [recAt 0x1000 5, recAt 0x1040 6] 9 true (some (List.replicate 64 7)) false, ({ type := Sys2Proof.Machine.RingType.str, base := 196608, z := 16, pair := 0, vector := 0, ien := true, eng := 0, host := 0, phase := true, halted := none, held := [], bound := some { stream := 4, buf := 1048576, size := 4096, nextSeq := 5, off := 4032, held := [], live := true, reading := false, ready := some [0x07#8, 0x07#8, 0x07#8, 0x07#8, 0x07#8, 0x07#8, 0x07#8, 0x07#8, 0x07#8, 0x07#8, 0x07#8, 0x07#8, 0x07#8, 0x07#8, 0x07#8, 0x07#8, 0x07#8, 0x07#8, 0x07#8, 0x07#8, 0x07#8, 0x07#8, 0x07#8, 0x07#8, 0x07#8, 0x07#8, 0x07#8, 0x07#8, 0x07#8, 0x07#8, 0x07#8, 0x07#8, 0x07#8, 0x07#8, 0x07#8, 0x07#8, 0x07#8, 0x07#8, 0x07#8, 0x07#8, 0x07#8, 0x07#8, 0x07#8, 0x07#8, 0x07#8, 0x07#8, 0x07#8, 0x07#8, 0x07#8, 0x07#8, 0x07#8, 0x07#8, 0x07#8, 0x07#8, 0x07#8, 0x07#8, 0x07#8, 0x07#8, 0x07#8, 0x07#8, 0x07#8, 0x07#8, 0x07#8, 0x07#8] }, got := 0 }), ({ stream := 4, buf := 1048576, size := 4096, nextSeq := 5, off := 4032, held := [], live := true, reading := false, ready := some [0x07#8, 0x07#8, 0x07#8, 0x07#8, 0x07#8, 0x07#8, 0x07#8, 0x07#8, 0x07#8, 0x07#8, 0x07#8, 0x07#8, 0x07#8, 0x07#8, 0x07#8, 0x07#8, 0x07#8, 0x07#8, 0x07#8, 0x07#8, 0x07#8, 0x07#8, 0x07#8, 0x07#8, 0x07#8, 0x07#8, 0x07#8, 0x07#8, 0x07#8, 0x07#8, 0x07#8, 0x07#8, 0x07#8, 0x07#8, 0x07#8, 0x07#8, 0x07#8, 0x07#8, 0x07#8, 0x07#8, 0x07#8, 0x07#8, 0x07#8, 0x07#8, 0x07#8, 0x07#8, 0x07#8, 0x07#8, 0x07#8, 0x07#8, 0x07#8, 0x07#8, 0x07#8, 0x07#8, 0x07#8, 0x07#8, 0x07#8, 0x07#8, 0x07#8, 0x07#8, 0x07#8, 0x07#8, 0x07#8, 0x07#8] }), ({ addr := 4096, len := 1, seq := 5, rtype := 1, ts := 500, last := 600, segno := 0, coma := false, gone := false, head := [] }), ([0x07#8, 0x07#8, 0x07#8, 0x07#8, 0x07#8, 0x07#8, 0x07#8, 0x07#8, 0x07#8, 0x07#8, 0x07#8, 0x07#8, 0x07#8, 0x07#8, 0x07#8, 0x07#8, 0x07#8, 0x07#8, 0x07#8, 0x07#8, 0x07#8, 0x07#8, 0x07#8, 0x07#8, 0x07#8, 0x07#8, 0x07#8, 0x07#8, 0x07#8, 0x07#8, 0x07#8, 0x07#8, 0x07#8, 0x07#8, 0x07#8, 0x07#8, 0x07#8, 0x07#8, 0x07#8, 0x07#8, 0x07#8, 0x07#8, 0x07#8, 0x07#8, 0x07#8, 0x07#8, 0x07#8, 0x07#8, 0x07#8, 0x07#8, 0x07#8, 0x07#8, 0x07#8, 0x07#8, 0x07#8, 0x07#8, 0x07#8, 0x07#8, 0x07#8, 0x07#8, 0x07#8, 0x07#8, 0x07#8, 0x07#8]), by unfold Alive; decide +kernel, by decide +kernel⟩⟩

theorem witness_PlanCommandsComplete :
    (∃ (r : Nat), ∃ (e : Entry), ∃ (s : State), Granted r opPlanLoad e [homeOf opPlanLoad] s ∧ pn e.p1 ≠ 0 ∧ s.pcie.bme = true) ∧
    (∃ (r : Nat), ∃ (e : Entry), ∃ (im : Image), ∃ (s : State), ∃ (u : State), ∃ (tag : Nat), ∃ (bs : List Byte), Arrives s tag bs (XferFor.cmd r opPlanLoad e) im u ∧ Granted r opPlanLoad e [homeOf opPlanLoad] u ∧ pn e.p1 ≠ 0) ∧
    (∃ (r : Nat), ∃ (e : Entry), ∃ (im : Image), ∃ (s : State), Granted r opPlanAdmit e [homeOf opPlanAdmit] s ∧ s.plans.staged = some im) ∧
    (∃ (s : State), ∃ (o : Nat), ∃ (n : Tick), ∃ (im : Image), ∃ (k : Cmd), s.plans.admitting = some (o, n) ∧ n ≤ s.tb.time ∧ s.plans.staged = some im ∧ Tellable s o k) ∧
    (∃ (r : Nat), ∃ (e : Entry), ∃ (s : State), Granted r opPlanRelease e [homeOf opPlanRelease] s ∧ armed s = false) :=
  ⟨⟨0, entry 0 128 0 0, up, granted_iff.2 (by unfold Alive; decide +kernel), by decide +kernel⟩,
   ⟨0, entry 0 128 0 0, arrived (moving opPlanLoad (entry 0 128 0 0) 128 4 [] up) 5 (List.replicate 4 0) (.cmd 0 opPlanLoad (entry 0 128 0 0)), moving opPlanLoad (entry 0 128 0 0) 128 4 [] up, up, 5, List.replicate 4 0, arrives_of (by decide +kernel), granted_iff.2 (by unfold Alive; decide +kernel), by decide +kernel⟩,
   ⟨0, entry 0 0 0 0, population, { up with plans := { up.plans with staged := some population } }, granted_iff.2 (by unfold Alive; decide +kernel), by decide +kernel⟩,
   ⟨{ busy [openCmd opPlanAdmit 0x99 9 0] with plans := { up.plans with staged := some population, admitting := some (9, 0) } }, (9), 0, population, openCmd opPlanAdmit 0x99 9 0, by decide +kernel, by decide +kernel, by decide +kernel, (tellable_iff _ _ _).2 (by decide +kernel)⟩,
   ⟨0, entry 0 0 0 0, up, granted_iff.2 (by unfold Alive; decide +kernel), by decide +kernel⟩⟩

theorem witness_DramConfigurationCompletes :
    (∃ (r : Nat), ∃ (e : Entry), ∃ (s : State), Granted r opPopulationSet e [homeOf opPopulationSet] s ∧ pn e.p1 = 128 ∧ allIn s [0, 1, 4] = true ∧ s.pcie.bme = true) ∧
    (∃ (r : Nat), ∃ (e : Entry), ∃ (im : Image), ∃ (s : State), ∃ (u : State), ∃ (tag : Nat), ∃ (bs : List Byte), Arrives s tag bs (XferFor.cmd r opPopulationSet e) im u ∧ Granted r opPopulationSet e [homeOf opPopulationSet] u ∧ pn e.p1 = 128 ∧ popBad im = false ∧ allIn s [0, 1, 4] = true) ∧
    (∃ (r : Nat), ∃ (e : Entry), ∃ (s : State), Granted r opScrubSet e [homeOf opScrubSet] s ∧ pn e.p0 < 2 ^ chCount s ∧ (pf e.p3 8 8 = 1 → pn e.p1 < pn e.p2 ∧ pf e.p3 7 0 ≠ 0)) :=
  ⟨⟨0, entry 0 128 0 0, up, granted_iff.2 (by unfold Alive; decide +kernel), by decide +kernel⟩,
   ⟨0, entry 0 128 0 0, arrived (moving opPopulationSet (entry 0 128 0 0) 128 4 population.bytes untrained) 5 (List.replicate 4 0) (.cmd 0 opPopulationSet (entry 0 128 0 0)), moving opPopulationSet (entry 0 128 0 0) 128 4 population.bytes untrained, untrained, 5, List.replicate 4 0, arrives_of (by decide +kernel), granted_iff.2 (by unfold Alive; decide +kernel), by decide +kernel⟩,
   ⟨0, entry 0 0 0 0, up, granted_iff.2 (by unfold Alive; decide +kernel), by decide +kernel⟩⟩

theorem witness_TraceSetCompletes :
    (∃ (r : Nat), ∃ (e : Entry), ∃ (s : State), Granted r opTraceSet e [homeOf opTraceSet] s ∧ traceBad e (passEntry r s) = false) ∧
    (∃ (p : Nat), ∃ (s : State), Alive s ∧ p < 2 ∧ (rf s 12 p p = 0 ∨ s.pwr.warm = true)) ∧
    (∃ (p : Nat), ∃ (s : State), Alive s ∧ p < 2 ∧ rf s 12 p p = 1 ∧ s.pwr.warm = false ∧ obsOpen s p = true ∧ obsBuf s p = []) ∧
    (∃ (p : Nat), ∃ (s : State), Alive s ∧ p < 2 ∧ rf s 12 p p = 1 ∧ s.pwr.warm = false ∧ obsOpen s p = true ∧ obsBuf s p ≠ []) :=
  ⟨⟨0, entry 0 0 0 0, up, granted_iff.2 (by unfold Alive; decide +kernel), by decide +kernel⟩,
   ⟨0, up, by unfold Alive; decide +kernel, by decide +kernel⟩,
   ⟨0, clock 0 5000 (withRegs [(0xC, 3)] up), by unfold Alive; decide +kernel, by decide +kernel⟩,
   ⟨0, clock 0 5000 (withRegs [(0xC, 3)] { up with trace := { up.trace with buf0 := [1, 2, 3] } }), by unfold Alive; decide +kernel, by decide +kernel⟩⟩

theorem witness_LaneSetCompletes :
    ∃ (r : Nat), ∃ (e : Entry), ∃ (s : State), Granted r opLaneSet e (4 :: clqsOf (maskLanes e)) s ∧ maskLanes e ≠ [] ∧ laneSetBad e s = false ∧ armed s = false ∧ ∀ (n : Nat), n ∈ maskLanes e → inTraining s n = false :=
  ⟨0, entry 3 0 0x0C00000000000001 1, up, granted_iff.2 (by unfold Alive; decide +kernel), by decide +kernel⟩

theorem witness_TimebaseSettingsTakeEffect :
    (∃ (r : Nat), ∃ (e : Entry), ∃ (s : State), Granted r opTimebaseSet e [homeOf opTimebaseSet] s ∧ (∀ (x : Nat × W32 × W32), x ∈ tbWords e → x.snd.fst &&& ~~~x.snd.snd = 0) ∧ tbAgrees (tbOfEntry e) = true ∧ (armed s = true → tbReconf s (tbOfEntry e) = false)) ∧
    (∃ (m : Master), ∃ (v : W32), ∃ (s : State), Alive s ∧ Reaches m s ∧ privileged s m GwClass.clk = true ∧ armOf s m = some GwClass.clk ∧ bit (BitVec.toNat v) 0 = true ∧ tbAgrees (tbStaged s) = true ∧ (armed s = true ∨ admitting s = true → tbReconf s (tbStaged s) = false)) ∧
    (∃ (s : State), ∃ (c : TbWait), (c.judged = true ∨ tbVerdict c.set s = none) ∧ s.tb.order = none) :=
  ⟨⟨0, entry 0x40 1 1 0, up, granted_iff.2 (by unfold Alive; decide +kernel), by decide +kernel⟩,
   ⟨.csq, 1, withRegs [(0x4000C, 3)] (keyed .clk up), by unfold Alive; decide +kernel, by unfold Reaches; decide +kernel, by decide +kernel⟩,
   ⟨up, { edge := 0, set := up.tb.act, judged := true, origin := some 9 }, by decide +kernel⟩⟩

theorem witness_CustodyIsGrantedAndReleased :
    (∃ (r : Nat), ∃ (e : Entry), ∃ (s : State), Granted r opCustodyGrant e [homeOf opCustodyGrant] s ∧ pn e.p1 = 128 ∧ custody s = false ∧ s.pcie.bme = true) ∧
    (∃ (r : Nat), ∃ (e : Entry), ∃ (im : Image), ∃ (s : State), ∃ (u : State), ∃ (tag : Nat), ∃ (bs : List Byte), Arrives s tag bs (XferFor.cmd r opCustodyGrant e) im u ∧ Granted r opCustodyGrant e [homeOf opCustodyGrant] u ∧ pn e.p1 = 128 ∧ custody s = false) ∧
    (∃ (r : Nat), ∃ (e : Entry), ∃ (s : State), Granted r opCustodyRelease e [homeOf opCustodyRelease] s) :=
  ⟨⟨0, entry 0 128 0 0, up, granted_iff.2 (by unfold Alive; decide +kernel), by decide +kernel⟩,
   ⟨0, entry 0 128 0 0, arrived (moving opCustodyGrant (entry 0 128 0 0) 128 4 grant.bytes granting) 5 (memTake grant.bytes 124 4) (.cmd 0 opCustodyGrant (entry 0 128 0 0)), moving opCustodyGrant (entry 0 128 0 0) 128 4 grant.bytes granting, afterArrival (moving opCustodyGrant (entry 0 128 0 0) 128 4 grant.bytes granting) 5 (.cmd 0 opCustodyGrant (entry 0 128 0 0)), 5, memTake grant.bytes 124 4, arrives_of (by decide +kernel), granted_iff.2 (by unfold Alive; decide +kernel), by decide +kernel⟩,
   ⟨0, entry 0 0 0 0, up, granted_iff.2 (by unfold Alive; decide +kernel)⟩⟩

theorem witness_PatchesAreLoaded :
    (∃ (r : Nat), ∃ (e : Entry), ∃ (s : State), Granted r opPatchLoad e [homeOf opPatchLoad] s ∧ pn e.p1 ≠ 0 ∧ armed s = false ∧ s.cmds = [] ∧ s.pcie.bme = true) ∧
    (∃ (r : Nat), ∃ (e : Entry), ∃ (s : State), Granted r opPatchLoad e [homeOf opPatchLoad] s ∧ pn e.p1 ≠ 0 ∧ armed s = false ∧ s.cmds = [] ∧ s.pcie.bme = true) ∧
    (∃ (r : Nat), ∃ (e : Entry), ∃ (im0 : Image), ∃ (s : State), ∃ (u : State), ∃ (tag : Nat), ∃ (bs : List Byte), Arrives s tag bs (XferFor.cmd r opPatchLoad e) im0 u ∧ Granted r opPatchLoad e [homeOf opPatchLoad] u ∧ pn e.p1 ≠ 0 ∧ armed s = false ∧ s.cmds = []) :=
  ⟨⟨0, entry 0 128 0 0, up, granted_iff.2 (by unfold Alive; decide +kernel), by decide +kernel⟩,
   ⟨0, entry 0 128 0 0, up, granted_iff.2 (by unfold Alive; decide +kernel), by decide +kernel⟩,
   ⟨0, entry 0x1000 184 0 0, arrived (moving opPatchLoad (entry 0x1000 184 0 0) 184 4 vendor.bytes patching) 5 (memTake vendor.bytes 180 4) (.cmd 0 opPatchLoad (entry 0x1000 184 0 0)), moving opPatchLoad (entry 0x1000 184 0 0) 184 4 vendor.bytes patching, afterArrival (moving opPatchLoad (entry 0x1000 184 0 0) 184 4 vendor.bytes patching) 5 (.cmd 0 opPatchLoad (entry 0x1000 184 0 0)), 5, memTake vendor.bytes 180 4, arrives_of (by decide +kernel), granted_iff.2 (by unfold Alive; decide +kernel), by decide +kernel⟩⟩

theorem witness_MicrowordRuns :
    ∃ (q : Nat), ∃ (s : State), ∃ (z : Seqr), ∃ (p : Nat), ∃ (why : Nat), Alive s ∧ seqPresent s q = true ∧ (sq s q).state = SeqState.run ∧ (sq s q).wait = none ∧ trapDue (sq s q) = false ∧ parityFails (storeWord s q (sq s q).pc) = 0 ∧ reservedCode (storeWord s q (sq s q).pc) = false ∧ (mDsp (storeWord s q (sq s q).pc) = true → q = 0) ∧ mMop (storeWord s q (sq s q).pc) = 0 ∧ xioOp (storeWord s q (sq s q).pc) = 0 ∧ mEvt (storeWord s q (sq s q).pc) = 0 ∧ mStk (storeWord s q (sq s q).pc) = 0 ∧ mCmt (storeWord s q (sq s q).pc) = false ∧ mWait (storeWord s q (sq s q).pc) = 0 ∧ mNac (storeWord s q (sq s q).pc) ≤ 6 ∧ (sq s q).prePc < 39 ∧ nextAddr s q (applyCnt (storeWord s q (sq s q).pc) (alu (mAlu (storeWord s q (sq s q).pc)) (source s (sq s q) (storeWord s q (sq s q).pc) (mAsrc (storeWord s q (sq s q).pc))) (source s (sq s q) (storeWord s q (sq s q).pc) (mBsrc (storeWord s q (sq s q).pc))) (sq s q).flags (Config.freeValue s.fresh)).fst (if (alu (mAlu (storeWord s q (sq s q).pc)) (source s (sq s q) (storeWord s q (sq s q).pc) (mAsrc (storeWord s q (sq s q).pc))) (source s (sq s q) (storeWord s q (sq s q).pc) (mBsrc (storeWord s q (sq s q).pc))) (sq s q).flags (Config.freeValue s.fresh)).snd.fst = true then putDst (mDst (storeWord s q (sq s q).pc)) (alu (mAlu (storeWord s q (sq s q).pc)) (source s (sq s q) (storeWord s q (sq s q).pc) (mAsrc (storeWord s q (sq s q).pc))) (source s (sq s q) (storeWord s q (sq s q).pc) (mBsrc (storeWord s q (sq s q).pc))) (sq s q).flags (Config.freeValue s.fresh)).fst { state := (sq s q).state, pc := (sq s q).pc, ctx := (sq s q).ctx, w := (sq s q).w, flags := (alu (mAlu (storeWord s q (sq s q).pc)) (source s (sq s q) (storeWord s q (sq s q).pc) (mAsrc (storeWord s q (sq s q).pc))) (source s (sq s q) (storeWord s q (sq s q).pc) (mBsrc (storeWord s q (sq s q).pc))) (sq s q).flags (Config.freeValue s.fresh)).snd.snd, lc := (sq s q).lc, mar := (sq s q).mar, mdr := (sq s q).mdr, xdr := (sq s q).xdr, lb := (sq s q).lb, stack := (sq s q).stack, ctxs := (sq s q).ctxs, queue := (sq s q).queue, memBusy := (sq s q).memBusy, hostBusy := (sq s q).hostBusy, hold := (sq s q).hold, poison := (sq s q).poison, pubs := (sq s q).pubs, pendTrap := (sq s q).pendTrap, inTrap := (sq s q).inTrap, resume := (sq s q).resume, prePc := (sq s q).prePc, tsafe := (sq s q).tsafe, sinceCmt := (sq s q).sinceCmt, wdogHit := (sq s q).wdogHit, wait := (sq s q).wait, trapWait := (sq s q).trapWait, words := (sq s q).words } else { state := (sq s q).state, pc := (sq s q).pc, ctx := (sq s q).ctx, w := (sq s q).w, flags := (alu (mAlu (storeWord s q (sq s q).pc)) (source s (sq s q) (storeWord s q (sq s q).pc) (mAsrc (storeWord s q (sq s q).pc))) (source s (sq s q) (storeWord s q (sq s q).pc) (mBsrc (storeWord s q (sq s q).pc))) (sq s q).flags (Config.freeValue s.fresh)).snd.snd, lc := (sq s q).lc, mar := (sq s q).mar, mdr := (sq s q).mdr, xdr := (sq s q).xdr, lb := (sq s q).lb, stack := (sq s q).stack, ctxs := (sq s q).ctxs, queue := (sq s q).queue, memBusy := (sq s q).memBusy, hostBusy := (sq s q).hostBusy, hold := (sq s q).hold, poison := (sq s q).poison, pubs := (sq s q).pubs, pendTrap := (sq s q).pendTrap, inTrap := (sq s q).inTrap, resume := (sq s q).resume, prePc := (sq s q).prePc, tsafe := (sq s q).tsafe, sinceCmt := (sq s q).sinceCmt, wdogHit := (sq s q).wdogHit, wait := (sq s q).wait, trapWait := (sq s q).trapWait, words := (sq s q).words })) (storeWord s q (sq s q).pc) (source s (sq s q) (storeWord s q (sq s q).pc) (mAsrc (storeWord s q (sq s q).pc))) = some (p, z, why) ∧ (isJsq q = true → inOpen (sq s q).pc = true → mRing (storeWord s q (sq s q).pc) < 2 ∧ ∀ (g : Nat), goesTo s (applyCnt (storeWord s q (sq s q).pc) (alu (mAlu (storeWord s q (sq s q).pc)) (source s (sq s q) (storeWord s q (sq s q).pc) (mAsrc (storeWord s q (sq s q).pc))) (source s (sq s q) (storeWord s q (sq s q).pc) (mBsrc (storeWord s q (sq s q).pc))) (sq s q).flags (Config.freeValue s.fresh)).fst (if (alu (mAlu (storeWord s q (sq s q).pc)) (source s (sq s q) (storeWord s q (sq s q).pc) (mAsrc (storeWord s q (sq s q).pc))) (source s (sq s q) (storeWord s q (sq s q).pc) (mBsrc (storeWord s q (sq s q).pc))) (sq s q).flags (Config.freeValue s.fresh)).snd.fst = true then putDst (mDst (storeWord s q (sq s q).pc)) (alu (mAlu (storeWord s q (sq s q).pc)) (source s (sq s q) (storeWord s q (sq s q).pc) (mAsrc (storeWord s q (sq s q).pc))) (source s (sq s q) (storeWord s q (sq s q).pc) (mBsrc (storeWord s q (sq s q).pc))) (sq s q).flags (Config.freeValue s.fresh)).fst { state := (sq s q).state, pc := (sq s q).pc, ctx := (sq s q).ctx, w := (sq s q).w, flags := (alu (mAlu (storeWord s q (sq s q).pc)) (source s (sq s q) (storeWord s q (sq s q).pc) (mAsrc (storeWord s q (sq s q).pc))) (source s (sq s q) (storeWord s q (sq s q).pc) (mBsrc (storeWord s q (sq s q).pc))) (sq s q).flags (Config.freeValue s.fresh)).snd.snd, lc := (sq s q).lc, mar := (sq s q).mar, mdr := (sq s q).mdr, xdr := (sq s q).xdr, lb := (sq s q).lb, stack := (sq s q).stack, ctxs := (sq s q).ctxs, queue := (sq s q).queue, memBusy := (sq s q).memBusy, hostBusy := (sq s q).hostBusy, hold := (sq s q).hold, poison := (sq s q).poison, pubs := (sq s q).pubs, pendTrap := (sq s q).pendTrap, inTrap := (sq s q).inTrap, resume := (sq s q).resume, prePc := (sq s q).prePc, tsafe := (sq s q).tsafe, sinceCmt := (sq s q).sinceCmt, wdogHit := (sq s q).wdogHit, wait := (sq s q).wait, trapWait := (sq s q).trapWait, words := (sq s q).words } else { state := (sq s q).state, pc := (sq s q).pc, ctx := (sq s q).ctx, w := (sq s q).w, flags := (alu (mAlu (storeWord s q (sq s q).pc)) (source s (sq s q) (storeWord s q (sq s q).pc) (mAsrc (storeWord s q (sq s q).pc))) (source s (sq s q) (storeWord s q (sq s q).pc) (mBsrc (storeWord s q (sq s q).pc))) (sq s q).flags (Config.freeValue s.fresh)).snd.snd, lc := (sq s q).lc, mar := (sq s q).mar, mdr := (sq s q).mdr, xdr := (sq s q).xdr, lb := (sq s q).lb, stack := (sq s q).stack, ctxs := (sq s q).ctxs, queue := (sq s q).queue, memBusy := (sq s q).memBusy, hostBusy := (sq s q).hostBusy, hold := (sq s q).hold, poison := (sq s q).poison, pubs := (sq s q).pubs, pendTrap := (sq s q).pendTrap, inTrap := (sq s q).inTrap, resume := (sq s q).resume, prePc := (sq s q).prePc, tsafe := (sq s q).tsafe, sinceCmt := (sq s q).sinceCmt, wdogHit := (sq s q).wdogHit, wait := (sq s q).wait, trapWait := (sq s q).trapWait, words := (sq s q).words })) (storeWord s q (sq s q).pc) (source s (sq s q) (storeWord s q (sq s q).pc) (mAsrc (storeWord s q (sq s q).pc))) = some g → inOpen g = true) :=
  ⟨4, seqS 4 (running 0x3001) [(0x3001, word [(106, 1), (100, 3), (94, 0x20), (88, 5), (72, 77)])], ({ state := Sys2Proof.Machine.SeqState.run, pc := 12289, ctx := 0, w := [0x0000000000000064#64, 0x0000000000000065#64, 0x0000000000000066#64, 0x0000000000000067#64, 0x0000000000000068#64, 0x00000000000000b4#64, 0x000000000000006a#64, 0x000000000000006b#64, 0x000000000000006c#64, 0x000000000000006d#64, 0x000000000000006e#64, 0x000000000000006f#64, 0x0000000000000070#64, 0x0000000000000071#64, 0x0000000000000072#64, 0x0000000000000073#64, 0x0000000000000074#64, 0x0000000000000075#64, 0x0000000000000076#64, 0x0000000000000077#64, 0x0000000000000078#64, 0x0000000000000079#64, 0x000000000000007a#64, 0x000000000000007b#64, 0x000000000000007c#64, 0x000000000000007d#64, 0x000000000000007e#64, 0x000000000000007f#64, 0x0000000000000080#64, 0x0000000000000081#64, 0x0000000000000082#64, 0x0000000000000083#64], flags := 0x0#4, lc := [1, 2, 3, 4], mar := 0x0000000000000000#64, mdr := 0x0000000000000000#64, xdr := 0x0000000000000000#64, lb := [0x0000000000000000#64, 0x0000000000000000#64, 0x0000000000000000#64, 0x0000000000000000#64, 0x0000000000000000#64, 0x0000000000000000#64, 0x0000000000000000#64, 0x0000000000000000#64], stack := [0x0000000000003005#64], ctxs := [{ abort := false, c0 := 0x0000000000000000#64, c1 := 0x0000000000000000#64, c2 := 0x0000000000000000#64, origin := some 9 }, { abort := false, c0 := 0x0000000000000000#64, c1 := 0x0000000000000000#64, c2 := 0x0000000000000000#64, origin := none }, { abort := false, c0 := 0x0000000000000000#64, c1 := 0x0000000000000000#64, c2 := 0x0000000000000000#64, origin := none }, { abort := false, c0 := 0x0000000000000000#64, c1 := 0x0000000000000000#64, c2 := 0x0000000000000000#64, origin := none }], queue := [], memBusy := false, hostBusy := false, hold := [], poison := false, pubs := [], pendTrap := [], inTrap := none, resume := Sys2Proof.Machine.SeqState.idle, prePc := 0, tsafe := true, sinceCmt := 0, wdogHit := false, wait := none, trapWait := none, words := 0 }), (12290), (0), by unfold Alive; decide +kernel, by decide +kernel⟩

theorem witness_CommitWordCommits :
    (∃ (q : Nat), ∃ (s : State), ∃ (o : Nat), ∃ (k : Cmd), Alive s ∧ seqPresent s q = true ∧ (sq s q).state = SeqState.run ∧ (sq s q).wait = none ∧ trapDue (sq s q) = false ∧ parityFails (storeWord s q (sq s q).pc) = 0 ∧ reservedCode (storeWord s q (sq s q).pc) = false ∧ (mDsp (storeWord s q (sq s q).pc) = true → q = 0) ∧ mMop (storeWord s q (sq s q).pc) = 0 ∧ xioOp (storeWord s q (sq s q).pc) = 0 ∧ mEvt (storeWord s q (sq s q).pc) = 0 ∧ mStk (storeWord s q (sq s q).pc) = 0 ∧ mCmt (storeWord s q (sq s q).pc) = true ∧ mWait (storeWord s q (sq s q).pc) = 0 ∧ mNac (storeWord s q (sq s q).pc) = 0 ∧ mCnt (storeWord s q (sq s q).pc) = 0 ∧ mAlu (storeWord s q (sq s q).pc) = 0 ∧ (isJsq q = true → inOpen (sq s q).pc = true → mRing (storeWord s q (sq s q).pc) < 2) ∧ mDst (storeWord s q (sq s q).pc) = 32 ∧ (sq s q).prePc < 39 ∧ (nth (sq s q).ctxs (sq s q).ctx Ctx.reset).origin = some o ∧ Tellable s o k ∧ (sq s q).pubs = [] ∧ mRing (storeWord s q (sq s q).pc) = 1) ∧
    (∃ (q : Nat), ∃ (s : State), ∃ (o : Nat), ∃ (k : Cmd), Alive s ∧ seqPresent s q = true ∧ (sq s q).state = SeqState.run ∧ (sq s q).wait = none ∧ trapDue (sq s q) = false ∧ parityFails (storeWord s q (sq s q).pc) = 0 ∧ reservedCode (storeWord s q (sq s q).pc) = false ∧ (mDsp (storeWord s q (sq s q).pc) = true → q = 0) ∧ mMop (storeWord s q (sq s q).pc) = 0 ∧ xioOp (storeWord s q (sq s q).pc) = 0 ∧ mEvt (storeWord s q (sq s q).pc) = 0 ∧ mStk (storeWord s q (sq s q).pc) = 0 ∧ mCmt (storeWord s q (sq s q).pc) = true ∧ mWait (storeWord s q (sq s q).pc) = 0 ∧ mNac (storeWord s q (sq s q).pc) = 0 ∧ mCnt (storeWord s q (sq s q).pc) = 0 ∧ mAlu (storeWord s q (sq s q).pc) = 0 ∧ (isJsq q = true → inOpen (sq s q).pc = true → mRing (storeWord s q (sq s q).pc) < 2) ∧ mDst (storeWord s q (sq s q).pc) = 32 ∧ (sq s q).prePc < 39 ∧ (nth (sq s q).ctxs (sq s q).ctx Ctx.reset).origin = some o ∧ Tellable s o k ∧ (sq s q).pubs = [] ∧ mRing (storeWord s q (sq s q).pc) ≠ 1 ∧ (nth (sq s q).ctxs (sq s q).ctx Ctx.reset).abort = true) ∧
    (∃ (q : Nat), ∃ (s : State), ∃ (o : Nat), ∃ (k : Cmd), Alive s ∧ seqPresent s q = true ∧ (sq s q).state = SeqState.run ∧ (sq s q).wait = none ∧ trapDue (sq s q) = false ∧ parityFails (storeWord s q (sq s q).pc) = 0 ∧ reservedCode (storeWord s q (sq s q).pc) = false ∧ (mDsp (storeWord s q (sq s q).pc) = true → q = 0) ∧ mMop (storeWord s q (sq s q).pc) = 0 ∧ xioOp (storeWord s q (sq s q).pc) = 0 ∧ mEvt (storeWord s q (sq s q).pc) = 0 ∧ mStk (storeWord s q (sq s q).pc) = 0 ∧ mCmt (storeWord s q (sq s q).pc) = true ∧ mWait (storeWord s q (sq s q).pc) = 0 ∧ mNac (storeWord s q (sq s q).pc) = 0 ∧ mCnt (storeWord s q (sq s q).pc) = 0 ∧ mAlu (storeWord s q (sq s q).pc) = 0 ∧ (isJsq q = true → inOpen (sq s q).pc = true → mRing (storeWord s q (sq s q).pc) < 2) ∧ mDst (storeWord s q (sq s q).pc) = 32 ∧ (sq s q).prePc < 39 ∧ (nth (sq s q).ctxs (sq s q).ctx Ctx.reset).origin = some o ∧ Tellable s o k ∧ (sq s q).pubs = [] ∧ mRing (storeWord s q (sq s q).pc) ≠ 1 ∧ (nth (sq s q).ctxs (sq s q).ctx Ctx.reset).abort = false) ∧
    (∃ (q : Nat), ∃ (s : State), ∃ (o : Nat), ∃ (k : Cmd), Alive s ∧ seqPresent s q = true ∧ (sq s q).state = SeqState.run ∧ (sq s q).wait = none ∧ trapDue (sq s q) = false ∧ parityFails (storeWord s q (sq s q).pc) = 0 ∧ reservedCode (storeWord s q (sq s q).pc) = false ∧ (mDsp (storeWord s q (sq s q).pc) = true → q = 0) ∧ mMop (storeWord s q (sq s q).pc) = 0 ∧ xioOp (storeWord s q (sq s q).pc) = 0 ∧ mEvt (storeWord s q (sq s q).pc) = 0 ∧ mStk (storeWord s q (sq s q).pc) = 0 ∧ mCmt (storeWord s q (sq s q).pc) = true ∧ mWait (storeWord s q (sq s q).pc) = 0 ∧ mNac (storeWord s q (sq s q).pc) = 0 ∧ mCnt (storeWord s q (sq s q).pc) = 0 ∧ mAlu (storeWord s q (sq s q).pc) = 0 ∧ (isJsq q = true → inOpen (sq s q).pc = true → mRing (storeWord s q (sq s q).pc) < 2) ∧ mDst (storeWord s q (sq s q).pc) = 32 ∧ (sq s q).prePc < 39 ∧ (nth (sq s q).ctxs (sq s q).ctx Ctx.reset).origin = some o ∧ Tellable s o k ∧ (sq s q).pubs ≠ [] ∧ s.pcie.bme = false) ∧
    (∃ (q : Nat), ∃ (s : State), Alive s ∧ seqPresent s q = true ∧ (sq s q).state = SeqState.run ∧ (sq s q).wait = none ∧ trapDue (sq s q) = false ∧ parityFails (storeWord s q (sq s q).pc) = 0 ∧ reservedCode (storeWord s q (sq s q).pc) = false ∧ (mDsp (storeWord s q (sq s q).pc) = true → q = 0) ∧ mMop (storeWord s q (sq s q).pc) = 0 ∧ xioOp (storeWord s q (sq s q).pc) = 0 ∧ mEvt (storeWord s q (sq s q).pc) = 0 ∧ mStk (storeWord s q (sq s q).pc) = 0 ∧ mCmt (storeWord s q (sq s q).pc) = true ∧ mWait (storeWord s q (sq s q).pc) = 0 ∧ mNac (storeWord s q (sq s q).pc) = 0 ∧ mCnt (storeWord s q (sq s q).pc) = 0 ∧ mAlu (storeWord s q (sq s q).pc) = 0 ∧ (isJsq q = true → inOpen (sq s q).pc = true → mRing (storeWord s q (sq s q).pc) < 2) ∧ mDst (storeWord s q (sq s q).pc) = 32 ∧ (sq s q).prePc < 39 ∧ (nth (sq s q).ctxs (sq s q).ctx Ctx.reset).origin = none) :=
  ⟨⟨4, seqS 4 (running 7) [(7, word [(35, 1), (88, 0x20), (56, 1), (72, 0x55)])], 9, openCmd opNop 0x99 9 4, by unfold Alive; decide +kernel, by decide +kernel, by decide +kernel, by decide +kernel, by decide +kernel, by decide +kernel, by decide +kernel, by decide +kernel, by decide +kernel, by decide +kernel, by decide +kernel, by decide +kernel, by decide +kernel, by decide +kernel, by decide +kernel, by decide +kernel, by decide +kernel, by decide +kernel, by decide +kernel, by decide +kernel, by decide +kernel, (tellable_iff _ _ _).2 (by decide +kernel), by decide +kernel⟩,
   ⟨4, seqS 4 { running 7 with ctxs := [{ Ctx.reset with origin := some 9, abort := true }, Ctx.reset, Ctx.reset, Ctx.reset] } [(7, word [(35, 1), (88, 0x20)])], 9, openCmd opNop 0x99 9 4, by unfold Alive; decide +kernel, by decide +kernel, by decide +kernel, by decide +kernel, by decide +kernel, by decide +kernel, by decide +kernel, by decide +kernel, by decide +kernel, by decide +kernel, by decide +kernel, by decide +kernel, by decide +kernel, by decide +kernel, by decide +kernel, by decide +kernel, by decide +kernel, by decide +kernel, by decide +kernel, by decide +kernel, by decide +kernel, (tellable_iff _ _ _).2 (by decide +kernel), by decide +kernel⟩,
   ⟨4, seqS 4 (running 7) [(7, word [(35, 1), (88, 0x20)])], 9, openCmd opNop 0x99 9 4, by unfold Alive; decide +kernel, by decide +kernel, by decide +kernel, by decide +kernel, by decide +kernel, by decide +kernel, by decide +kernel, by decide +kernel, by decide +kernel, by decide +kernel, by decide +kernel, by decide +kernel, by decide +kernel, by decide +kernel, by decide +kernel, by decide +kernel, by decide +kernel, by decide +kernel, by decide +kernel, by decide +kernel, by decide +kernel, (tellable_iff _ _ _).2 (by decide +kernel), by decide +kernel⟩,
   ⟨4, (let s := seqS 4 { running 7 with pubs := [{ addr := 64, bytes := [1] }] } [(7, word [(35, 1), (88, 0x20)])]; { s with pcie := { s.pcie with bme := false } }), 9, openCmd opNop 0x99 9 4, by unfold Alive; decide +kernel, by decide +kernel, by decide +kernel, by decide +kernel, by decide +kernel, by decide +kernel, by decide +kernel, by decide +kernel, by decide +kernel, by decide +kernel, by decide +kernel, by decide +kernel, by decide +kernel, by decide +kernel, by decide +kernel, by decide +kernel, by decide +kernel, by decide +kernel, by decide +kernel, by decide +kernel, by decide +kernel, (tellable_iff _ _ _).2 (by decide +kernel), by decide +kernel⟩,
   ⟨4, seqS 4 { running 7 with ctxs := [Ctx.reset, Ctx.reset, Ctx.reset, Ctx.reset] } [(7, word [(35, 1), (88, 0x20)])], by unfold Alive; decide +kernel, by decide +kernel⟩⟩

theorem witness_TrapIsTaken :
    (∃ (q : Nat), ∃ (s : State), ∃ (c : TrapCause), ∃ (d : Nat), Alive s ∧ trapReady s q = true ∧ firstTrap (sq s q) = some (c, d) ∧ frameOwned s q = true ∧ s.banks.mem.wf = true ∧ (c = TrapCause.unit ∧ d ≠ hostTimeoutDetail ∨ c = TrapCause.preempt ∧ ∀ (k : QCmd), k ∈ (sq s q).queue → k.origin ≠ d)) ∧
    (∃ (q : Nat), ∃ (s : State), ∃ (c : TrapCause), ∃ (d : Nat), ∃ (o : Nat), ∃ (k : Cmd), Alive s ∧ trapReady s q = true ∧ firstTrap (sq s q) = some (c, d) ∧ frameOwned s q = true ∧ s.banks.mem.wf = true ∧ (c = TrapCause.abort ∧ o = d ∨ c = TrapCause.wdog ∧ (nth (sq s q).ctxs (sq s q).ctx Ctx.reset).origin = some o) ∧ cmd? s o = some k) ∧
    (∃ (q : Nat), ∃ (s : State), ∃ (c : TrapCause), ∃ (d : Nat), ∃ (o : Nat), ∃ (k : Cmd), Alive s ∧ trapReady s q = true ∧ firstTrap (sq s q) = some (c, d) ∧ frameOwned s q = true ∧ s.banks.mem.wf = true ∧ (nth (sq s q).ctxs (sq s q).ctx Ctx.reset).origin = some o ∧ Tellable s o k ∧ c = TrapCause.priv) ∧
    (∃ (q : Nat), ∃ (s : State), ∃ (c : TrapCause), ∃ (d : Nat), ∃ (o : Nat), ∃ (k : Cmd), Alive s ∧ trapReady s q = true ∧ firstTrap (sq s q) = some (c, d) ∧ frameOwned s q = true ∧ s.banks.mem.wf = true ∧ (nth (sq s q).ctxs (sq s q).ctx Ctx.reset).origin = some o ∧ Tellable s o k ∧ c = TrapCause.unit ∧ d = hostTimeoutDetail) ∧
    (∃ (q : Nat), ∃ (s : State), ∃ (c : TrapCause), ∃ (d : Nat), ∃ (o : Nat), ∃ (x : QCmd), ∃ (k : Cmd), Alive s ∧ trapReady s q = true ∧ firstTrap (sq s q) = some (c, d) ∧ frameOwned s q = true ∧ s.banks.mem.wf = true ∧ c = TrapCause.preempt ∧ d = o ∧ Tellable s o k ∧ List.find? (fun (y : QCmd) => y.origin == o) (sq s q).queue = some x ∧ (k.opcode = opLaneSet ∨ k.opcode = opThermalProfile)) :=
  ⟨⟨4, trapping 4 [(.preempt, 0)], (Sys2Proof.Machine.TrapCause.preempt), 0, by unfold Alive; decide +kernel, by decide +kernel⟩,
   ⟨4, trapping 4 [(.wdog, 0)], (Sys2Proof.Machine.TrapCause.wdog), 0, 9, openCmd opNop 0x99 9 4, by unfold Alive; decide +kernel, by decide +kernel⟩,
   ⟨4, trapping 4 [(.priv, 0)], (Sys2Proof.Machine.TrapCause.priv), 0, 9, openCmd opNop 0x99 9 4, by unfold Alive; decide +kernel, by decide +kernel, by decide +kernel, by decide +kernel, by decide +kernel, by decide +kernel, (tellable_iff _ _ _).2 (by decide +kernel), by decide +kernel⟩,
   ⟨4, trapping 4 [(.unit, hostTimeoutDetail)], (Sys2Proof.Machine.TrapCause.unit), (6291457), 9, openCmd opNop 0x99 9 4, by unfold Alive; decide +kernel, by decide +kernel, by decide +kernel, by decide +kernel, by decide +kernel, by decide +kernel, (tellable_iff _ _ _).2 (by decide +kernel), by decide +kernel⟩,
   ⟨4, preempting, (Sys2Proof.Machine.TrapCause.preempt), 11, 11, { origin := 11, entryPc := 0, opword := 0, params := [], kind := .preempt }, openCmd opThermalProfile 0x9A 11 4, by unfold Alive; decide +kernel, by decide +kernel, by decide +kernel, by decide +kernel, by decide +kernel, by decide +kernel, by decide +kernel, (tellable_iff _ _ _).2 (by decide +kernel), by decide +kernel⟩⟩

theorem witness_TrapAndReturnRestoreTheSequencer :
    (∃ (q : Nat), ∃ (s : State), ∃ (c : TrapCause), ∃ (d : Nat), Alive s ∧ trapReady s q = true ∧ firstTrap (sq s q) = some (c, d) ∧ frameOwned s q = true ∧ s.banks.mem.wf = true ∧ ((sq s q).state = SeqState.run ∨ (sq s q).state = SeqState.wait) ∧ (sq s q).hold = [] ∧ (sq s q).pc < 16384 ∧ (sq s q).ctx < 4 ∧ (sq s q).ctxs.length = 4 ∧ (sq s q).w.length = 32 ∧ (sq s q).lc.length = 4 ∧ (∀ (v : Nat), v ∈ (sq s q).lc → v < 65536) ∧ (sq s q).stack.length ≤ seqStack q ∧ (∀ (y : Ctx), y ∈ (sq s q).ctxs → y.abort = true → y.origin.isSome = true) ∧ (nth (sq s q).ctxs (sq s q).ctx Ctx.reset).origin.isSome = true ∧ (c = TrapCause.unit ∧ d ≠ hostTimeoutDetail ∨ c = TrapCause.preempt ∧ ∀ (k : QCmd), k ∈ (sq s q).queue → k.origin ≠ d)) ∧
    (∃ (q : Nat), ∃ (s : State), ∃ (c : TrapCause), ∃ (d : Nat), ∃ (k : Cmd), Alive s ∧ trapReady s q = true ∧ firstTrap (sq s q) = some (c, d) ∧ frameOwned s q = true ∧ s.banks.mem.wf = true ∧ ((sq s q).state = SeqState.run ∨ (sq s q).state = SeqState.wait) ∧ (sq s q).hold = [] ∧ (sq s q).pc < 16384 ∧ (sq s q).ctx < 4 ∧ (sq s q).ctxs.length = 4 ∧ (sq s q).w.length = 32 ∧ (sq s q).lc.length = 4 ∧ (∀ (v : Nat), v ∈ (sq s q).lc → v < 65536) ∧ (sq s q).stack.length ≤ seqStack q ∧ (∀ (y : Ctx), y ∈ (sq s q).ctxs → y.abort = true → y.origin.isSome = true) ∧ (nth (sq s q).ctxs (sq s q).ctx Ctx.reset).origin.isSome = true ∧ c = TrapCause.preempt ∧ cmd? s d = some k ∧ (k.opcode = opLaneSet ∨ k.opcode = opThermalProfile) ∧ (∃ (y : QCmd), y ∈ (sq s q).queue ∧ y.origin = d) ∧ (nth (sq s q).ctxs (sq s q).ctx Ctx.reset).origin ≠ some d) :=
  ⟨⟨4, trapping 4 [(.preempt, 0)], (Sys2Proof.Machine.TrapCause.preempt), 0, by unfold Alive; decide +kernel, by decide +kernel⟩,
   ⟨4, preempting, (Sys2Proof.Machine.TrapCause.preempt), 11, openCmd opThermalProfile 0x9A 11 4, by unfold Alive; decide +kernel, by decide +kernel, by decide +kernel, by decide +kernel, by decide +kernel, by decide +kernel, by decide +kernel, by decide +kernel, by decide +kernel, by decide +kernel, by decide +kernel, by decide +kernel, by decide +kernel, by decide +kernel, by decide +kernel, by decide +kernel, by decide +kernel, by decide +kernel, by decide +kernel, by and_intros <;> first | decide +kernel | exact .inl (by decide +kernel) | (intro x h; cases h; done) | (intro c; cases c <;> decide +kernel), by decide +kernel⟩⟩

theorem witness_SequencerChecksStopIt :
    (∃ (q : Nat), ∃ (s : State), ∃ (c : Nat), Alive s ∧ 1 ≤ c ∧ c ≤ 7 ∧ seqPresent s q = true ∧ (sq s q).state ≠ SeqState.stopped) ∧
    (∃ (q : Nat), ∃ (s : State), ∃ (c : Nat), Alive s ∧ (¬(1 ≤ c ∧ c ≤ 7) ∨ seqPresent s q = false ∨ (sq s q).state = SeqState.stopped)) ∧
    (∃ (q : Nat), ∃ (s : State), Alive s ∧ runsLong s q = false) ∧
    (∃ (q : Nat), ∃ (s : State), Alive s ∧ seqPresent s q = true ∧ wdt s ≠ 0 ∧ (sq s q).state ≠ SeqState.stopped ∧ runsLong s q = true ∧ s.tb.time < (sq s q).sinceCmt + 64 * wdt s) ∧
    (∃ (q : Nat), ∃ (s : State), Alive s ∧ seqPresent s q = true ∧ wdt s ≠ 0 ∧ (sq s q).state ≠ SeqState.stopped ∧ runsLong s q = true ∧ (sq s q).sinceCmt + 64 * wdt s ≤ s.tb.time ∧ (sq s q).wdogHit = false ∧ ∀ (p : TrapCause × Nat), p ∈ (sq s q).pendTrap → p.fst ≠ TrapCause.wdog) ∧
    (∃ (q : Nat), ∃ (s : State), Alive s ∧ seqPresent s q = true ∧ wdt s ≠ 0 ∧ (sq s q).state ≠ SeqState.stopped ∧ runsLong s q = true ∧ (sq s q).sinceCmt + 128 * wdt s ≤ s.tb.time ∧ (sq s q).wdogHit = true) ∧
    (∃ (q : Nat), ∃ (s : State), Alive s ∧ seqPresent s q = true ∧ (sq s q).state = SeqState.handler ∧ (frameOwned s q = false ∨ (∀ (i : Nat), i < 64 → bankPoison s (seqBank q) (frameWord q + i) = false) ∧ crc32c (List.flatMap (fun (v : Nat) => leBytes 8 v) (List.map (fun (i : Nat) => BitVec.toNat (bankWord s (seqBank q) (frameWord q + i))) (List.range 63))) ≠ BitVec.toNat (bankWord s (seqBank q) (frameWord q + 63)) % 2 ^ 32)) :=
  ⟨⟨0, preempting, 1, by unfold Alive; decide +kernel, by decide +kernel⟩,
   ⟨0, preempting, 0, by unfold Alive; decide +kernel, by decide +kernel⟩,
   ⟨0, preempting, by unfold Alive; decide +kernel, by decide +kernel⟩,
   ⟨4, watched 3199 false, by unfold Alive; decide +kernel, by decide +kernel⟩,
   ⟨4, watched 3200 false, by unfold Alive; decide +kernel, by decide +kernel⟩,
   ⟨4, watched 6400 true, by unfold Alive; decide +kernel, by decide +kernel⟩,
   ⟨4, ownBanks 5 0 (seqS 4 { running 7 with state := .handler } []), by unfold Alive; decide +kernel, by decide +kernel⟩⟩

theorem witness_BankAccessesReadAndWrite :
    (∃ (m : BankUser), ∃ (k : Nat), ∃ (w : Nat), ∃ (v : W64), ∃ (s : State), ∃ (owner : Bool), Alive s ∧ s.banks.mem.wf = true ∧ portFor s m k w (PortOp.write v) = some owner) ∧
    (∃ (m : BankUser), ∃ (k : Nat), ∃ (w : Nat), ∃ (v : W64), ∃ (s : State), ∃ (owner : Bool), ∃ (q : Nat), Alive s ∧ s.banks.mem.wf = true ∧ m = BankUser.seq q ∧ portFor s m k w (PortOp.fetchAdd v) = some owner ∧ bankPoison s k w = false) ∧
    (∃ (m : BankUser), ∃ (k : Nat), ∃ (w : Nat), ∃ (v : W64), ∃ (s : State), ∃ (owner : Bool), ∃ (q : Nat), Alive s ∧ s.banks.mem.wf = true ∧ m = BankUser.seq q ∧ portFor s m k w (PortOp.swap v) = some owner ∧ bankPoison s k w = false) ∧
    (∃ (m : BankUser), ∃ (k : Nat), ∃ (w : Nat), ∃ (s : State), ∃ (owner : Bool), Alive s ∧ s.banks.mem.wf = true ∧ portFor s m k w PortOp.read = some owner ∧ bankPoison s k w = false) :=
  ⟨⟨.seq 9, 0, 0, 5, ownBanks 0 4 up, true, by unfold Alive; decide +kernel, by decide +kernel⟩,
   ⟨.seq 0, 0, 0, 5, ownBanks 0 4 up, false, 0, by unfold Alive; decide +kernel, by decide +kernel⟩,
   ⟨.seq 0, 0, 0, 5, ownBanks 0 4 up, false, 0, by unfold Alive; decide +kernel, by decide +kernel⟩,
   ⟨.seq 9, 0, 0, ownBanks 0 4 up, true, by unfold Alive; decide +kernel, by decide +kernel⟩⟩

theorem witness_BankAccessWithoutOwnershipIsRefused :
    (∃ (m : BankUser), ∃ (k : Nat), ∃ (w : Nat), ∃ (v : W64), ∃ (s : State), Alive s ∧ k < 12 ∧ w < bankWords ∧ userPresent s m = true ∧ (∀ (x : Nat), m ≠ BankUser.codec x) ∧ portFor s m k w (PortOp.write v) = none) ∧
    (∃ (m : BankUser), ∃ (k : Nat), ∃ (w : Nat), ∃ (s : State), Alive s ∧ k < 12 ∧ w < bankWords ∧ userPresent s m = true ∧ (∀ (x : Nat), m ≠ BankUser.codec x) ∧ portFor s m k w PortOp.read = none) :=
  ⟨⟨.host, 0, 0, 5, ownBanks 0 4 up, by unfold Alive; decide +kernel, by decide +kernel, by decide +kernel, by decide +kernel, by and_intros <;> first | decide +kernel | exact .inl (by decide +kernel) | (intro x h; cases h; done) | (intro c; cases c <;> decide +kernel), by decide +kernel⟩,
   ⟨.host, 0, 0, ownBanks 0 4 up, by unfold Alive; decide +kernel, by decide +kernel, by decide +kernel, by decide +kernel, by and_intros <;> first | decide +kernel | exact .inl (by decide +kernel) | (intro x h; cases h; done) | (intro c; cases c <;> decide +kernel), by decide +kernel⟩⟩

theorem witness_BankOwnershipIsHandedOver :
    (∃ (k : Nat), ∃ (s : State), ∃ (m : BankUser), ∃ (v : W32), Alive s ∧ k < 12 ∧ userPresent s m = true ∧ mayHand s m k = true ∧ handBad s k (fld v 3 0) (fld v 15 12) = false) ∧
    (∃ (k : Nat), ∃ (s : State), Alive s ∧ k < 12 ∧ pendOf s k = true) ∧
    (∃ (k : Nat), ∃ (s : State), Alive s ∧ k < 12 ∧ pendOf s k = false) ∧
    (∃ (k : Nat), ∃ (s : State), Alive s ∧ k < 12) :=
  ⟨⟨0, ownBanks 0 4 up, .seq 9, 0x4007, by unfold Alive; decide +kernel, by decide +kernel⟩,
   ⟨0, withRegs [(ownOff 0, 0x80000040)] up, by unfold Alive; decide +kernel, by decide +kernel⟩,
   ⟨0, ownBanks 0 4 up, by unfold Alive; decide +kernel, by decide +kernel⟩,
   ⟨0, ownBanks 0 4 up, by unfold Alive; decide +kernel, by decide +kernel⟩⟩

theorem witness_BothPortsWritingOneWordCollide :
    (∃ (m : BankUser), ∃ (u : BankUser), ∃ (k : Nat), ∃ (w : Nat), ∃ (v : W64), ∃ (op : PortOp), ∃ (o2 : PortOp), ∃ (s : State), ∃ (owner : Bool), ∃ (c : Instr), Alive s ∧ k < 12 ∧ w < bankWords ∧ userPresent s m = true ∧ portFor s m k w op = some owner ∧ usesPort s (!owner) u k w o2 = true ∧ o2 ≠ PortOp.read ∧ (bankPoison s k w = false ∨ ∃ (x : W64), op = PortOp.write v ∧ o2 = PortOp.write x) ∧ (c = Instr.bankWrite m k w v (some (u, o2)) ∧ op = PortOp.write v ∨ m ≠ BankUser.host ∧ c = Instr.fetchAdd m k w v (some (u, o2)) ∧ op = PortOp.fetchAdd v ∨ m ≠ BankUser.host ∧ c = Instr.swap m k w v (some (u, o2)) ∧ op = PortOp.swap v)) ∧
    (∃ (m : BankUser), ∃ (u : BankUser), ∃ (k : Nat), ∃ (w : Nat), ∃ (v : W64), ∃ (op : PortOp), ∃ (o2 : PortOp), ∃ (s : State), ∃ (owner : Bool), ∃ (c : Instr), ∃ (d : Instr), Alive s ∧ k < 12 ∧ w < bankWords ∧ userPresent s m = true ∧ portFor s m k w op = some owner ∧ usesPort s (!owner) u k w o2 = true ∧ o2 ≠ PortOp.read ∧ (bankPoison s k w = false ∨ ∃ (x : W64), op = PortOp.write v ∧ o2 = PortOp.write x) ∧ (c = Instr.bankWrite m k w v (some (u, o2)) ∧ op = PortOp.write v ∨ m ≠ BankUser.host ∧ c = Instr.fetchAdd m k w v (some (u, o2)) ∧ op = PortOp.fetchAdd v ∨ m ≠ BankUser.host ∧ c = Instr.swap m k w v (some (u, o2)) ∧ op = PortOp.swap v) ∧ (d = Instr.bankWrite m k w v (some (u, PortOp.read)) ∧ op = PortOp.write v ∨ m ≠ BankUser.host ∧ d = Instr.fetchAdd m k w v (some (u, PortOp.read)) ∧ op = PortOp.fetchAdd v ∨ m ≠ BankUser.host ∧ d = Instr.swap m k w v (some (u, PortOp.read)) ∧ op = PortOp.swap v) ∧ usesPort s (!owner) u k w PortOp.read = true) :=
  ⟨⟨.seq 0, .seq 9, 0, 0, 5, .write 5, .write 5, ownBanks 0 4 up, false, .bankWrite (.seq 0) 0 0 5 (some (.seq 9, .write 5)), by unfold Alive; decide +kernel, by decide +kernel, by decide +kernel, by decide +kernel, by decide +kernel, by decide +kernel, by decide +kernel, by and_intros <;> first | decide +kernel | exact .inl (by decide +kernel) | (intro x h; cases h; done) | (intro c; cases c <;> decide +kernel), by decide +kernel⟩,
   ⟨.seq 0, .seq 9, 0, 0, 5, .write 5, .write 5, ownBanks 0 4 up, false, .bankWrite (.seq 0) 0 0 5 (some (.seq 9, .write 5)), .bankWrite (.seq 0) 0 0 5 (some (.seq 9, .read)), by unfold Alive; decide +kernel, by decide +kernel, by decide +kernel, by decide +kernel, by decide +kernel, by decide +kernel, by decide +kernel, by and_intros <;> first | decide +kernel | exact .inl (by decide +kernel) | (intro x h; cases h; done) | (intro c; cases c <;> decide +kernel), by decide +kernel⟩⟩

theorem witness_LinkTrainingAdvances :
    (∃ (n : Nat), ∃ (s : State), Alive s ∧ linkPresent s n = true ∧ 1 ≤ laneState s n ∧ laneState s n ≤ 5 ∧ trainingLate s n = false ∧ (laneState s n = lnFeclock → 8 ≤ (lane s n).fecRun)) ∧
    (∃ (n : Nat), ∃ (s : State), Alive s ∧ linkPresent s n = true ∧ laneState s n = lnEcho ∧ (lane s n).echoes = 64 ∧ trainingLate s n = false ∧ 2048 * ↑(latLimit (lnLatClass s n)) < (lane s n).sumD32) ∧
    (∃ (n : Nat), ∃ (s : State), Alive s ∧ linkPresent s n = true ∧ laneState s n = lnEcho ∧ (lane s n).echoes = 64 ∧ trainingLate s n = false ∧ (lane s n).sumD32 ≤ 2048 * ↑(latLimit (lnLatClass s n))) ∧
    (∃ (n : Nat), ∃ (s : State), Alive s ∧ linkPresent s n = true ∧ laneState s n = lnConfirm ∧ (lane s n).ackOk = true ∧ (lane s n).markOk = true ∧ trainingLate s n = false) ∧
    (∃ (n : Nat), ∃ (s : State), Alive s ∧ linkPresent s n = true ∧ inTraining s n = true ∧ (tblGet (lane s n).stateAt (laneState s n) 0 + stateTimeout (laneState s n) * usTicks ≤ s.tb.time ∨ (lane s n).trainStart + 60000 * usTicks ≤ s.tb.time)) ∧
    (∃ (n : Nat), ∃ (s : State), Alive s ∧ linkPresent s n = true ∧ afterCdr s n = true) :=
  ⟨⟨0, inLane 0 lnCdr id up, by unfold Alive; decide +kernel, by decide +kernel⟩,
   ⟨0, inLane 0 lnEcho (fun x => { x with echoes := 64, sumD32 := 2 ^ 40 }) up, by unfold Alive; decide +kernel, by decide +kernel⟩,
   ⟨0, inLane 0 lnEcho (fun x => { x with echoes := 64 }) up, by unfold Alive; decide +kernel, by decide +kernel⟩,
   ⟨128, inLane 128 lnConfirm (fun x => { x with ackOk := true, markOk := true }) up, by unfold Alive; decide +kernel, by decide +kernel⟩,
   ⟨0, clock 0 (10 ^ 9) (inLane 0 lnSigdet id up), by unfold Alive; decide +kernel, by decide +kernel⟩,
   ⟨0, inLane 0 lnEcho (fun x => { x with echoes := 64 }) up, by unfold Alive; decide +kernel, by decide +kernel⟩⟩

theorem witness_WavesOfTrainingEnd :
    (∃ (s : State), Alive s ∧ s.train = none) ∧
    (∃ (s : State), ∃ (w : Train), Alive s ∧ s.train = some w ∧ w.cur.any (inTraining s) = true) ∧
    (∃ (s : State), ∃ (w : Train), ∃ (k : Cmd), Alive s ∧ s.train = some w ∧ w.cur.any (inTraining s) = false ∧ Tellable s w.origin k ∧ k.abort = false ∧ w.waves = []) ∧
    (∃ (s : State), ∃ (w : Train), ∃ (k : Cmd), Alive s ∧ s.train = some w ∧ w.cur.any (inTraining s) = false ∧ Tellable s w.origin k ∧ k.abort = true) ∧
    (∃ (s : State), ∃ (w : Train), ∃ (k : Cmd), ∃ (v : List Nat), ∃ (rest : List (List Nat)), Alive s ∧ s.train = some w ∧ w.cur.any (inTraining s) = false ∧ Tellable s w.origin k ∧ k.abort = false ∧ w.waves = v :: rest) :=
  ⟨⟨up, by unfold Alive; decide +kernel, by decide +kernel⟩,
   ⟨inTrain [] [0] lnSigdet, ({ origin := 9, waves := [], cur := [0], failed := [] }), by unfold Alive; decide +kernel, by decide +kernel⟩,
   ⟨inTrain [] [0, 128] lnRun, ({ origin := 9, waves := [], cur := [0, 128], failed := [] }), openCmd opLinkTrain 0x99 9 4, by unfold Alive; decide +kernel, by decide +kernel, by decide +kernel, (tellable_iff _ _ _).2 (by decide +kernel), by decide +kernel⟩,
   ⟨{ inTrain [[10, 11]] [0] lnFailed with cmds := [{ openCmd opLinkTrain 0x99 9 4 with abort := true }] }, ({ origin := 9, waves := [[10, 11]], cur := [0], failed := [] }), { openCmd opLinkTrain 0x99 9 4 with abort := true }, by unfold Alive; decide +kernel, by decide +kernel, by decide +kernel, (tellable_iff _ _ _).2 (by decide +kernel), by decide +kernel⟩,
   ⟨inTrain [[10, 11]] [0] lnFailed, ({ origin := 9, waves := [[10, 11]], cur := [0], failed := [] }), openCmd opLinkTrain 0x99 9 4, [10, 11], [], by unfold Alive; decide +kernel, by decide +kernel, by decide +kernel, (tellable_iff _ _ _).2 (by decide +kernel), by decide +kernel⟩⟩

theorem witness_LossOfLockAndFastResume :
    (∃ (n : Nat), ∃ (s : State), Alive s ∧ linkPresent s n = true ∧ rxLocked s n = true ∧ (lane s n).uncorr < 2) ∧
    (∃ (n : Nat), ∃ (s : State), Alive s ∧ linkPresent s n = true ∧ rxLocked s n = true ∧ afterCdr s n = true ∧ (lane s n).uncorr = 2) ∧
    (∃ (n : Nat), ∃ (s : State), Alive s ∧ linkPresent s n = true ∧ seeksLock s n = true) ∧
    (∃ (n : Nat), ∃ (s : State), Alive s ∧ linkPresent s n = true ∧ laneState s n = lnRun) ∧
    (∃ (n : Nat), ∃ (s : State), Alive s ∧ linkPresent s n = true ∧ laneState s n = lnRun ∧ (lane s n).uncorr = 2) ∧
    (∃ (n : Nat), ∃ (s : State), ∃ (f : RxFrame), Alive s ∧ linkPresent s n = true ∧ laneState s n = lnResume ∧ rxLocked s n = true ∧ resumeLate s n = false ∧ frType f = tySample ∧ f.wrong ≤ 15) ∧
    (∃ (n : Nat), ∃ (s : State), Alive s ∧ linkPresent s n = true ∧ laneState s n = lnResume ∧ (lane s n).lossAt + downTimeout (lnLatClass s n) * usTicks ≤ s.tb.time) :=
  ⟨⟨0, inLane 0 lnRun id up, by unfold Alive; decide +kernel, by decide +kernel⟩,
   ⟨0, inLane 0 lnEcho (fun x => { x with uncorr := 2 }) up, by unfold Alive; decide +kernel, by decide +kernel⟩,
   ⟨0, inLane 0 lnFeclock id up, by unfold Alive; decide +kernel, by decide +kernel⟩,
   ⟨0, inLane 0 lnRun id up, by unfold Alive; decide +kernel, by decide +kernel⟩,
   ⟨0, inLane 0 lnRun (fun x => { x with uncorr := 2 }) up, by unfold Alive; decide +kernel, by decide +kernel⟩,
   ⟨0, inLane 0 lnResume (fun x => { x with fecRun := 8 }) up, frame_ 1 4095 [(0, 3), (9, 7)], by unfold Alive; decide +kernel, by decide +kernel⟩,
   ⟨0, clock 0 (10 ^ 9) (inLane 0 lnResume id up), by unfold Alive; decide +kernel, by decide +kernel⟩⟩

theorem witness_ReceivedFramesAreUsed :
    (∃ (n : Nat), ∃ (f : RxFrame), ∃ (s : State), Alive s ∧ linkPresent s n = true ∧ f.wrong ≤ 15 ∧ seeksLock s n = true ∧ frType f = tyIdle) ∧
    (∃ (n : Nat), ∃ (f : RxFrame), ∃ (s : State), Alive s ∧ linkPresent s n = true ∧ f.wrong ≤ 15 ∧ seeksLock s n = true ∧ frType f = tySample) ∧
    (∃ (n : Nat), ∃ (f : RxFrame), ∃ (s : State), Alive s ∧ linkPresent s n = true ∧ f.wrong ≤ 15 ∧ rxLocked s n = true ∧ frType f = tyIdle) ∧
    (∃ (n : Nat), ∃ (f : RxFrame), ∃ (s : State), Alive s ∧ linkPresent s n = true ∧ f.wrong ≤ 15 ∧ rxLocked s n = true ∧ isControl 4 f = true ∧ laneState s n ≠ lnTxeq) ∧
    (∃ (n : Nat), ∃ (f : RxFrame), ∃ (s : State), Alive s ∧ linkPresent s n = true ∧ f.wrong ≤ 15 ∧ rxLocked s n = true ∧ isControl 4 f = true ∧ laneState s n = lnTxeq) ∧
    (∃ (n : Nat), ∃ (f : RxFrame), ∃ (s : State), Alive s ∧ linkPresent s n = true ∧ f.wrong ≤ 15 ∧ rxLocked s n = true ∧ isControl 3 f = true ∧ laneState s n ≠ lnTxeq) ∧
    (∃ (n : Nat), ∃ (f : RxFrame), ∃ (s : State), Alive s ∧ linkPresent s n = true ∧ f.wrong ≤ 15 ∧ rxLocked s n = true ∧ isControl 3 f = true ∧ laneState s n = lnTxeq) ∧
    (∃ (n : Nat), ∃ (f : RxFrame), ∃ (s : State), Alive s ∧ linkPresent s n = true ∧ f.wrong ≤ 15 ∧ rxLocked s n = true ∧ 5 ≤ frType f) ∧
    (∃ (n : Nat), ∃ (f : RxFrame), ∃ (s : State), Alive s ∧ linkPresent s n = true ∧ f.wrong ≤ 15 ∧ rxLocked s n = true ∧ frType f = tySample ∧ laneState s n = lnRun ∧ n < 128) ∧
    (∃ (n : Nat), ∃ (f : RxFrame), ∃ (s : State), Alive s ∧ linkPresent s n = true ∧ f.wrong ≤ 15 ∧ rxLocked s n = true ∧ frType f = tySample ∧ laneState s n = lnRun ∧ 128 ≤ n) ∧
    (∃ (n : Nat), ∃ (f : RxFrame), ∃ (s : State), Alive s ∧ linkPresent s n = true ∧ f.wrong ≤ 15 ∧ rxLocked s n = true ∧ frType f = tySample ∧ (laneState s n = lnEcho ∨ laneState s n = lnConfirm) ∧ (lane s n).placed = true) ∧
    (∃ (n : Nat), ∃ (f : RxFrame), ∃ (s : State), Alive s ∧ linkPresent s n = true ∧ f.wrong ≤ 15 ∧ rxLocked s n = true ∧ frType f = tyMark ∧ laneState s n = lnRun ∧ n < 128 ∧ expectedPos s n (frSeq f) % 2 ^ 48 ≠ memLE f.payload 0 6) ∧
    (∃ (n : Nat), ∃ (f : RxFrame), ∃ (s : State), Alive s ∧ linkPresent s n = true ∧ f.wrong ≤ 15 ∧ rxLocked s n = true ∧ frType f = tyMark ∧ laneState s n = lnRun ∧ n < 128 ∧ expectedPos s n (frSeq f) % 2 ^ 48 = memLE f.payload 0 6) ∧
    (∃ (n : Nat), ∃ (f : RxFrame), ∃ (s : State), Alive s ∧ linkPresent s n = true ∧ f.wrong ≤ 15 ∧ rxLocked s n = true ∧ frType f = tyMark ∧ laneState s n = lnConfirm ∧ n < 128) ∧
    (∃ (n : Nat), ∃ (f : RxFrame), ∃ (s : State), Alive s ∧ linkPresent s n = true ∧ f.wrong ≤ 15 ∧ rxLocked s n = true ∧ isControl 2 f = true ∧ laneState s n = lnConfirm ∧ frData f 0 = lnAfmt s n ∧ frData f 1 = lnAdiv s n ∧ frData f 2 = 0) ∧
    (∃ (n : Nat), ∃ (f : RxFrame), ∃ (s : State), Alive s ∧ linkPresent s n = true ∧ f.wrong ≤ 15 ∧ rxLocked s n = true ∧ isControl 2 f = true ∧ laneState s n = lnConfirm ∧ frData f 2 ≠ 0 ∧ (lane s n).retrain = true) ∧
    (∃ (n : Nat), ∃ (f : RxFrame), ∃ (s : State), Alive s ∧ linkPresent s n = true ∧ f.wrong ≤ 15 ∧ rxLocked s n = true ∧ isControl 2 f = true ∧ laneState s n ≠ lnConfirm) ∧
    (∃ (n : Nat), ∃ (f : RxFrame), ∃ (s : State), Alive s ∧ linkPresent s n = true ∧ f.wrong ≤ 15 ∧ rxLocked s n = true ∧ frType f = tyEcho ∧ laneState s n = lnEcho ∧ (lane s n).echoes < 64) ∧
    (∃ (n : Nat), ∃ (f : RxFrame), ∃ (s : State), Alive s ∧ linkPresent s n = true ∧ f.wrong ≤ 15 ∧ rxLocked s n = true ∧ frType f = tyEcho ∧ laneState s n = lnRun) ∧
    (∃ (n : Nat), ∃ (f : RxFrame), ∃ (s : State), Alive s ∧ linkPresent s n = true ∧ f.wrong ≤ 15 ∧ rxLocked s n = true ∧ frType f = tyControl ∧ 32768 ≤ frCcode f ∧ n < 128 ∧ rf s (laneBase n + 36) 30 30 = 0) ∧
    (∃ (n : Nat), ∃ (f : RxFrame), ∃ (s : State), Alive s ∧ linkPresent s n = true ∧ f.wrong ≤ 15 ∧ rxLocked s n = true ∧ frType f = tyControl ∧ 32768 ≤ frCcode f ∧ n < 128 ∧ rf s (laneBase n + 36) 30 30 = 1) ∧
    (∃ (n : Nat), ∃ (f : RxFrame), ∃ (s : State), Alive s ∧ linkPresent s n = true ∧ f.wrong ≤ 15 ∧ rxLocked s n = true ∧ frType f = tyControl ∧ frCcode f < 32768 ∧ [2, 3, 4].contains (frCcode f) = false) :=
  ⟨⟨0, frame_ 0 7 [], inLane 0 lnFeclock id up, by unfold Alive; decide +kernel, by decide +kernel⟩,
   ⟨0, frame_ 1 4095 [(0, 3), (9, 7)], inLane 0 lnFeclock id up, by unfold Alive; decide +kernel, by decide +kernel⟩,
   ⟨0, frame_ 0 7 [], inLane 0 lnRun id up, by unfold Alive; decide +kernel, by decide +kernel⟩,
   ⟨0, frame_ 3 7 [(0, 4)], inLane 0 lnRun id up, by unfold Alive; decide +kernel, by decide +kernel⟩,
   ⟨0, frame_ 3 7 [(0, 4)], inLane 0 lnTxeq id up, by unfold Alive; decide +kernel, by decide +kernel⟩,
   ⟨0, frame_ 3 7 [(0, 3), (8, 2)], inLane 0 lnRun id up, by unfold Alive; decide +kernel, by decide +kernel⟩,
   ⟨0, frame_ 3 7 [(0, 3), (8, 2)], inLane 0 lnTxeq id up, by unfold Alive; decide +kernel, by decide +kernel⟩,
   ⟨0, frame_ 6 7 [], inLane 0 lnRun id up, by unfold Alive; decide +kernel, by decide +kernel⟩,
   ⟨0, frame_ 1 4095 [(0, 3), (9, 7)], inLane 0 lnRun id up, by unfold Alive; decide +kernel, by decide +kernel⟩,
   ⟨131, frame_ 1 4095 [(0, 3), (9, 7)], inLane 131 lnRun id up, by unfold Alive; decide +kernel, by decide +kernel⟩,
   ⟨0, frame_ 1 4095 [(0, 3), (9, 7)], inLane 0 lnEcho (fun x => { x with placed := true }) up, by unfold Alive; decide +kernel, by decide +kernel⟩,
   ⟨0, frame_ 2 7 [(0, 9)], inLane 0 lnRun id up, by unfold Alive; decide +kernel, by decide +kernel⟩,
   ⟨0, frame_ 2 7 [], inLane 0 lnRun id up, by unfold Alive; decide +kernel, by decide +kernel⟩,
   ⟨0, frame_ 2 7 [], inLane 0 lnConfirm (fun x => { x with retrain := true }) up, by unfold Alive; decide +kernel, by decide +kernel⟩,
   ⟨0, frame_ 3 7 [(0, 2)], inLane 0 lnConfirm (fun x => { x with retrain := true }) up, by unfold Alive; decide +kernel, by decide +kernel⟩,
   ⟨0, frame_ 3 7 [(0, 2), (10, 1)], inLane 0 lnConfirm (fun x => { x with retrain := true }) up, by unfold Alive; decide +kernel, by decide +kernel⟩,
   ⟨0, frame_ 3 7 [(0, 2)], inLane 0 lnRun id up, by unfold Alive; decide +kernel, by decide +kernel⟩,
   ⟨0, frame_ 4 7 [(0, 100), (8, 3)], inLane 0 lnEcho (fun x => { x with placed := true }) up, by unfold Alive; decide +kernel, by decide +kernel⟩,
   ⟨0, frame_ 4 7 [(0, 100), (8, 3)], inLane 0 lnRun id up, by unfold Alive; decide +kernel, by decide +kernel⟩,
   ⟨0, frame_ 3 7 [(1, 0x80), (9, 5)], inLane 0 lnRun id up, by unfold Alive; decide +kernel, by decide +kernel⟩,
   ⟨0, frame_ 3 7 [(1, 0x80), (9, 5)], withRegs [(laneBase 0 + 0x24, 0x40000000)] (inLane 0 lnRun id up), by unfold Alive; decide +kernel, by decide +kernel⟩,
   ⟨0, frame_ 3 7 [(0, 9)], inLane 0 lnRun id up, by unfold Alive; decide +kernel, by decide +kernel⟩⟩

theorem witness_LanesTransmitAndAreSet :
    (∃ (n : Nat), ∃ (s : State), Alive s ∧ linkPresent s n = true ∧ slotOpen s n = true ∧ echoDue s n = true) ∧
    (∃ (n : Nat), ∃ (s : State), ∃ (v : W32), Alive s ∧ s.pcie.memSpace = true ∧ n < laneCount s ∧ bit (BitVec.toNat v) 31 = true ∧ bit (BitVec.toNat v) 29 = false ∧ rf s (laneBase n + 36) 31 31 = 0 ∧ 32768 ≤ memLE (lane s n).txBuf 0 2) ∧
    (∃ (n : Nat), ∃ (s : State), ∃ (v : W32), Alive s ∧ s.pcie.memSpace = true ∧ n < laneCount s ∧ bit (BitVec.toNat v) 31 = false ∧ bit (BitVec.toNat v) 29 = true) ∧
    (∃ (n : Nat), ∃ (s : State), Alive s ∧ n < laneCount s ∧ rf s (laneBase n + 36) 31 31 = 1 ∧ (laneState s n = lnRun ∨ laneState s n = lnConfirm) ∧ slotOpen s n = true ∧ echoDue s n = false ∧ (lane s n).txq = []) ∧
    (∃ (n : Nat), ∃ (s : State), ∃ (v : W32), Alive s ∧ s.pcie.memSpace = true ∧ n < laneCount s ∧ bit (BitVec.toNat v) 0 = true ∧ armed s = false ∧ admitting s = false ∧ fmtAgrees (reg s (laneBase n)) (reg s (laneBase n + 4)) = true) ∧
    (∃ (n : Nat), ∃ (s : State), ∃ (v : W32), Alive s ∧ s.pcie.memSpace = true ∧ n < laneCount s ∧ bit (BitVec.toNat v) 0 = true ∧ armed s = false ∧ admitting s = false ∧ fmtAgrees (reg s (laneBase n)) (reg s (laneBase n + 4)) = false) ∧
    (∃ (n : Nat), ∃ (s : State), ∃ (v : W32), Alive s ∧ s.pcie.memSpace = true ∧ n < laneCount s ∧ bit (BitVec.toNat v) 0 = true ∧ (armed s = true ∨ admitting s = true)) ∧
    (∃ (n : Nat), ∃ (s : State), Alive s ∧ s.pcie.memSpace = true ∧ linkPresent s n = true ∧ armed s = false) ∧
    (∃ (n : Nat), ∃ (s : State), Alive s ∧ s.pcie.memSpace = true ∧ linkPresent s n = true ∧ armed s = true) :=
  ⟨⟨0, inLane 0 lnRun (fun x => { x with txBuf := [(1, 0x80)], txSlots := 1023 }) up, by unfold Alive; decide +kernel, by decide +kernel⟩,
   ⟨0, inLane 0 lnRun (fun x => { x with txBuf := [(1, 0x80)] }) up, 0x80000000, by unfold Alive; decide +kernel, by decide +kernel⟩,
   ⟨0, inCap .running 5 none [] none id up, 0x20000000, by unfold Alive; decide +kernel, by decide +kernel⟩,
   ⟨0, withRegs [(laneBase 0 + 0x24, 0x80000000)] (inLane 0 lnRun id up), by unfold Alive; decide +kernel, by decide +kernel⟩,
   ⟨0, inLane 0 lnRun (fun x => { x with txBuf := [(1, 0x80)] }) up, 1, by unfold Alive; decide +kernel, by decide +kernel⟩,
   ⟨0, inLane 0 lnRun id up |> withRegs [(laneBase 0, 0x100A), (laneBase 0 + 4, 0)], 1, by unfold Alive; decide +kernel, by decide +kernel⟩,
   ⟨0, inCap .running 5 none [] none id up, 1, by unfold Alive; decide +kernel, by decide +kernel⟩,
   ⟨0, inLane 0 lnRun (fun x => { x with txBuf := [(1, 0x80)] }) up, by unfold Alive; decide +kernel, by decide +kernel⟩,
   ⟨0, inCap .running 5 none [] none id up, by unfold Alive; decide +kernel, by decide +kernel⟩⟩

theorem witness_TimebaseChangesState :
    (∃ (s : State), Alive s ∧ tbState s = tbInitial) ∧
    (∃ (s : State), ∃ (c : LockFail), Alive s ∧ (tbState s = tbLocked ∨ tbState s = tbReacquire ∨ c = LockFail.refLoss ∧ tbState s = tbEclipse ∧ waitHost s = true) ∧ s.tb.order = none) ∧
    (∃ (s : State), Alive s ∧ tbState s = tbEclipse ∧ waitHost s = false ∧ s.tb.order = none) ∧
    (∃ (s : State), ∃ (d : Int), Alive s ∧ tbState s = tbEclipse ∧ waitHost s = false ∧ s.tb.eclipseAt + 1000 * usTicks ≤ s.tb.time ∧ (measured d s).natAbs < 2 ^ 31) ∧
    (∃ (s : State), ∃ (d : Int), Alive s ∧ tbState s = tbEclipse ∧ waitHost s = true ∧ s.tb.offsetAt + 1000 * usTicks ≤ s.tb.time ∧ (measured d s).natAbs < 2 ^ 31) ∧
    (∃ (s : State), ∃ (d : Int), Alive s ∧ tbState s = tbReacquire ∧ d.natAbs ≤ 1) :=
  ⟨⟨inTb tbInitial false up, by unfold Alive; decide +kernel, by decide +kernel⟩,
   ⟨up, .refLoss, by unfold Alive; decide +kernel, by decide +kernel⟩,
   ⟨clock 4096 (10 ^ 8) (inTb tbEclipse false up), by unfold Alive; decide +kernel, by decide +kernel⟩,
   ⟨clock 4096 (10 ^ 8) (inTb tbEclipse false up), 1, by unfold Alive; decide +kernel, by decide +kernel⟩,
   ⟨clock 4096 (10 ^ 8) (inTb tbEclipse true up), 1, by unfold Alive; decide +kernel, by decide +kernel⟩,
   ⟨inTb tbReacquire false up, 1, by unfold Alive; decide +kernel, by decide +kernel⟩⟩

theorem witness_FabricClockIsLostAndFound :
    (∃ (s : State), Alive s ∧ canSwitch s = true ∧ pllLocked s (pllAct s) = true ∧ s.tb.fabLost = none) ∧
    (∃ (s : State), Alive s ∧ canSwitch s = false ∧ pllLocked s (pllAct s) = true ∧ s.tb.fabLost = none) ∧
    (∃ (s : State), ∃ (a : Nat), Alive s ∧ s.tb.fabLost = some a) ∧
    (∃ (s : State), Alive s) ∧
    (∃ (s : State), ∃ (a : Nat), Alive s ∧ s.tb.fabLost = some a ∧ s.tb.fabAt + 1024000 ≤ s.tb.time ∧ pllLocked s 0 = false ∧ pllLocked s 1 = false) :=
  ⟨⟨plls 3 1 none 0, by unfold Alive; decide +kernel, by decide +kernel⟩,
   ⟨plls 3 0 none 0, by unfold Alive; decide +kernel, by decide +kernel⟩,
   ⟨plls 0 0 (some 64) 1024064, (64), by unfold Alive; decide +kernel, by decide +kernel⟩,
   ⟨plls 3 1 none 0, by unfold Alive; decide +kernel⟩,
   ⟨plls 0 0 (some 64) 1024064, (64), by unfold Alive; decide +kernel, by decide +kernel⟩⟩

theorem witness_ConjunctionRuns :
    (∃ (s : State), ∃ (c : Conj), Alive s ∧ s.tb.conj = some c ∧ c.p = 0 ∧ c.phase = ConjPhase.armed ∧ c.start + 100 * usTicks ≤ s.tb.time) ∧
    (∃ (s : State), ∃ (c : Conj), Alive s ∧ s.tb.conj = some c ∧ (c.p = 0 ∧ c.phase = ConjPhase.pulsed ∨ c.p ≠ 0 ∧ c.phase = ConjPhase.armed) ∧ c.p < 16 ∧ 1 ≤ c.n ∧ c.n ≤ 16) ∧
    (∃ (s : State), ∃ (c : Conj), ∃ (k : Cmd), Alive s ∧ s.tb.conj = some c ∧ Tellable s c.origin k ∧ c.phase = ConjPhase.aligned ∧ 1 < c.n ∧ c.hopAt.isSome = true) ∧
    (∃ (s : State), ∃ (c : Conj), ∃ (k : Cmd), ∃ (pos : Nat), Alive s ∧ s.tb.conj = some c ∧ Tellable s c.origin k ∧ c.phase = ConjPhase.aligned ∧ 1 < c.n ∧ c.hopAt.isSome = true ∧ pos ≠ (c.p + 1) % c.n) ∧
    (∃ (s : State), ∃ (c : Conj), ∃ (k : Cmd), ∃ (w : Nat), Alive s ∧ s.tb.conj = some c ∧ Tellable s c.origin k ∧ (w = 1 ∧ c.phase ≠ ConjPhase.aligned ∧ c.start + 100000 * usTicks ≤ s.tb.time ∨ c.phase = ConjPhase.aligned ∧ 1 < c.n ∧ ∃ (h : Nat), c.hopAt = some h ∧ (w = 2 ∨ w = 3 ∧ h + 2000 * usTicks ≤ s.tb.time))) :=
  ⟨⟨inConj 0 1 .armed (10 ^ 8), ({ p := 0, n := 1, conjT := 1000000, origin := 9, start := 0, phase := Sys2Proof.Machine.ConjPhase.armed, commits := 0, echoes := false, hopAt := none }), by unfold Alive; decide +kernel, by decide +kernel⟩,
   ⟨inConj 0 1 .pulsed 5, ({ p := 0, n := 1, conjT := 1000000, origin := 9, start := 0, phase := Sys2Proof.Machine.ConjPhase.pulsed, commits := 0, echoes := false, hopAt := none }), by unfold Alive; decide +kernel, by decide +kernel⟩,
   ⟨hopping 15 16 (10 ^ 8), ({ p := 15, n := 16, conjT := 1000000, origin := 9, start := 0, phase := Sys2Proof.Machine.ConjPhase.aligned, commits := 0, echoes := true, hopAt := some 0 }), openCmd opConjunction 0x99 9 0, by unfold Alive; decide +kernel, by decide +kernel, (tellable_iff _ _ _).2 (by decide +kernel), by decide +kernel⟩,
   ⟨hopping 15 16 (10 ^ 8), ({ p := 15, n := 16, conjT := 1000000, origin := 9, start := 0, phase := Sys2Proof.Machine.ConjPhase.aligned, commits := 0, echoes := true, hopAt := some 0 }), openCmd opConjunction 0x99 9 0, 1, by unfold Alive; decide +kernel, by decide +kernel, (tellable_iff _ _ _).2 (by decide +kernel), by decide +kernel⟩,
   ⟨hopping 15 16 (10 ^ 8), ({ p := 15, n := 16, conjT := 1000000, origin := 9, start := 0, phase := Sys2Proof.Machine.ConjPhase.aligned, commits := 0, echoes := true, hopAt := some 0 }), openCmd opConjunction 0x99 9 0, 2, by unfold Alive; decide +kernel, by decide +kernel, (tellable_iff _ _ _).2 (by decide +kernel), by and_intros <;> first | decide +kernel | exact .inl (by decide +kernel) | (intro x h; cases h; done) | (intro c; cases c <;> decide +kernel)⟩⟩

theorem witness_RealignStepsTheCounter :
    (∃ (r : Nat), ∃ (e : Entry), ∃ (s : State), Granted r opTimebaseRealign e [homeOf opTimebaseRealign] s ∧ (pn e.p0 = 1 ∨ pn e.p0 = 2 ∧ stepSize (tbOffset s) = 0) ∧ 1 ≤ pn e.p1 ∧ pn e.p1 ≤ 100 ∧ waitHost s = true ∧ s.tb.order = none) ∧
    (∃ (r : Nat), ∃ (e : Entry), ∃ (s : State), Granted r opTimebaseRealign e [homeOf opTimebaseRealign] s ∧ pn e.p0 = 2 ∧ stepSize (tbOffset s) ≠ 0 ∧ (anyActive s = true → 0 < stepSize (tbOffset s)) ∧ 1 ≤ pn e.p1 ∧ pn e.p1 ≤ 100 ∧ waitHost s = true ∧ s.tb.order = none) ∧
    (∃ (s : State), ∃ (o : StepOrder), ∃ (k : Cmd), Alive s ∧ s.tb.order = some o ∧ Tellable s o.origin k ∧ s.tb.tick ≠ 32 * (o.accepted / 32) + 32) ∧
    (∃ (s : State), ∃ (o : StepOrder), ∃ (k : Cmd), Alive s ∧ s.tb.order = some o ∧ Tellable s o.origin k ∧ s.tb.tick = 32 * (o.accepted / 32) + 32) :=
  ⟨⟨0, entry 2 1 0 0, setOffset 255 (inTb tbEclipse true up), granted_iff.2 (by unfold Alive; decide +kernel), by decide +kernel⟩,
   ⟨0, entry 2 1 0 0, setOffset 5000 (inTb tbEclipse true up), granted_iff.2 (by unfold Alive; decide +kernel), by decide +kernel⟩,
   ⟨stepping 4001, ({ origin := 9, accepted := 4000, ds := 32, r16 := 5, rate := 3, delta16 := 517 }), openCmd opTimebaseRealign 0x99 9 0, by unfold Alive; decide +kernel, by decide +kernel, (tellable_iff _ _ _).2 (by decide +kernel), by decide +kernel⟩,
   ⟨stepping 4032, ({ origin := 9, accepted := 4000, ds := 32, r16 := 5, rate := 3, delta16 := 517 }), openCmd opTimebaseRealign 0x99 9 0, by unfold Alive; decide +kernel, by decide +kernel, (tellable_iff _ _ _).2 (by decide +kernel), by decide +kernel⟩⟩

theorem witness_AutomataEvaluateASlice :
    (∃ (s : State), Alive s ∧ (s.tb.fabLost.isSome = true ∨ evaluating s = false ∨ s.tb.tick < nextSlice s)) ∧
    (∃ (s : State), Alive s ∧ s.tb.fabLost = none ∧ evaluating s = true ∧ nextSlice s ≤ s.tb.tick) ∧
    (∃ (s : State), ∃ (a : Nat), ∃ (u : Nat), Alive s ∧ a < 8 ∧ u < 4 ∧ a < s.au.autos.length ∧ u < (autoAt s.au.autos a).tallies.length ∧ evaluating s = true ∧ bit (pTlctl (plan s) a u) 13 = true ∧ pTlThr (plan s) a u ≤ (tallyAt (autoAt s.au.autos a) u).count) ∧
    (∃ (s : State), ∃ (i : Nat), Alive s ∧ i < 32 ∧ i < s.au.timers.length ∧ evaluating s = true ∧ timerLine (timerAt s.au.timers i) (epos s.cap (nextSlice s)) = true) ∧
    (∃ (s : State), Alive s) ∧
    (∃ (s : State), ∃ (u : TableUnit), ∃ (off : Nat), Alive s ∧ unitHere s u = true ∧ ∃ (i : Nat), i < 8 ∧ (unitByte (plan s) u (off / 8 * 8 + i)).isSome = true) ∧
    (∃ (s : State), ∃ (u : TableUnit), ∃ (off : Nat), Alive s ∧ unitHere s u = true ∧ ∃ (i : Nat), i < 8 ∧ (unitByte (plan s) u (off / 8 * 8 + i)).isSome = true) :=
  ⟨⟨up, by unfold Alive; decide +kernel, by decide +kernel⟩,
   ⟨inCap .running 8000 (some 4096) [] none id up, by unfold Alive; decide +kernel, by decide +kernel⟩,
   ⟨{ inCap .running 8000 (some 4096) [] none id up with au := { Autos.reset with lastSlice := some 4096, timers := [{ run := true, line := false, expiry := 4000 }], autos := [{ st := 0, tallies := [{ count := 5, done := false, prev := false }], flags := 3, gates := 0 }] } }, 0, 0, by unfold Alive; decide +kernel, by decide +kernel⟩,
   ⟨{ inCap .running 8000 (some 4096) [] none id up with au := { Autos.reset with lastSlice := some 4096, timers := [{ run := true, line := false, expiry := 4000 }], autos := [{ st := 0, tallies := [{ count := 5, done := false, prev := false }], flags := 3, gates := 0 }] } }, 0, by unfold Alive; decide +kernel, by decide +kernel⟩,
   ⟨up, by unfold Alive; decide +kernel⟩,
   ⟨up, .cluster 3, 0, by unfold Alive; decide +kernel, by decide +kernel, by and_intros <;> first | decide +kernel | exact .inl (by decide +kernel) | (intro x h; cases h; done) | (intro c; cases c <;> decide +kernel)⟩,
   ⟨up, .cluster 3, 0, by unfold Alive; decide +kernel, by decide +kernel, by and_intros <;> first | decide +kernel | exact .inl (by decide +kernel) | (intro x h; cases h; done) | (intro c; cases c <;> decide +kernel)⟩⟩

theorem witness_TriggerOutputsAndCascade :
    (∃ (s : State), Alive s ∧ (s.au.edges.any fun (u : Nat) => decide (u < s.tb.tick + 32)) = true) ∧
    (∃ (s : State), Alive s ∧ ∀ (u : Nat), u ∈ s.au.pulses → u + 2560 < s.tb.tick + 32) ∧
    (∃ (s : State), Alive s ∧ tblGet s.au.outbound 0 [] ≠ [] ∧ tblGet s.au.outbound 1 [] ≠ [] ∧ laneState s 128 = lnRun ∧ laneState s 129 = lnRun ∧ slotOpen s 128 = true ∧ slotOpen s 129 = true ∧ echoDue s 128 = false ∧ echoDue s 129 = false) ∧
    (∃ (s : State), ∃ (v : Nat), ∃ (rest : List Nat), Alive s ∧ s.au.rxq = v :: rest ∧ s.au.seen.contains (entryEvent s.tb.tick v) = true) ∧
    (∃ (s : State), ∃ (v : Nat), ∃ (rest : List Nat), Alive s ∧ s.au.rxq = v :: rest ∧ s.au.seen.contains (entryEvent s.tb.tick v) = false ∧ casTooLate s (entryEvent s.tb.tick v) = false) ∧
    (∃ (s : State), ∃ (v : Nat), ∃ (rest : List Nat), Alive s ∧ s.au.rxq = v :: rest ∧ s.au.seen.contains (entryEvent s.tb.tick v) = false ∧ casTooLate s (entryEvent s.tb.tick v) = true) :=
  ⟨⟨{ inLanes [128, 129] lnRun (inCap .running 6000 (some 5984) [] none id up) with au := { Autos.reset with lastSlice := some 5984, edges := [5000], pulses := [], outbound := [(0, [{ line := 1, origin := 2, otick := 5000 }]), (1, [{ line := 1, origin := 2, otick := 5000 }])] } }, by unfold Alive; decide +kernel, by decide +kernel⟩,
   ⟨up, by unfold Alive; decide +kernel, by decide +kernel⟩,
   ⟨{ inLanes [128, 129] lnRun (inCap .running 6000 (some 5984) [] none id up) with au := { Autos.reset with lastSlice := some 5984, edges := [5000], pulses := [], outbound := [(0, [{ line := 1, origin := 2, otick := 5000 }]), (1, [{ line := 1, origin := 2, otick := 5000 }])] } }, by unfold Alive; decide +kernel, by decide +kernel⟩,
   ⟨receiving 0x8000000000001388 [{ line := 0, origin := 0, otick := 5000 }], 0x8000000000000000 + 5000, [], by unfold Alive; decide +kernel, by decide +kernel⟩,
   ⟨receiving 0x8000000000001388 [], 0x8000000000000000 + 5000, [], by unfold Alive; decide +kernel, by decide +kernel⟩,
   ⟨receiving 0x888000000000003C [], 0x8880000000000000 + 60, [], by unfold Alive; decide +kernel, by decide +kernel⟩⟩

theorem witness_LongCommandsBegin :
    (∃ (r : Nat), ∃ (e : Entry), ∃ (s : State), Granted r opArm e [homeOf opArm] s ∧ armBad e (passEntry r s) = false ∧ armBusy (passEntry r s) = none) ∧
    (∃ (r : Nat), ∃ (e : Entry), ∃ (s : State), Granted r opLinkTrain e (4 :: clqsOf (maskLanes e)) s ∧ (maskLanes e ≠ [] ∨ maskCascade e ≠ []) ∧ linkTrainBad e (passEntry r s) = false ∧ linkTrainBusy e (passEntry r s) = false) ∧
    (∃ (r : Nat), ∃ (e : Entry), ∃ (s : State), Granted r opDramTrain e [8] s ∧ allIn s [1, 4] = true ∧ openOp s opMarchRun = none ∧ ∀ (d : Nat), d < quads s → sqStopped s (8 + 6 * d) = false) ∧
    (∃ (r : Nat), ∃ (e : Entry), ∃ (s : State), Granted r opConjunction e [homeOf opConjunction] s ∧ 0 < pf e.p0 12 8 ∧ pf e.p0 12 8 ≤ 16 ∧ pf e.p0 3 0 < pf e.p0 12 8 ∧ pn e.p1 % 32 = 0 ∧ (s.tb.act.mode = true → pn e.p1 % refPeriod s.tb.act.refsel = 0) ∧ conjBusy e (passEntry r s) = false) ∧
    (∃ (r : Nat), ∃ (e : Entry), ∃ (s : State), Granted r opMarchRun e [homeOf opMarchRun] s ∧ marchBad e = false ∧ marchZero e = false ∧ marchBusy e (passEntry r s) = false) ∧
    (∃ (r : Nat), ∃ (e : Entry), ∃ (s : State), Granted r opJobSearch e [jsqOf (streamQuad s (pf e.p2 7 0))] s ∧ searchBad e (passEntry r s) = false ∧ s.cap.anyBegun = true ∧ pn e.p1 ≠ 0 ∧ (pf e.p6 31 0 ≠ 0 ∨ eUnlim e = true) ∧ s.pcie.bme = true) ∧
    (∃ (r : Nat), ∃ (e : Entry), ∃ (p : Image), ∃ (s : State), ∃ (u : State), ∃ (tag : Nat), ∃ (bs : List Byte), Arrives s tag bs (XferFor.cmd r opJobSearch e) p u ∧ Granted r opJobSearch e [jsqOf (streamQuad u (pf e.p2 7 0))] u ∧ searchBad e (passEntry r u) = false ∧ s.cap.anyBegun = true ∧ pn e.p1 ≠ 0 ∧ (pf e.p6 31 0 ≠ 0 ∨ eUnlim e = true) ∧ predBad p (pn e.p1) = false) ∧
    (∃ (r : Nat), ∃ (e : Entry), ∃ (s : State), Granted r opJobExtract e [jsqOf (streamQuad s (pf e.p0 7 0))] s ∧ windowBad (passEntry r s) (pn e.p0) (pn e.p1) (pn e.p2) = false ∧ pn e.p3 % 64 = 0 ∧ s.cap.anyBegun = true ∧ pn e.p4 ≠ 0) ∧
    (∃ (r : Nat), ∃ (e : Entry), ∃ (s : State), Granted r opJobCompress e [jsqOf (quietQuad s)] s ∧ codecBad e (passEntry r s) = false ∧ (pn e.p1 ≠ 0 ∨ pn e.p3 < 64)) ∧
    (∃ (r : Nat), ∃ (e : Entry), ∃ (s : State), Granted r opJobDecompress e [jsqOf (quietQuad s)] s ∧ 64 ≤ pn e.p1 ∧ codecBad e (passEntry r s) = false) ∧
    (∃ (r : Nat), ∃ (e : Entry), ∃ (s : State), Granted r opJobVerify e [jsqOf (quietQuad s)] s ∧ 64 ≤ pn e.p1 ∧ codecBad e (passEntry r s) = false) ∧
    (∃ (r : Nat), ∃ (n : BitVec 8), ∃ (e : Entry), ∃ (s : State), Granted r (512 + n.toNat) e [jsqOf (pf e.p6 1 0)] s ∧ pf e.p6 1 0 < quads s ∧ (sq s (jsqOf (pf e.p6 1 0))).ctxs.length = 4 ∧ (∀ (c : Ctx), c ∈ (sq s (jsqOf (pf e.p6 1 0))).ctxs → c.origin ≠ some s.jr.next) ∧ (sq s (jsqOf (pf e.p6 1 0))).state = SeqState.idle ∧ (sq s (jsqOf (pf e.p6 1 0))).queue = [] ∧ ∃ (c : Ctx), c ∈ (sq s (jsqOf (pf e.p6 1 0))).ctxs ∧ c.origin = none) ∧
    (∃ (r : Nat), ∃ (n : BitVec 8), ∃ (e : Entry), ∃ (s : State), Granted r (512 + n.toNat) e [jsqOf (pf e.p6 1 0)] s ∧ pf e.p6 1 0 < quads s ∧ (sq s (jsqOf (pf e.p6 1 0))).ctxs.length = 4 ∧ (∀ (c : Ctx), c ∈ (sq s (jsqOf (pf e.p6 1 0))).ctxs → c.origin ≠ some s.jr.next) ∧ ((sq s (jsqOf (pf e.p6 1 0))).state = SeqState.run ∨ (sq s (jsqOf (pf e.p6 1 0))).state = SeqState.wait)) :=
  ⟨⟨0, entry 1 0 0 0, inTb tbLocked false (inLane 0 lnRun id (planned (withDram { up with jr := { up.jr with inForce := true } }))), granted_iff.2 (by unfold Alive; decide +kernel), by decide +kernel⟩,
   ⟨0, entry 1 0 0 0, inLane 0 lnDown id up, granted_iff.2 (by unfold Alive; decide +kernel), by decide +kernel⟩,
   ⟨0, entry 0 0 0 0, untrained, granted_iff.2 (by unfold Alive; decide +kernel), by decide +kernel⟩,
   ⟨0, entry 0x100 64 0 0, up, granted_iff.2 (by unfold Alive; decide +kernel), by decide +kernel⟩,
   ⟨0, entry 1 1 0 262144, withRegs [(ownOff 0, 0xCC)] up, granted_iff.2 (by unfold Alive; decide +kernel), by decide +kernel⟩,
   ⟨0, searching, hadCapture, granted_iff.2 (by unfold Alive; decide +kernel), by decide +kernel⟩,
   ⟨0, searching, arrived (moving opJobSearch searching 128 4 (job .search [] []).pred.bytes hadCapture) 5 (List.replicate 4 0) (.cmd 0 opJobSearch searching), moving opJobSearch searching 128 4 (job .search [] []).pred.bytes hadCapture, hadCapture, 5, List.replicate 4 0, arrives_of (by decide +kernel), granted_iff.2 (by unfold Alive; decide +kernel), by decide +kernel⟩,
   ⟨0, { entry 0 0 1000 64 with p4 := 100 }, hadCapture, granted_iff.2 (by unfold Alive; decide +kernel), by decide +kernel⟩,
   ⟨0, entry 0 0 0 0, up, granted_iff.2 (by unfold Alive; decide +kernel), by decide +kernel⟩,
   ⟨0, entry 0x100 64 0 0, up, granted_iff.2 (by unfold Alive; decide +kernel), by decide +kernel⟩,
   ⟨0, entry 0x100 64 0 0, up, granted_iff.2 (by unfold Alive; decide +kernel), by decide +kernel⟩,
   ⟨0, 3, searching, up, granted_iff.2 (by unfold Alive; decide +kernel), by decide +kernel, by decide +kernel, by decide +kernel, by decide +kernel, by decide +kernel, by and_intros <;> first | decide +kernel | exact .inl (by decide +kernel) | (intro x h; cases h; done) | (intro c; cases c <;> decide +kernel)⟩,
   ⟨0, 3, searching, { up with seqs := [(9, { Seqr.reset with state := .run, pc := 0x3100 })] }, granted_iff.2 (by unfold Alive; decide +kernel), by decide +kernel⟩⟩

theorem witness_CaptureCommandsComplete :
    (∃ (r : Nat), ∃ (e : Entry), ∃ (s : State), Granted r opForceTrigger e [homeOf opForceTrigger] s ∧ pn e.p0 ≠ 0 ∧ pn e.p1 ≠ 0 ∧ (∀ (a : Nat), a < 8 → bit (pn e.p0) a = true → pAutoEn (plan s) a = true) ∧ evaluating s = true) ∧
    (∃ (r : Nat), ∃ (e : Entry), ∃ (s : State), Granted r opStop e [homeOf opStop] s ∧ eOpt e = false ∧ captureOn s = true) ∧
    (∃ (r : Nat), ∃ (e : Entry), ∃ (s : State), ∃ (k : Cmd), Granted r opStop e [homeOf opStop] s ∧ eOpt e = true ∧ abortTarget e s = some k) ∧
    (∃ (r : Nat), ∃ (e : Entry), ∃ (s : State), ∃ (k : Cmd), Granted r opStop e [homeOf opStop] s ∧ eOpt e = true ∧ abortTarget e s = some k) ∧
    (∃ (r : Nat), ∃ (e : Entry), ∃ (s : State), ∃ (k : Cmd), Granted r opDisarm e [homeOf opDisarm] s ∧ s.cap.state = CapState.waiting ∧ Tellable s s.cap.origin k) ∧
    (∃ (s : State), Alive s ∧ (s.cap.state ≠ CapState.waiting ∨ s.tb.tick < s.cap.t0)) ∧
    (∃ (s : State), Alive s ∧ s.cap.state = CapState.waiting ∧ s.cap.t0 ≤ s.tb.tick) :=
  ⟨⟨0, entry 1 3 0 0, inCap .running 8000 (some 4096) [] none id up, granted_iff.2 (by unfold Alive; decide +kernel), by decide +kernel⟩,
   ⟨0, entry 0 0 0 0, inCap .running 8000 (some 4096) [] none id up, granted_iff.2 (by unfold Alive; decide +kernel), by decide +kernel⟩,
   ⟨0, entry 0 0x98 0 0 1, busy [openCmd opLinkTrain 0x98 9 4], openCmd opLinkTrain 0x98 9 4, granted_iff.2 (by unfold Alive; decide +kernel), by decide +kernel⟩,
   ⟨0, entry 0 0x98 0 0 1, busy [openCmd opLinkTrain 0x98 9 4], openCmd opLinkTrain 0x98 9 4, granted_iff.2 (by unfold Alive; decide +kernel), by decide +kernel⟩,
   ⟨0, entry 0 0 0 0, inCap .waiting 4095 none [] none id up, openCmd opArm 0x99 9 0, granted_iff.2 (by unfold Alive; decide +kernel), by decide +kernel, (tellable_iff _ _ _).2 (by decide +kernel)⟩,
   ⟨busy [openCmd opLinkTrain 0x98 9 4], by unfold Alive; decide +kernel, by decide +kernel⟩,
   ⟨inCap .waiting 4096 none [] none id up, by unfold Alive; decide +kernel, by decide +kernel⟩⟩

theorem witness_WriterTakesSamplesAndResumes :
    (∃ (s : State), ∃ (i : Nat), ∃ (k : Nat), ∃ (t : Nat), Alive s ∧ s.cap.closing = false ∧ leavesNow s i k t = false) ∧
    (∃ (s : State), ∃ (i : Nat), ∃ (k : Nat), ∃ (t : Nat), Alive s ∧ s.cap.closing = false ∧ leavesNow s i k t = true ∧ i < 256) ∧
    (∃ (s : State), ∃ (i : Nat), Alive s ∧ s.cap.closing = false ∧ ((strm s i).overAt = none ∨ mayResume s i (resumeTick s i) = false)) ∧
    (∃ (s : State), ∃ (i : Nat), ∃ (a : Nat), Alive s ∧ s.cap.closing = false ∧ (strm s i).overAt = some a ∧ mayResume s i (resumeTick s i) = true) ∧
    (∃ (s : State), ∃ (i : Nat), Alive s ∧ s.cap.closing = false ∧ ((strm s i).dens = none ∨ mayResume s i (resumeTick s i) = false)) ∧
    (∃ (s : State), ∃ (i : Nat), ∃ (a : Nat), Alive s ∧ s.cap.closing = false ∧ (strm s i).dens = some a ∧ mayResume s i (resumeTick s i) = true) ∧
    (∃ (s : State), ∃ (i : Nat), Alive s ∧ s.cap.closing = false ∧ activeStreams s = [i] ∧ phaseDue s i = true ∧ nextEvent s i (phaseOf s (strm s i)) = some (phaseOf s (strm s i), 3)) ∧
    (∃ (s : State), Alive s ∧ s.cap.closing = false ∧ ∀ (i : Nat), i ∈ activeStreams s → phaseDue s i = false) ∧
    (∃ (s : State), ∃ (g : Seg), ∃ (e : Nat), Alive s ∧ s.cap.closing = false ∧ headSeg s = some g ∧ g.e = some e ∧ capRunning s = true ∧ e + 6144 ≤ s.tb.tick ∧ evaluated s e = true ∧ ∀ (i : Nat), i ∈ activeStreams s → waitingSamples s i e = []) ∧
    (∃ (s : State), Alive s ∧ s.cap.closing = false ∧ (headSeg s = none ∨ capRunning s = false)) ∧
    (∃ (s : State), ∃ (l : Nat), ∃ (w : EndReason), Alive s ∧ s.cap.closing = false ∧ s.cap.endAt = some (l, w) ∧ capRunning s = true ∧ s.cap.segs = [] ∧ l < s.tb.tick) ∧
    (∃ (s : State), Alive s ∧ s.cap.closing = false ∧ (s.cap.endAt = none ∨ capRunning s = false ∨ s.cap.segs ≠ [])) ∧
    (∃ (s : State), ∃ (ws : List (BitVec 16)), ∃ (o : OpenRec), Alive s ∧ s.cap.closing = false ∧ leavesNow s 0 0 5136 = true ∧ pSfmt (plan s) 0 ≠ 2 ∧
      wordsAt s 0 0 5136 = some ws ∧ fullBy (strm (reach 0 5136 s) 0) 5136 = false ∧ stalled (strm (reach 0 5136 s) 0) = false ∧
      staleGroups (reach 0 5136 s) 0 5136 = false ∧ qualifies (reach 0 5136 s) 0 5136 = true ∧ openOf (reach 0 5136 s) 0 0 = some o ∧
      overAllowance (reach 0 5136 s) 0 5136 = false ∧
      openSize (plan s) 0 { o with pos := (5136, ws) :: o.pos } < 4096) :=
  ⟨⟨up, 0, 0, 0, by unfold Alive; decide +kernel, by decide +kernel⟩,
   ⟨sampled 20000 16000 [firstSeg 4096] [{ stamp := 5136, word := 0x202 }] (fun x => { x with op := [{ ts := 5120, lane := 0, coma := false, pos := [(5120, [0])] }], nextTick := [(0, 5136)] }), 0, 0, 5136, by unfold Alive; decide +kernel, by decide +kernel⟩,
   ⟨up, 0, by unfold Alive; decide +kernel, by decide +kernel⟩,
   ⟨withDram (sampled 20000 16000 [firstSeg 4096] [] fun x => { x with overAt := some 5000, nextTick := [(0, 5200)] }), 0, 5000, by unfold Alive; decide +kernel, by decide +kernel, by decide +kernel,
     mayResume_of _ _ _ (by decide +kernel) (by decide +kernel) (by decide +kernel)⟩,
   ⟨up, 0, by unfold Alive; decide +kernel, by decide +kernel⟩,
   ⟨withDram (sampled 20000 16000 [firstSeg 4096] [] fun x => { x with dens := some 5000, nextTick := [(0, 5200)] }), 0, 5000, by unfold Alive; decide +kernel, by decide +kernel, by decide +kernel,
     mayResume_of _ _ _ (by decide +kernel) (by decide +kernel) (by decide +kernel)⟩,
   ⟨sampled 540000 539968 [firstSeg 4096] [] (fun x => { x with nextTick := [(0, 528400)] }), 0, by unfold Alive; decide +kernel, by decide +kernel⟩,
   ⟨up, by unfold Alive; decide +kernel, by decide +kernel⟩,
   ⟨sampled 20000 16000 [{ firstSeg 4096 with e := some 6000 }] [] id, ({ no := 0, s := 4096, nuc := none, e := some 6000, ign := 0, forcedOnly := false, stopped := false, org := none }), (6000), by unfold Alive; decide +kernel, by decide +kernel⟩,
   ⟨up, by unfold Alive; decide +kernel, by decide +kernel⟩,
   ⟨inCap .running 20000 (some 16000) [] (some (6000, .stop)) id up, (6000), (Sys2Proof.Machine.EndReason.stop), by unfold Alive; decide +kernel, by decide +kernel⟩,
   ⟨up, by unfold Alive; decide +kernel, by decide +kernel⟩,
   ⟨deep (sampled 20000 16000 [firstSeg 4096] [{ stamp := 5136, word := 0x202 }] (fun x => { x with op := [{ ts := 5120, lane := 0, coma := false, pos := [(5120, [0])] }], nextTick := [(0, 5136)] })), [0x202],
     { ts := 5120, lane := 0, coma := false, pos := [(5120, [0])] }, by unfold Alive; decide +kernel, by decide +kernel⟩⟩

theorem witness_SnapshotsAndPowerStatesComplete :
    (∃ (r : Nat), ∃ (e : Entry), ∃ (s : State), Granted r opCounterSnapshot e [homeOf opCounterSnapshot] s) ∧
    (∃ (s : State), Alive s ∧ s.pcie.memSpace = true) ∧
    (∃ (s : State), Alive s ∧ s.snap.taken = none) ∧
    (∃ (s : State), ∃ (x : Nat), Alive s ∧ s.snap.taken = some x ∧ (List.map (fun (p : Nat × Nat) => p.fst) s.snap.owed).Nodup) ∧
    (∃ (r : Nat), ∃ (e : Entry), ∃ (s : State), Granted r opPowerState e [homeOf opPowerState] s ∧ psBusy e (passEntry r s) = false ∧ s.pwr.orders = [] ∧ tripped s = false ∧ psTarget e = pwrState s) ∧
    (∃ (r : Nat), ∃ (e : Entry), ∃ (s : State), Granted r opPowerState e [homeOf opPowerState] s ∧ psBusy e (passEntry r s) = false ∧ s.pwr.orders = [] ∧ tripped s = false ∧ psTarget e ≠ pwrState s) ∧
    (∃ (s : State), Alive s ∧ s.pwr.orders = []) ∧
    (∃ (s : State), ∃ (o : Nat), ∃ (g : Nat), Alive s ∧ s.pwr.orders = [(o, g)] ∧ g < 4 ∧ g = 0 ∧ linksIn s lnResume ≠ []) ∧
    (∃ (s : State), ∃ (o : Nat), ∃ (g : Nat), Alive s ∧ s.pwr.orders = [(o, g)] ∧ g < 4 ∧ g = 3 ∧ (s.jr.wait ≠ [] ∨ s.tb.pclk ≠ 0)) ∧
    (∃ (s : State), ∃ (o : Nat), ∃ (g : Nat), Alive s ∧ s.pwr.orders = [(o, g)] ∧ g < 4 ∧ g = 0 ∧ linksIn s lnResume = [] ∧ linksIn s lnStandby ≠ []) ∧
    (∃ (s : State), ∃ (o : Nat), ∃ (g : Nat), ∃ (k : Cmd), Alive s ∧ s.pwr.orders = [(o, g)] ∧ g < 4 ∧ (g ≠ 0 ∨ linksIn s lnResume = [] ∧ linksIn s lnStandby = []) ∧ (g = 3 → s.jr.wait = [] ∧ s.tb.pclk = 0) ∧ Tellable s o k) :=
  ⟨⟨0, entry 0 0 0 0, up, granted_iff.2 (by unfold Alive; decide +kernel)⟩,
   ⟨up, by unfold Alive; decide +kernel, by decide +kernel⟩,
   ⟨up, by unfold Alive; decide +kernel, by decide +kernel⟩,
   ⟨{ busy [openCmd opCounterSnapshot 0x99 9 0] with snap := { due := none, waiters := [], taken := some 4096, owed := [(9, 4096)] } }, 4096, by unfold Alive; decide +kernel, by decide +kernel⟩,
   ⟨0, entry 0 0 0 0, up, granted_iff.2 (by unfold Alive; decide +kernel), by decide +kernel⟩,
   ⟨0, entry 1 0 0 0, up, granted_iff.2 (by unfold Alive; decide +kernel), by decide +kernel⟩,
   ⟨up, by unfold Alive; decide +kernel, by decide +kernel⟩,
   ⟨inPower lnResume 0, 9, 0, by unfold Alive; decide +kernel, by decide +kernel⟩,
   ⟨{ inPower lnDown 3 with tb := { up.tb with pclk := 3 } }, 9, 3, by unfold Alive; decide +kernel, by decide +kernel⟩,
   ⟨inPower lnStandby 0, 9, 0, by unfold Alive; decide +kernel, by decide +kernel⟩,
   ⟨inPower lnDown 3, 9, 3, openCmd opPowerState 0x99 9 1, by unfold Alive; decide +kernel, by decide +kernel, by decide +kernel, by decide +kernel, by decide +kernel, (tellable_iff _ _ _).2 (by decide +kernel)⟩⟩

theorem witness_JobsAdvance_1 :
    ∃ (q : Nat), ∃ (s : State), Alive s ∧ (quads s ≤ q ∨ List.find? (mayTurn s q) s.jobs = none ∨ 2 ≤ pwrState s) :=
  ⟨0, up, by unfold Alive; decide +kernel, by decide +kernel⟩

theorem witness_JobsAdvance_2 :
    ∃ (q : Nat), ∃ (s : State), ∃ (j : Job), ∃ (k : Cmd), Alive s ∧ q < quads s ∧ (sq s (jsqOf q)).state ≠ SeqState.stopped ∧ (sq s (jsqOf q)).state ≠ SeqState.handler ∧ pwrState s < 2 ∧ List.find? (mayTurn s q) s.jobs = some j ∧ needsHost j = true ∧ s.pcie.bme = false ∧ Tellable s j.origin k :=
  ⟨0, inJobs [job .extract [0, 0, 1000, 0x8000, 0x10000, 0, 0] [recAt 0x1000 1, recAt 0x1040 2]] false, job .extract [0, 0, 1000, 0x8000, 0x10000, 0, 0] [recAt 0x1000 1, recAt 0x1040 2], openCmd opJobSearch 0x99 9 9, by unfold Alive; decide +kernel, by decide +kernel, by decide +kernel, by decide +kernel, by decide +kernel, by decide +kernel, by decide +kernel, by decide +kernel, (tellable_iff _ _ _).2 (by decide +kernel)⟩

theorem witness_JobsAdvance_3 :
    ∃ (q : Nat), ∃ (s : State), ∃ (j : Job), ∃ (a : Nat), ∃ (n : Nat), Alive s ∧ q < quads s ∧ (sq s (jsqOf q)).state ≠ SeqState.stopped ∧ (sq s (jsqOf q)).state ≠ SeqState.handler ∧ pwrState s < 2 ∧ List.find? (mayTurn s q) s.jobs = some j ∧ s.pcie.bme = true ∧ jobAborted s j = false ∧ j.inbuf = none ∧ nextInput j = some (a, n) ∧ inputDram j = true :=
  ⟨0, inJobs [job .extract [0, 0, 1000, 0x8000, 0x10000, 0, 0] [recAt 0x1000 1, recAt 0x1040 2]] true, job .extract [0, 0, 1000, 0x8000, 0x10000, 0, 0] [recAt 0x1000 1, recAt 0x1040 2], 4096, (64), by unfold Alive; decide +kernel, by decide +kernel⟩

theorem witness_JobsAdvance_4 :
    ∃ (q : Nat), ∃ (s : State), ∃ (j : Job), ∃ (a : Nat), ∃ (n : Nat), Alive s ∧ q < quads s ∧ (sq s (jsqOf q)).state ≠ SeqState.stopped ∧ (sq s (jsqOf q)).state ≠ SeqState.handler ∧ pwrState s < 2 ∧ List.find? (mayTurn s q) s.jobs = some j ∧ s.pcie.bme = true ∧ jobAborted s j = false ∧ j.inbuf = none ∧ nextInput j = some (a, n) ∧ inputDram j = false :=
  ⟨0, inJobs [job .compress [0x100, 8192, 0x4000, 8192, 0, 0, 0] []] true, job .compress [0x100, 8192, 0x4000, 8192, 0, 0, 0] [], 256, 4096, by unfold Alive; decide +kernel, by decide +kernel⟩

theorem witness_JobsAdvance_5 :
    ∃ (q : Nat), ∃ (s : State), ∃ (j : Job), ∃ (bs : List Byte), ∃ (m : RecMeta), ∃ (n : RecMeta), ∃ (rest : List RecMeta), Alive s ∧ q < quads s ∧ (sq s (jsqOf q)).state ≠ SeqState.stopped ∧ (sq s (jsqOf q)).state ≠ SeqState.handler ∧ pwrState s < 2 ∧ List.find? (mayTurn s q) s.jobs = some j ∧ j.kind = JobKind.extract ∧ s.pcie.bme = true ∧ j.todo = m :: n :: rest ∧ j.inbuf = some bs ∧ j.inbad = [] ∧ j.wrote + 64 * m.len ≤ jp j 4 ∧ (j.wrote + 64 * m.len) / 65536 = j.wrote / 65536 :=
  ⟨0, inJobs [{ job .extract [0, 0, 1000, 0x8000, 0x10000, 0, 0] [recAt 0x1000 1, recAt 0x1040 2] with inbuf := some (List.replicate 64 0) }] true, { job .extract [0, 0, 1000, 0x8000, 0x10000, 0, 0] [recAt 0x1000 1, recAt 0x1040 2] with inbuf := some (List.replicate 64 0) }, List.replicate 64 0, recAt 0x1000 1, recAt 0x1040 2, [], by unfold Alive; decide +kernel, by decide +kernel⟩

theorem witness_JobsAdvance_6 :
    ∃ (q : Nat), ∃ (s : State), ∃ (j : Job), ∃ (bs : List Byte), ∃ (m : RecMeta), ∃ (n : RecMeta), ∃ (rest : List RecMeta), Alive s ∧ q < quads s ∧ (sq s (jsqOf q)).state ≠ SeqState.stopped ∧ (sq s (jsqOf q)).state ≠ SeqState.handler ∧ pwrState s < 2 ∧ List.find? (mayTurn s q) s.jobs = some j ∧ j.kind = JobKind.search ∧ s.pcie.bme = true ∧ j.todo = m :: n :: rest ∧ j.inbuf = some bs ∧ j.inbad = [] ∧ matchOf (viewOf { s with jobs := List.filter (fun (k : Job) => k.origin != j.origin) s.jobs ++ [j] } j.plan (bits (jp j 2) 7 0) (jp j 3) (jp j 4) m bs) (clauses (termsOf j.pred) []) = none :=
  ⟨0, inJobs [{ job .search [0, 128, 0, 0, 1000, 0x4000, 0x4000000010] [recAt 0x1000 1, recAt 0x1040 2] with inbuf := some (List.replicate 64 0) }] true, { job .search [0, 128, 0, 0, 1000, 0x4000, 0x4000000010] [recAt 0x1000 1, recAt 0x1040 2] with inbuf := some (List.replicate 64 0) }, List.replicate 64 0, recAt 0x1000 1, recAt 0x1040 2, [], by unfold Alive; decide +kernel, by decide +kernel⟩

theorem witness_JobsAdvance_7 :
    ∃ (q : Nat), ∃ (b : Bool), ∃ (s : State), ∃ (j : Job), ∃ (raw : List Byte), Alive s ∧ q < quads s ∧ (sq s (jsqOf q)).state ≠ SeqState.stopped ∧ (sq s (jsqOf q)).state ≠ SeqState.handler ∧ pwrState s < 2 ∧ List.find? (mayTurn s q) s.jobs = some j ∧ j.kind = JobKind.compress ∧ bit (jp j 4) 1 = false ∧ s.pcie.bme = true ∧ b = true ∧ jobAborted s j = false ∧ j.count + 1 < ceilDiv (jp j 1) 4096 ∧ j.inbuf = some raw ∧ j.inbad = [] ∧ j.wrote + (codeBlock raw false).length ≤ jp j 3 :=
  ⟨0, true, inJobs [{ job .compress [0x100, 8192, 0x4000, 8192, 0, 0, 0] [] with inbuf := some (List.replicate 8 7) }] true, { job .compress [0x100, 8192, 0x4000, 8192, 0, 0, 0] [] with inbuf := some (List.replicate 8 7) }, List.replicate 8 7, by unfold Alive; decide +kernel, by decide +kernel⟩

theorem witness_JobsAdvance_8 :
    ∃ (o : Nat), ∃ (s : State), ∃ (j : Job), ∃ (k : Cmd), Alive s ∧ List.find? (fun (j : Job) => j.origin == o) s.jobs = some j ∧ j.kind = JobKind.search ∧ j.batch ≠ [] ∧ s.pcie.d3 = false ∧ s.pcie.bme = true ∧ (256 ≤ j.batch.length ∨ j.batchAt + msTicks ≤ s.tb.time) ∧ cmd? s o = some k ∧ k.abort = false :=
  ⟨9, inJobs [{ job .search [0, 128, 0, 0, 1000, 0x4000, 0x4000000010] [] with batch := [[1]] }] true, { job .search [0, 128, 0, 0, 1000, 0x4000, 0x4000000010] [] with batch := [[1]] }, openCmd opJobSearch 0x99 9 9, by unfold Alive; decide +kernel, by decide +kernel⟩

theorem witness_MarchAndTrainingEnd :
    (∃ (s : State), Alive s ∧ s.banks.march = none) ∧
    (∃ (s : State), Alive s ∧ s.banks.march = none) ∧
    (∃ (s : State), Alive s ∧ s.banks.march = none) ∧
    (∃ (s : State), ∃ (m : March), ∃ (k : Nat), ∃ (sl : Nat), ∃ (rest : List (Nat × Nat)), Alive s ∧ s.banks.march = some m ∧ m.todo = (k, sl) :: rest ∧ rest ≠ []) ∧
    (∃ (s : State), ∃ (m : March), ∃ (k : Nat), ∃ (sl : Nat), ∃ (rest : List (Nat × Nat)), ∃ (c : Cmd), Alive s ∧ s.banks.march = some m ∧ m.todo = (k, sl) :: rest ∧ rest = [] ∧ Tellable s m.origin c ∧ c.abort = false) ∧
    (∃ (s : State), ∃ (m : March), ∃ (k : Nat), ∃ (w : Nat), ∃ (sl : Nat), ∃ (rest : List (Nat × Nat)), Alive s ∧ s.banks.march = some m ∧ m.todo = (k, sl) :: rest ∧ k < 12 ∧ w / 256 = sl ∧ w < bankWords ∧ tblGet m.tries (1024 * k + sl) 0 + 1 < 16) ∧
    (∃ (s : State), ∃ (m : March), ∃ (k : Nat), ∃ (w : Nat), ∃ (sl : Nat), ∃ (rest : List (Nat × Nat)), Alive s ∧ s.banks.march = some m ∧ m.todo = (k, sl) :: rest ∧ k < 12 ∧ w / 256 = sl ∧ w < bankWords ∧ 16 ≤ tblGet m.tries (1024 * k + sl) 0 + 1 ∧ rest ≠ []) ∧
    (∃ (s : State), ∃ (m : March), ∃ (c : Cmd), Alive s ∧ s.banks.march = some m ∧ m.destructive = true ∧ Tellable s m.origin c ∧ c.abort = false ∧ s.banks.mem.wf = true) ∧
    (∃ (s : State), Alive s ∧ s.dram.trainOrigin = none) ∧
    (∃ (s : State), ∃ (o : Nat), ∃ (c : Cmd), Alive s ∧ s.dram.trainOrigin = some o ∧ Tellable s o c ∧ c.abort = false) :=
  ⟨⟨up, by unfold Alive; decide +kernel, by decide +kernel⟩,
   ⟨up, by unfold Alive; decide +kernel, by decide +kernel⟩,
   ⟨up, by unfold Alive; decide +kernel, by decide +kernel⟩,
   ⟨inMarch [(0, 0), (5, 2)] false 0, ({ origin := 9, destructive := false, mask := 33, first := 256, count := 256, todo := [(0, 0), (5, 2)], tries := [(0, 0), (5122, 3)], failBanks := 0, firstFail := none, aborts := 4 }), 0, 0, [(5, 2)], by unfold Alive; decide +kernel, by decide +kernel⟩,
   ⟨inMarch [(0, 0)] false 2, ({ origin := 9, destructive := false, mask := 33, first := 256, count := 256, todo := [(0, 0)], tries := [(0, 2), (5122, 3)], failBanks := 0, firstFail := none, aborts := 4 }), 0, 0, [], openCmd opMarchRun 0x99 9 3, by unfold Alive; decide +kernel, by decide +kernel, by decide +kernel, by decide +kernel, (tellable_iff _ _ _).2 (by decide +kernel), by decide +kernel⟩,
   ⟨inMarch [(0, 0)] false 2, ({ origin := 9, destructive := false, mask := 33, first := 256, count := 256, todo := [(0, 0)], tries := [(0, 2), (5122, 3)], failBanks := 0, firstFail := none, aborts := 4 }), 0, 0, 0, [], by unfold Alive; decide +kernel, by decide +kernel⟩,
   ⟨inMarch [(0, 0), (5, 2)] false 15, ({ origin := 9, destructive := false, mask := 33, first := 256, count := 256, todo := [(0, 0), (5, 2)], tries := [(0, 15), (5122, 3)], failBanks := 0, firstFail := none, aborts := 4 }), 0, 0, 0, [(5, 2)], by unfold Alive; decide +kernel, by decide +kernel⟩,
   ⟨inMarch [] true 0, ({ origin := 9, destructive := true, mask := 33, first := 256, count := 256, todo := [], tries := [(0, 0), (5122, 3)], failBanks := 0, firstFail := none, aborts := 4 }), openCmd opMarchRun 0x99 9 3, by unfold Alive; decide +kernel, by decide +kernel, by decide +kernel, (tellable_iff _ _ _).2 (by decide +kernel), by decide +kernel⟩,
   ⟨up, by unfold Alive; decide +kernel, by decide +kernel⟩,
   ⟨{ busy [openCmd opDramTrain 0x99 9 8] with dram := { up.dram with trainOrigin := some 9 } }, 9, openCmd opDramTrain 0x99 9 8, by unfold Alive; decide +kernel, by decide +kernel, (tellable_iff _ _ _).2 (by decide +kernel), by decide +kernel⟩⟩

theorem witness_GuardedWritesNeedTheirKey :
    (∃ (m : Master), ∃ (s : State), ∃ (v : W32), ∃ (c : GwClass), Alive s ∧ Reaches m s ∧ fld v 15 0 = gwKey c ∧ privileged s m c = true) ∧
    (∃ (m : Master), ∃ (s : State), ∃ (v : W32), Alive s ∧ Reaches m s ∧ (∀ (c : GwClass), fld v 15 0 = gwKey c → privileged s m c = false) ∧ fld v 15 0 ≠ fuseKey) ∧
    (∃ (m : Master), ∃ (s : State), ∃ (off : Nat), ∃ (c : GwClass), ∃ (mask : W32), Alive s ∧ Reaches m s ∧ accOf s off = Acc.gw c mask ∧ privileged s m c = true ∧ armOf s m = some c ∧ off ∈ [262144, 262148, 262152, 262156, 262160, 327688, 327692]) ∧
    (∃ (m : Master), ∃ (s : State), ∃ (off : Nat), ∃ (c : GwClass), ∃ (mask : W32), Alive s ∧ Reaches m s ∧ accOf s off = Acc.gw c mask ∧ ¬(privileged s m c = true ∧ armOf s m = some c)) ∧
    (∃ (m : Master), ∃ (s : State), ∃ (ch : Nat), ∃ (v : W32), Alive s ∧ Reaches m s ∧ ch < chCount s ∧ privileged s m GwClass.mem = true ∧ armOf s m = some GwClass.mem ∧ bit (BitVec.toNat v) 0 = true ∧ armed s = false ∧ admitting s = false ∧ tblGet s.dram.refPend ch [] = []) ∧
    (∃ (m : Master), ∃ (s : State), ∃ (q : Nat), ∃ (w : Nat), ∃ (v : W32), Alive s ∧ Reaches m s ∧ q < seqCount s ∧ w < 16384 ∧ privileged s m GwClass.cst = true ∧ armOf s m = some GwClass.cst ∧ reservedCode (stagedWord s q w v) = false ∧ fld (sqStat s q) 31 28 = 0 ∧ (sq s q).queue = []) ∧
    (∃ (m : Master), ∃ (s : State), ∃ (q : Nat), ∃ (w : Nat), ∃ (v : W32), Alive s ∧ Reaches m s ∧ q < seqCount s ∧ w < 16384 ∧ privileged s m GwClass.cst = true ∧ armOf s m = some GwClass.cst ∧ reservedCode (stagedWord s q w v) = true) :=
  ⟨⟨.csq, up, 0x3C71, .clk, by unfold Alive; decide +kernel, by unfold Reaches; decide +kernel, by decide +kernel⟩,
   ⟨.csq, up, 1, by unfold Alive; decide +kernel, by unfold Reaches; decide +kernel, by and_intros <;> first | decide +kernel | exact .inl (by decide +kernel) | (intro x h; cases h; done) | (intro c; cases c <;> decide +kernel), by decide +kernel⟩,
   ⟨.csq, keyed .clk up, 0x40000, .clk, 0x0E0003FF, by unfold Alive; decide +kernel, by unfold Reaches; decide +kernel, by decide +kernel⟩,
   ⟨.csq, up, 0x40000, .clk, 0x0E0003FF, by unfold Alive; decide +kernel, by unfold Reaches; decide +kernel, by decide +kernel⟩,
   ⟨.csq, keyed .mem (withDram up), 0, 1, by unfold Alive; decide +kernel, by unfold Reaches; decide +kernel, by decide +kernel⟩,
   ⟨.csq, keyed .cst up, 0, 0, 1, by unfold Alive; decide +kernel, by unfold Reaches; decide +kernel, by decide +kernel⟩,
   ⟨.csq, keyed .cst up, 0, 0, 0x0E0003FF, by unfold Alive; decide +kernel, by unfold Reaches; decide +kernel, by decide +kernel⟩⟩

theorem witness_RcReadClearsWhatItReturned :
    ∃ (off : Nat), ∃ (mask : W32), ∃ (s : State), Alive s ∧ s.pcie.memSpace = true ∧ off < bar0Size ∧ off % 4 = 0 ∧ accOf s off = Acc.rc mask ∧ ctrAt s (off - 4) = none ∧ isHold s off = false ∧ latches s off = false ∧ tblFind s.latch off = none :=
  ⟨0x18000, 0xFFFFFFFF, withRegs [(0x18000, 5)] up, by unfold Alive; decide +kernel, by decide +kernel⟩

theorem witness_RegisterAccessesComplete :
    (∃ (s : State), Alive s ∧ s.pcie.memSpace = true) ∧
    (∃ (s : State), Alive s ∧ s.pcie.memSpace = true) ∧
    (∃ (s : State), ∃ (off : Nat), ∃ (len : Nat), ∃ (p : Bool), Alive s ∧ s.pcie.memSpace = true ∧ off + len ≤ bar0Size ∧ (p = true ∨ len ≠ 4 ∧ len ≠ 8 ∨ off % len ≠ 0)) ∧
    (∃ (s : State), ∃ (off : Nat), ∃ (be : BitVec 8), Alive s ∧ s.pcie.memSpace = true ∧ off + 4 ≤ bar0Size ∧ off % 4 = 0 ∧ (accOf s off = Acc.reserved ∨ BitVec.setWidth 4 be ≠ 15#4 ∨ accOf s off = Acc.ro ∨ ∃ (mask : W32), accOf s off = Acc.rc mask)) ∧
    (∃ (s : State), ∃ (off : Nat), ∃ (n : Nat), Alive s ∧ s.pcie.memSpace = true ∧ off < bar0Size ∧ (accOf s off = Acc.reserved ∨ n ≠ 4 ∧ n ≠ 8 ∨ off % n ≠ 0)) ∧
    (∃ (s : State), ∃ (off : Nat), Alive s ∧ s.pcie.memSpace = true ∧ isCtr s off = true ∧ tblFind s.latch off = none) ∧
    (∃ (s : State), ∃ (n : Nat), ∃ (v : W32), Alive s ∧ s.pcie.memSpace = true ∧ n < 1792 ∧ (bit (BitVec.toNat v) 31 = false ∨ ∃ (o : Nat), ∃ (b : Nat), srcReg n = some (o, b) ∧ bit (BitVec.toNat (reg s o)) b = false)) ∧
    (∃ (s : State), ∃ (n : Nat), ∃ (v : W32), Alive s ∧ s.pcie.memSpace = true ∧ n < 2048 ∧ fld v 31 16 ≠ 0 ∧ (vec s n).acc = 0) ∧
    (∃ (s : State), ∃ (n : Nat), ∃ (v : W32), Alive s ∧ s.pcie.memSpace = true ∧ n < 2048 ∧ fld v 31 16 = 0) ∧
    (∃ (s : State), Alive s ∧ s.pcie.memSpace = true) ∧
    (∃ (s : State), Alive s ∧ s.pcie.memSpace = true) ∧
    (∃ (s : State), Alive s ∧ s.pcie.memSpace = true) ∧
    (∃ (s : State), Alive s ∧ s.pcie.memSpace = true) :=
  ⟨⟨up, by unfold Alive; decide +kernel, by decide +kernel⟩,
   ⟨up, by unfold Alive; decide +kernel, by decide +kernel⟩,
   ⟨up, 0, 0, true, by unfold Alive; decide +kernel, by decide +kernel⟩,
   ⟨up, 0, 7, by unfold Alive; decide +kernel, by decide +kernel, by decide +kernel, by decide +kernel, by and_intros <;> first | decide +kernel | exact .inl (by decide +kernel) | (intro x h; cases h; done) | (intro c; cases c <;> decide +kernel)⟩,
   ⟨up, 0, 0, by unfold Alive; decide +kernel, by decide +kernel⟩,
   ⟨up, laneCtr 0 0, by unfold Alive; decide +kernel, by decide +kernel⟩,
   ⟨up, 0, 0, by unfold Alive; decide +kernel, by decide +kernel, by decide +kernel, by and_intros <;> first | decide +kernel | exact .inl (by decide +kernel) | (intro x h; cases h; done) | (intro c; cases c <;> decide +kernel)⟩,
   ⟨up, 0, 0x80000000, by unfold Alive; decide +kernel, by decide +kernel⟩,
   ⟨up, 0, 0, by unfold Alive; decide +kernel, by decide +kernel⟩,
   ⟨up, by unfold Alive; decide +kernel, by decide +kernel⟩,
   ⟨up, by unfold Alive; decide +kernel, by decide +kernel⟩,
   ⟨up, by unfold Alive; decide +kernel, by decide +kernel⟩,
   ⟨up, by unfold Alive; decide +kernel, by decide +kernel⟩⟩

theorem witness_HostWindowsAreServed :
    (∃ (s : State), ∃ (off : Nat), Alive s ∧ s.pcie.memSpace = true ∧ off % 8 = 0 ∧ off < 25165824 ∧ viewOpen s off 8 PortOp.read = true ∧ bankPoison s (off / 2097152) (off % 2097152 / 8) = false) ∧
    (∃ (s : State), ∃ (off : Nat), ∃ (bs : List Byte), Alive s ∧ s.pcie.memSpace = true ∧ bs ≠ [] ∧ off < 25165824 ∧ malformed off bs.length s.pcie.mps = false ∧ viewOpen s off bs.length (PortOp.write 0) = true ∧ (∀ (w : Nat), w ∈ viewWords off bs.length → bankPoison s (off / 2097152) w = false) ∧ s.banks.mem.wf = true) ∧
    (∃ (s : State), ∃ (off : Nat), ∃ (n : Nat), Alive s ∧ s.pcie.memSpace = true ∧ 0 < n ∧ off < 25165824 ∧ malformed off n 4096 = false ∧ viewOpen s off n PortOp.read = false) ∧
    (∃ (s : State), ∃ (off : Nat), ∃ (bs : List Byte), Alive s ∧ s.pcie.memSpace = true ∧ bs ≠ [] ∧ off < 25165824 ∧ malformed off bs.length s.pcie.mps = false ∧ viewOpen s off bs.length (PortOp.write 0) = false) ∧
    (∃ (s : State), ∃ (off : Nat), ∃ (bs : List Byte), Alive s ∧ s.pcie.memSpace = true ∧ bs ≠ [] ∧ 25165824 ≤ off ∧ off < 33554432 ∧ malformed off bs.length s.pcie.mps = false) ∧
    (∃ (s : State), ∃ (x : Nat), ∃ (n : Nat), Alive s ∧ s.pcie.memSpace = true ∧ 0 < n ∧ x < 8388608 ∧ malformed x n 4096 = false ∧ apbase s + x + n ≤ topAddr s) ∧
    (∃ (s : State), ∃ (x : Nat), ∃ (n : Nat), Alive s ∧ s.pcie.memSpace = true ∧ 0 < n ∧ x < 8388608 ∧ malformed x n 4096 = false ∧ topAddr s < apbase s + x + n) ∧
    (∃ (s : State), ∃ (k : UrKind), Alive s ∧ k ≠ UrKind.message ∧ (k ≠ UrKind.memSpaceOff ∨ s.pcie.memSpace = false)) ∧
    (∃ (s : State), Alive s) :=
  ⟨⟨ownBanks 0xB 0 up, 0, by unfold Alive; decide +kernel, by decide +kernel⟩,
   ⟨ownBanks 0xB 0 up, 0, [1, 2, 3], by unfold Alive; decide +kernel, by decide +kernel⟩,
   ⟨ownBanks 4 5 up, 0, 8, by unfold Alive; decide +kernel, by decide +kernel⟩,
   ⟨ownBanks 4 5 up, 0, [1, 2, 3], by unfold Alive; decide +kernel, by decide +kernel⟩,
   ⟨ownBanks 4 5 up, 0x1800000, [1, 2, 3], by unfold Alive; decide +kernel, by decide +kernel⟩,
   ⟨withRegs [(0x18010, 0xFFFFF000), (0x18014, 0x7F)] (withDram up), 0, 8, by unfold Alive; decide +kernel, by decide +kernel⟩,
   ⟨ownBanks 4 5 up, 0, 8, by unfold Alive; decide +kernel, by decide +kernel⟩,
   ⟨ownBanks 4 5 up, .io, by unfold Alive; decide +kernel, by decide +kernel⟩,
   ⟨ownBanks 4 5 up, by unfold Alive; decide +kernel⟩⟩

theorem witness_MsixSignalsAreSent :
    (∃ (s : State), ∃ (n : Nat), ∃ (off : Nat), ∃ (b : Nat), Alive s ∧ srcReg n = some (off, b) ∧ srcDefined n = true ∧ srcPresent s n = true ∧ bit (BitVec.toNat (reg s off)) b = false) ∧
    (∃ (s : State), ∃ (n : Nat), ∃ (off : Nat), ∃ (b : Nat), Alive s ∧ srcReg n = some (off, b) ∧ bit (BitVec.toNat (reg s off)) b = true) ∧
    (∃ (s : State), ∃ (v : Nat), Alive s ∧ (s.pcie.msixEn = false ∨ vecDue v s = false)) ∧
    (∃ (s : State), ∃ (v : Nat), Alive s ∧ v < 2048 ∧ s.pcie.msixEn = true ∧ vecDue v s = true) ∧
    (∃ (s : State), ∃ (v : Nat), Alive s ∧ v < 2048 ∧ s.pcie.memSpace = true) ∧
    (∃ (s : State), Alive s ∧ s.pcie.ready = true) ∧
    (∃ (s : State), Alive s ∧ s.pcie.ready = true) :=
  ⟨⟨up, 0, (24), 0, by unfold Alive; decide +kernel, by decide +kernel⟩,
   ⟨withRegs [(0x0C, 0), (0x18, 0xFFFFFFFF), (0x10, 0xFFFFFFFF)] up, 0, (24), 0, by unfold Alive; decide +kernel, by decide +kernel⟩,
   ⟨up, 0, by unfold Alive; decide +kernel, by decide +kernel⟩,
   ⟨vectors, 0, by unfold Alive; decide +kernel, by decide +kernel⟩,
   ⟨up, 0, by unfold Alive; decide +kernel, by decide +kernel⟩,
   ⟨up, by unfold Alive; decide +kernel, by decide +kernel⟩,
   ⟨up, by unfold Alive; decide +kernel, by decide +kernel⟩⟩

theorem witness_EndpointEventsTakeEffect :
    (∃ (s : State), Alive s ∧ s.pcie.ready = true ∧ s.pcie.bme = false) ∧
    (∃ (s : State), Alive s ∧ s.pcie.ready = true ∧ s.pcie.bme = true) ∧
    (∃ (s : State), Alive s ∧ s.pcie.ready = true) ∧
    (∃ (s : State), ∃ (tag : Nat), Alive s ∧ readOf s tag = none ∧ s.pcie.silent.contains tag = false) ∧
    (∃ (s : State), ∃ (tag : Nat), ∃ (x : HRead), ∃ (bs : List Byte), Alive s ∧ readOf s tag = some x ∧ x.data.length + bs.length < x.len) ∧
    (∃ (s : State), ∃ (tag : Nat), ∃ (x : HRead), ∃ (bs : List Byte), ∃ (r : Nat), ∃ (g : Ring), Alive s ∧ readOf s tag = some x ∧ x.by_ = ReadFor.fetch r ∧ ring? s r = some g ∧ x.len ≤ x.data.length + bs.length ∧ g.type = RingType.sub ∧ g.base ≤ x.addr ∧ (x.addr - g.base) / 64 = g.got) ∧
    (∃ (s : State), ∃ (tag : Nat), ∃ (x : HRead), ∃ (r : Nat), ∃ (g : Ring), Alive s ∧ readOf s tag = some x ∧ x.by_ = ReadFor.fetch r ∧ ring? s r = some g) ∧
    (∃ (s : State), ∃ (tag : Nat), Alive s ∧ (readOf s tag = none ∨ ∃ (x : HRead), readOf s tag = some x ∧ readExpired s x = false)) ∧
    (∃ (s : State), ∃ (tag : Nat), ∃ (x : HRead), ∃ (r : Nat), ∃ (g : Ring), Alive s ∧ readOf s tag = some x ∧ readExpired s x = true ∧ x.by_ = ReadFor.fetch r ∧ ring? s r = some g) ∧
    (∃ (s : State), ∃ (tag : Nat), Alive s ∧ (s.pcie.quar.any fun (q : Nat × Nat) => q.fst == tag && decide (q.snd ≤ s.tb.time)) = false) ∧
    (∃ (s : State), ∃ (tag : Nat), Alive s ∧ (s.pcie.quar.any fun (q : Nat × Nat) => q.fst == tag && decide (q.snd ≤ s.tb.time)) = true) ∧
    (∃ (s : State), ∃ (v : Nat), ∃ (w : Nat), ∃ (f : Bool), Alive s ∧ linkOk v w f = true) ∧
    (∃ (s : State), Alive s ∧ s.pcie.ready = true) ∧
    (∃ (s : State), Alive s ∧ s.pcie.ready = true ∧ s.pcie.d3 = false) ∧
    (∃ (s : State), Alive s ∧ s.pcie.ready = true ∧ s.pcie.d3 = true) ∧
    (∃ (s : State), ∃ (b : Nat), Alive s ∧ b < 32) ∧
    (∃ (s : State), ∃ (b : Nat), Alive s ∧ b < 32) ∧
    (∃ (s : State), Alive s ∧ s.pcie.ready = false) ∧
    (∃ (s : State), Alive s ∧ s.pcie.ready = false) ∧
    (∃ (s : State), Alive s ∧ s.pcie.ready = true) ∧
    (∃ (s : State), Alive s ∧ s.pcie.ready = true) ∧
    (∃ (s : State), ∃ (n : Nat), Alive s ∧ s.pcie.ready = true ∧ n ∈ [128, 256, 512]) :=
  ⟨⟨{ up with pcie := { up.pcie with bme := false } }, by unfold Alive; decide +kernel, by decide +kernel⟩,
   ⟨up, by unfold Alive; decide +kernel, by decide +kernel⟩,
   ⟨up, by unfold Alive; decide +kernel, by decide +kernel⟩,
   ⟨up, 0, by unfold Alive; decide +kernel, by decide +kernel⟩,
   ⟨clock 0 (10 ^ 12) { up with pcie := { up.pcie with reads := [{ fetching_ 4 0 64 with addr := 0x100C0 }] } }, 4, ({ tag := 4, addr := 65728, len := 64, at_ := 5, data := [], by_ := Sys2Proof.Machine.ReadFor.fetch 0 }), [1], by unfold Alive; decide +kernel, by decide +kernel⟩,
   ⟨clock 0 (10 ^ 12) { up with pcie := { up.pcie with reads := [{ fetching_ 4 0 64 with addr := 0x100C0 }] } }, 4, ({ tag := 4, addr := 65728, len := 64, at_ := 5, data := [], by_ := Sys2Proof.Machine.ReadFor.fetch 0 }), List.replicate 64 7, 0, ({ type := Sys2Proof.Machine.RingType.sub, base := 65536, z := 16, pair := 1, vector := 0, ien := false, eng := 0, host := 3, phase := true, halted := none, held := [], bound := none, got := 3 }), by unfold Alive; decide +kernel, by decide +kernel⟩,
   ⟨clock 0 (10 ^ 12) { up with pcie := { up.pcie with reads := [{ fetching_ 4 0 64 with addr := 0x100C0 }] } }, 4, ({ tag := 4, addr := 65728, len := 64, at_ := 5, data := [], by_ := Sys2Proof.Machine.ReadFor.fetch 0 }), 0, ({ type := Sys2Proof.Machine.RingType.sub, base := 65536, z := 16, pair := 1, vector := 0, ien := false, eng := 0, host := 3, phase := true, halted := none, held := [], bound := none, got := 3 }), by unfold Alive; decide +kernel, by decide +kernel⟩,
   ⟨up, 0, by unfold Alive; decide +kernel, by and_intros <;> first | decide +kernel | exact .inl (by decide +kernel) | (intro x h; cases h; done) | (intro c; cases c <;> decide +kernel)⟩,
   ⟨clock 0 (10 ^ 12) { up with pcie := { up.pcie with reads := [{ fetching_ 4 0 64 with addr := 0x100C0 }] } }, 4, ({ tag := 4, addr := 65728, len := 64, at_ := 5, data := [], by_ := Sys2Proof.Machine.ReadFor.fetch 0 }), 0, ({ type := Sys2Proof.Machine.RingType.sub, base := 65536, z := 16, pair := 1, vector := 0, ien := false, eng := 0, host := 3, phase := true, halted := none, held := [], bound := none, got := 3 }), by unfold Alive; decide +kernel, by decide +kernel⟩,
   ⟨up, 0, by unfold Alive; decide +kernel, by decide +kernel⟩,
   ⟨{ up with pcie := { up.pcie with quar := [(7, 0)] } }, 7, by unfold Alive; decide +kernel, by decide +kernel⟩,
   ⟨up, 4, 1, true, by unfold Alive; decide +kernel, by decide +kernel⟩,
   ⟨up, by unfold Alive; decide +kernel, by decide +kernel⟩,
   ⟨up, by unfold Alive; decide +kernel, by decide +kernel⟩,
   ⟨{ up with pcie := { up.pcie with d3 := true } }, by unfold Alive; decide +kernel, by decide +kernel⟩,
   ⟨up, 0, by unfold Alive; decide +kernel, by decide +kernel⟩,
   ⟨up, 0, by unfold Alive; decide +kernel, by decide +kernel⟩,
   ⟨{ up with pcie := { up.pcie with ready := false } }, by unfold Alive; decide +kernel, by decide +kernel⟩,
   ⟨{ up with pcie := { up.pcie with ready := false } }, by unfold Alive; decide +kernel, by decide +kernel⟩,
   ⟨up, by unfold Alive; decide +kernel, by decide +kernel⟩,
   ⟨up, by unfold Alive; decide +kernel, by decide +kernel⟩,
   ⟨up, 128, by unfold Alive; decide +kernel, by decide +kernel⟩⟩

theorem witness_OrbitSlotsRun :
    (∃ (sc : Nat), ∃ (s : State), Alive s ∧ Slot s sc 5) ∧
    (∃ (sc : Nat), ∃ (s : State), ∃ (n : Nat), Alive s ∧ Slot s sc n ∧ n ≠ 5) ∧
    (∃ (sc : Nat), ∃ (s : State), ∃ (n : Nat), Alive s ∧ Slot s sc n ∧ n ≠ 2) ∧
    (∃ (sc : Nat), ∃ (s : State), ∃ (n : Nat), Alive s ∧ Slot s sc n ∧ n ≠ 3) ∧
    (∃ (sc : Nat), ∃ (s : State), ∃ (n : Nat), Alive s ∧ Slot s sc n ∧ n ≠ 4) ∧
    (∃ (sc : Nat), ∃ (s : State), ∃ (n : Nat), Alive s ∧ Slot s sc n ∧ n ≠ 0) ∧
    (∃ (sc : Nat), ∃ (s : State), ∃ (n : Nat), Alive s ∧ Slot s sc n ∧ n ≠ 1) ∧
    (∃ (sc : Nat), ∃ (s : State), Alive s ∧ Slot s sc 2) ∧
    (∃ (sc : Nat), ∃ (s : State), Alive s ∧ Slot s sc 3) ∧
    (∃ (sc : Nat), ∃ (s : State), Alive s ∧ Slot s sc 4) ∧
    (∃ (sc : Nat), ∃ (s : State), ∃ (g : Gran), Alive s ∧ Slot s sc 1 ∧ granFor s sc (slotArg s sc % 256) = some g ∧ g.bytes.length = 64 ∧ s.dram.mem.wf = true) ∧
    (∃ (sc : Nat), ∃ (s : State), ∃ (r : DReq), ∃ (bs : List Byte), Alive s ∧ Slot s sc 1 ∧ granFor s sc (slotArg s sc % 256) = none ∧ lentChoice s sc = some r ∧ r.data = some bs ∧ bs.length = 64 ∧ r.addr % 64 = 0 ∧ s.dram.mem.wf = true) ∧
    (∃ (sc : Nat), ∃ (s : State), Alive s ∧ Slot s sc 1 ∧ granFor s sc (slotArg s sc % 256) = none ∧ lentChoice s sc = none) ∧
    (∃ (sc : Nat), ∃ (s : State), Alive s ∧ subReady s sc = true ∧ (orbOf s sc = 0 ∨ (sub s sc).slots % 4096 ≠ 0 ∨ orbOf s sc = if wantsHot s (sc / 2) = true then 2 else 1)) ∧
    (∃ (sc : Nat), ∃ (s : State), Alive s ∧ subReady s sc = true ∧ orbOf s sc ≠ 0 ∧ (sub s sc).slots % 4096 = 0 ∧ orbOf s sc ≠ if wantsHot s (sc / 2) = true then 2 else 1) :=
  ⟨⟨0, inOrbit 1 4096 id (planned (withDram up)), by unfold Alive; decide +kernel, by unfold Slot; decide +kernel⟩,
   ⟨0, inOrbit 1 1 id (planned (withDram up)), 2, by unfold Alive; decide +kernel, by unfold Slot; decide +kernel, by decide +kernel⟩,
   ⟨0, inOrbit 1 2 id (planned (withDram up)), 3, by unfold Alive; decide +kernel, by unfold Slot; decide +kernel, by decide +kernel⟩,
   ⟨0, inOrbit 1 1 id (planned (withDram up)), 2, by unfold Alive; decide +kernel, by unfold Slot; decide +kernel, by decide +kernel⟩,
   ⟨0, inOrbit 1 1 id (planned (withDram up)), 2, by unfold Alive; decide +kernel, by unfold Slot; decide +kernel, by decide +kernel⟩,
   ⟨0, inOrbit 1 1 id (planned (withDram up)), 2, by unfold Alive; decide +kernel, by unfold Slot; decide +kernel, by decide +kernel⟩,
   ⟨0, inOrbit 1 1 id (planned (withDram up)), 2, by unfold Alive; decide +kernel, by unfold Slot; decide +kernel, by decide +kernel⟩,
   ⟨0, inOrbit 1 1 id (planned (withDram up)), by unfold Alive; decide +kernel, by unfold Slot; decide +kernel⟩,
   ⟨0, inOrbit 1 2 id (planned (withDram up)), by unfold Alive; decide +kernel, by unfold Slot; decide +kernel⟩,
   ⟨0, inOrbit 1 3 id (planned (withDram up)), by unfold Alive; decide +kernel, by unfold Slot; decide +kernel⟩,
   ⟨0, inOrbit 1 4 id (planned (withDram { up with dram := { up.dram with rt := [{ arr := 5, stream := 0, addr := 0, bytes := List.replicate 64 9, seq := 0 }] } })), ({ arr := 5, stream := 0, addr := 0, bytes := [0x09#8, 0x09#8, 0x09#8, 0x09#8, 0x09#8, 0x09#8, 0x09#8, 0x09#8, 0x09#8, 0x09#8, 0x09#8, 0x09#8, 0x09#8, 0x09#8, 0x09#8, 0x09#8, 0x09#8, 0x09#8, 0x09#8, 0x09#8, 0x09#8, 0x09#8, 0x09#8, 0x09#8, 0x09#8, 0x09#8, 0x09#8, 0x09#8, 0x09#8, 0x09#8, 0x09#8, 0x09#8, 0x09#8, 0x09#8, 0x09#8, 0x09#8, 0x09#8, 0x09#8, 0x09#8, 0x09#8, 0x09#8, 0x09#8, 0x09#8, 0x09#8, 0x09#8, 0x09#8, 0x09#8, 0x09#8, 0x09#8, 0x09#8, 0x09#8, 0x09#8, 0x09#8, 0x09#8, 0x09#8, 0x09#8, 0x09#8, 0x09#8, 0x09#8, 0x09#8, 0x09#8, 0x09#8, 0x09#8, 0x09#8], seq := 0 }), by unfold Alive; decide +kernel, by unfold Slot; decide +kernel, by decide +kernel⟩,
   ⟨0, inOrbit 1 4 (fun x => { x with reqs := [req 0 1 true] }) (planned (withDram up)), ({ arr := 1, addr := 0, cls := 3, at_ := 5, promoted := false, data := some [0x07#8, 0x07#8, 0x07#8, 0x07#8, 0x07#8, 0x07#8, 0x07#8, 0x07#8, 0x07#8, 0x07#8, 0x07#8, 0x07#8, 0x07#8, 0x07#8, 0x07#8, 0x07#8, 0x07#8, 0x07#8, 0x07#8, 0x07#8, 0x07#8, 0x07#8, 0x07#8, 0x07#8, 0x07#8, 0x07#8, 0x07#8, 0x07#8, 0x07#8, 0x07#8, 0x07#8, 0x07#8, 0x07#8, 0x07#8, 0x07#8, 0x07#8, 0x07#8, 0x07#8, 0x07#8, 0x07#8, 0x07#8, 0x07#8, 0x07#8, 0x07#8, 0x07#8, 0x07#8, 0x07#8, 0x07#8, 0x07#8, 0x07#8, 0x07#8, 0x07#8, 0x07#8, 0x07#8, 0x07#8, 0x07#8, 0x07#8, 0x07#8, 0x07#8, 0x07#8, 0x07#8, 0x07#8, 0x07#8, 0x07#8], by_ := Sys2Proof.Machine.ReqBy.job }), List.replicate 64 7, by unfold Alive; decide +kernel, by unfold Slot; decide +kernel, by decide +kernel⟩,
   ⟨0, inOrbit 1 4 id (planned (withDram up)), by unfold Alive; decide +kernel, by unfold Slot; decide +kernel, by decide +kernel⟩,
   ⟨0, inOrbit 1 1 id (planned (withDram up)), by unfold Alive; decide +kernel, by decide +kernel⟩,
   ⟨0, inOrbit 2 8192 id (planned (withDram up)), by unfold Alive; decide +kernel, by decide +kernel⟩⟩

theorem witness_FreeSlotsCarryRequests :
    (∃ (sc : Nat), ∃ (s : State), Alive s ∧ subReady s sc = true ∧ orbOf s sc = 0 ∧ srWrites s sc = false) ∧
    (∃ (sc : Nat), ∃ (s : State), ∃ (b : Nat), Alive s ∧ FreeNow s sc ∧ overflowed s sc = some b) ∧
    (∃ (sc : Nat), ∃ (s : State), Alive s ∧ FreeNow s sc ∧ overflowed s sc = none ∧ freeChoice (atFree s sc) sc (freeWrites s sc) = none ∧ (freeWrites s sc = true → traceReady (atFree s sc) sc = false)) ∧
    (∃ (sc : Nat), ∃ (s : State), ∃ (r : DReq), ∃ (d : DRead), ∃ (id : Nat), ∃ (a : Nat), ∃ (n : Nat), Alive s ∧ FreeNow s sc ∧ overflowed s sc = none ∧ freeWrites s sc = false ∧ freeChoice (atFree s sc) sc false = some r ∧ r.by_ = ReqBy.part id ∧ r.addr % 64 = 0 ∧ List.find? (fun (x : DRead) => x.id == id) s.dram.reads = some d ∧ d.by_ = ReadBy.aperture a n ∧ poisonIn s r.addr 64 = [] ∧ 2 ≤ d.left) ∧
    (∃ (sc : Nat), ∃ (s : State), ∃ (r : DReq), ∃ (d : DRead), ∃ (id : Nat), ∃ (a : Nat), ∃ (n : Nat), Alive s ∧ FreeNow s sc ∧ overflowed s sc = none ∧ freeWrites s sc = false ∧ freeChoice (atFree s sc) sc false = some r ∧ r.by_ = ReqBy.part id ∧ r.addr % 64 = 0 ∧ List.find? (fun (x : DRead) => x.id == id) s.dram.reads = some d ∧ d.by_ = ReadBy.aperture a n ∧ poisonIn s r.addr 64 = [] ∧ d.left = 1 ∧ d.bad = []) ∧
    (∃ (sc : Nat), ∃ (s : State), ∃ (r : DReq), Alive s ∧ FreeNow s sc ∧ overflowed s sc = none ∧ freeWrites s sc = false ∧ freeChoice (atFree s sc) sc false = some r ∧ r.by_ = ReqBy.scrubRead ∧ r.addr % 64 = 0 ∧ subOf s r.addr = sc ∧ s.dram.poison.contains r.addr = false ∧ poisonIn s r.addr 64 = [] ∧ (∀ (g : Gran), g ∈ s.dram.rt → sameGran g.addr r.addr = false) ∧ ∀ (q : DReq), q ∈ (sub s sc).reqs → sameGran q.addr r.addr = true → q.data = none) ∧
    (∃ (sc : Nat), ∃ (s : State), ∃ (r : DReq), ∃ (bs : List Byte), Alive s ∧ FreeNow s sc ∧ overflowed s sc = none ∧ freeWrites s sc = true ∧ freeChoice (atFree s sc) sc true = some r ∧ r.data = some bs ∧ bs.length = 64 ∧ r.addr % 64 = 0 ∧ s.dram.mem.wf = true) :=
  ⟨⟨0, inOrbit 0 0 (fun x => { x with sr := .asleep 0 }) (withDram up), by unfold Alive; decide +kernel, by decide +kernel⟩,
   ⟨0, inOrbit 0 0 (fun x => { x with banks := [(5, { DBank.reset with ovf := some 9 })] }) (withDram up), 5, by unfold Alive; decide +kernel, by unfold FreeNow Slot; decide +kernel, by decide +kernel⟩,
   ⟨5, apReading 1, by unfold Alive; decide +kernel, by unfold FreeNow Slot; decide +kernel, by decide +kernel⟩,
   ⟨0, apReading 2, ({ arr := 1, addr := 0, cls := 3, at_ := 5, promoted := false, data := none, by_ := Sys2Proof.Machine.ReqBy.part 0 }), { id := 0, grans := [0], left := 2, got := [], bad := [], by_ := .aperture 0 64 }, 0, 0, 64, by unfold Alive; decide +kernel, by unfold FreeNow Slot; decide +kernel, by decide +kernel⟩,
   ⟨0, apReading 1, ({ arr := 1, addr := 0, cls := 3, at_ := 5, promoted := false, data := none, by_ := Sys2Proof.Machine.ReqBy.part 0 }), { id := 0, grans := [0], left := 1, got := [], bad := [], by_ := .aperture 0 64 }, 0, 0, 64, by unfold Alive; decide +kernel, by unfold FreeNow Slot; decide +kernel, by decide +kernel⟩,
   ⟨0, inOrbit 0 0 (fun x => { x with reqs := [{ req 0 1 false with by_ := .scrubRead }] }) (withDram up), ({ arr := 1, addr := 0, cls := 3, at_ := 5, promoted := false, data := none, by_ := Sys2Proof.Machine.ReqBy.scrubRead }), by unfold Alive; decide +kernel, by unfold FreeNow Slot; decide +kernel, by decide +kernel⟩,
   ⟨0, inOrbit 0 0 (fun x => { x with reqs := [req 0 1 true] }) (withDram up), ({ arr := 1, addr := 0, cls := 3, at_ := 5, promoted := false, data := some [0x07#8, 0x07#8, 0x07#8, 0x07#8, 0x07#8, 0x07#8, 0x07#8, 0x07#8, 0x07#8, 0x07#8, 0x07#8, 0x07#8, 0x07#8, 0x07#8, 0x07#8, 0x07#8, 0x07#8, 0x07#8, 0x07#8, 0x07#8, 0x07#8, 0x07#8, 0x07#8, 0x07#8, 0x07#8, 0x07#8, 0x07#8, 0x07#8, 0x07#8, 0x07#8, 0x07#8, 0x07#8, 0x07#8, 0x07#8, 0x07#8, 0x07#8, 0x07#8, 0x07#8, 0x07#8, 0x07#8, 0x07#8, 0x07#8, 0x07#8, 0x07#8, 0x07#8, 0x07#8, 0x07#8, 0x07#8, 0x07#8, 0x07#8, 0x07#8, 0x07#8, 0x07#8, 0x07#8, 0x07#8, 0x07#8, 0x07#8, 0x07#8, 0x07#8, 0x07#8, 0x07#8, 0x07#8, 0x07#8, 0x07#8], by_ := Sys2Proof.Machine.ReqBy.job }), List.replicate 64 7, by unfold Alive; decide +kernel, by unfold FreeNow Slot; decide +kernel, by decide +kernel⟩⟩

theorem witness_IdleDramWorkIsDone :
    (∃ (s : State), ∃ (ch : Nat), Alive s ∧ ch < chCount s ∧ chState s ch ≠ 0) ∧
    (∃ (s : State), ∃ (sc : Nat), Alive s ∧ sc < subCount s ∧ subReady s sc = true ∧ orbOf s sc = 0 ∧ srWrites s sc = true ∧ (sub s sc).refAt < s.tb.time + 32) ∧
    (∃ (s : State), ∃ (sc : Nat), Alive s ∧ sc < subCount s ∧ subReady s sc = true ∧ orbOf s sc = 0 ∧ srWrites s sc = true ∧ s.tb.time + 32 ≤ (sub s sc).refAt) ∧
    (∃ (s : State), ∃ (sc : Nat), Alive s ∧ sc < subCount s) ∧
    (∃ (s : State), ∃ (sc : Nat), ∃ (k : Nat), Alive s ∧ sc < subCount s ∧ subReady s sc = true ∧ orbOf s sc = 0 ∧ capRunning s = false ∧ (sub s sc).sr = SrState.awake ∧ srIdleTicks s sc = some k ∧ (sub s sc).reqs = [] ∧ (sub s sc).lastReq + k ≤ s.tb.time) ∧
    (∃ (s : State), ∃ (sc : Nat), ∃ (k : Nat), Alive s ∧ sc < subCount s ∧ subReady s sc = true ∧ orbOf s sc = 0 ∧ capRunning s = false ∧ (sub s sc).sr = SrState.awake ∧ srIdleTicks s sc = some k ∧ ((sub s sc).reqs ≠ [] ∨ s.tb.time < (sub s sc).lastReq + k)) ∧
    (∃ (s : State), ∃ (sc : Nat), ∃ (k : Nat), Alive s ∧ sc < subCount s ∧ (sub s sc).reqs ≠ [] ∧ (sub s sc).sr = SrState.asleep k ∧ k + 7680 ≤ s.tb.time) ∧
    (∃ (s : State), ∃ (sc : Nat), Alive s ∧ sc < subCount s ∧ ((sub s sc).reqs = [] ∨ ∀ (k : Nat), (sub s sc).sr ≠ SrState.asleep k)) ∧
    (∃ (s : State), ∃ (sc : Nat), Alive s ∧ sc < subCount s ∧ subReady s sc = true ∧ orbOf s sc = 0 ∧ (sub s sc).sr = SrState.awake ∧ pwrState s = 1 ∧ (sub s sc).reqs = []) ∧
    (∃ (s : State), ∃ (sc : Nat), Alive s ∧ sc < subCount s ∧ pwrState s ≠ 1) ∧
    (∃ (s : State), ∃ (sc : Nat), ∃ (a : Nat), Alive s ∧ sc < subCount s ∧ subReady s sc = true ∧ rf s (chBase (sc / 2) + 40) 31 31 = 1 ∧ (sub s sc).sr = SrState.awake ∧ pwrState s < 2 ∧ scrubNext s sc = some a ∧ (sub s sc).scrubDue < s.tb.time + 32) ∧
    (∃ (s : State), ∃ (sc : Nat), ∃ (a : Nat), Alive s ∧ sc < subCount s ∧ subReady s sc = true ∧ rf s (chBase (sc / 2) + 40) 31 31 = 1 ∧ (sub s sc).sr = SrState.awake ∧ pwrState s < 2 ∧ scrubNext s sc = some a ∧ s.tb.time + 32 ≤ (sub s sc).scrubDue) :=
  ⟨⟨clock 4096 (10 ^ 9) (withDram up), 0, by unfold Alive; decide +kernel, by decide +kernel⟩,
   ⟨clock 4096 (10 ^ 9) (withDram up), 0, by unfold Alive; decide +kernel, by decide +kernel⟩,
   ⟨clock 0 6 (withRegs [(chBase 0 + 0x1C, 0x80000005)] (inOrbit 0 0 (fun x => { x with reqs := [req 0 1 false], refAt := 10 ^ 5, scrubDue := 10 ^ 5 }) (withDram up))), 0, by unfold Alive; decide +kernel, by decide +kernel⟩,
   ⟨clock 4096 (10 ^ 9) (withDram up), 0, by unfold Alive; decide +kernel, by decide +kernel⟩,
   ⟨clock 4096 (10 ^ 9) (withRegs [(chBase 0 + 0x28, 0x80000000), (chBase 0 + 0x2C, 0), (chBase 0 + 0x30, 2), (chBase 0 + 0x1C, 0x80000005)] (withDram up)), 0, (256000), by unfold Alive; decide +kernel, by decide +kernel⟩,
   ⟨clock 0 0 (withRegs [(chBase 0 + 0x1C, 0x80000005)] (withDram up)), 0, (256000), by unfold Alive; decide +kernel, by decide +kernel⟩,
   ⟨clock 4096 (10 ^ 9) (inOrbit 0 0 (fun x => { x with reqs := [req 0 1 false], sr := .asleep 0 }) (withDram up)), 0, 0, by unfold Alive; decide +kernel, by decide +kernel⟩,
   ⟨clock 4096 (10 ^ 9) (withDram up), 0, by unfold Alive; decide +kernel, by decide +kernel, .inl (by decide +kernel)⟩,
   ⟨clock 4096 (10 ^ 9) (setRf 0x50000 31 28 4 (withDram up)), 0, by unfold Alive; decide +kernel, by decide +kernel⟩,
   ⟨clock 4096 (10 ^ 9) (withDram up), 0, by unfold Alive; decide +kernel, by decide +kernel⟩,
   ⟨clock 4096 (10 ^ 9) (withRegs [(chBase 0 + 0x28, 0x80000000), (chBase 0 + 0x2C, 0), (chBase 0 + 0x30, 2), (chBase 0 + 0x1C, 0x80000005)] (withDram up)), 0, 0, by unfold Alive; decide +kernel, by decide +kernel⟩,
   ⟨clock 0 6 (withRegs [(chBase 0 + 0x28, 0x80000000), (chBase 0 + 0x2C, 0), (chBase 0 + 0x30, 2)] (inOrbit 0 0 (fun x => { x with scrubDue := 10 ^ 5 }) (withDram up))), 0, 0, by unfold Alive; decide +kernel, by decide +kernel⟩⟩

theorem witness_TemperatureActs :
    (∃ (s : State), ∃ (i : Nat), ∃ (x : Int), Alive s ∧ i < 24 ∧ -32768 ≤ x ∧ x < 32768) ∧
    (∃ (s : State), ∃ (i : Nat), Alive s ∧ i < 24) ∧
    (∃ (s : State), Alive s) ∧
    (∃ (s : State), Alive s ∧ rf s 327680 24 24 = 1 ∧ s.pwr.peakDone = false ∧ pTpeak (plan s) ≤ pwrPeak s) ∧
    (∃ (s : State), Alive s ∧ (rf s 327680 24 24 ≠ 1 ∨ s.pwr.peakDone = true ∨ pwrPeak s < pTpeak (plan s))) ∧
    (∃ (s : State), ∃ (i : Nat), Alive s ∧ i < 24 ∧ tripped s = true) ∧
    (∃ (s : State), ∃ (i : Nat), Alive s ∧ i < 24 ∧ tripped s = false) :=
  ⟨⟨up, 23, 1361, by unfold Alive; decide +kernel, by decide +kernel⟩,
   ⟨up, 23, by unfold Alive; decide +kernel, by decide +kernel⟩,
   ⟨up, by unfold Alive; decide +kernel⟩,
   ⟨setRf 0x50000 24 24 1 (clock 0 (10 ^ 13) (planned up)), by unfold Alive; decide +kernel, by decide +kernel⟩,
   ⟨up, by unfold Alive; decide +kernel, by decide +kernel⟩,
   ⟨setRf 0x50000 25 25 1 up, 23, by unfold Alive; decide +kernel, by decide +kernel⟩,
   ⟨up, 23, by unfold Alive; decide +kernel, by decide +kernel⟩⟩

theorem witness_ResetsTakeEffect :
    (∃ (n : Nat), ∃ (s : State), Alive s ∧ (n < 200 ∨ s.pwr.warm = true)) ∧
    (∃ (n : Nat), ∃ (s : State), Alive s ∧ 1000 ≤ n ∧ s.pwr.warm = false) ∧
    (∃ (s : State), Alive s ∧ s.pwr.warm = false) ∧
    (∃ (s : State), Alive s ∧ s.pwr.warm = true ∧ warmOver s = false) ∧
    (∃ (s : State), Alive s ∧ s.pwr.warm = true ∧ warmOver s = true) ∧
    (∃ (s : State), Alive s ∧ s.pcie.ready = false) ∧
    (∃ (s : State), Alive s ∧ s.pcie.ready = true ∧ s.pwr.warm = false ∧ s.plans.admitting = none) ∧
    (∃ (s : State), Alive s ∧ s.pwr.warm = true) ∧
    (∃ (s : State), Alive s ∧ s.pwr.warm = true) ∧
    (∃ (s : State), Alive s ∧ s.pwr.warm = false ∧ s.plans.admitting = none) ∧
    (∃ (s : State), Alive s ∧ s.pwr.warm = false ∧ s.plans.admitting = none) :=
  ⟨⟨199, up, by unfold Alive; decide +kernel, by decide +kernel⟩,
   ⟨1000, up, by unfold Alive; decide +kernel, by decide +kernel⟩,
   ⟨up, by unfold Alive; decide +kernel, by decide +kernel⟩,
   ⟨{ up with pwr := { up.pwr with warm := true } }, by unfold Alive; decide +kernel, by decide +kernel⟩,
   ⟨clock 0 (10 ^ 9) { up with pwr := { up.pwr with warm := true } }, by unfold Alive; decide +kernel, by decide +kernel⟩,
   ⟨{ up with pcie := { up.pcie with ready := false } }, by unfold Alive; decide +kernel, by decide +kernel⟩,
   ⟨up, by unfold Alive; decide +kernel, by decide +kernel⟩,
   ⟨{ up with pwr := { up.pwr with warm := true } }, by unfold Alive; decide +kernel, by decide +kernel⟩,
   ⟨{ up with pwr := { up.pwr with warm := true } }, by unfold Alive; decide +kernel, by decide +kernel⟩,
   ⟨up, by unfold Alive; decide +kernel, by decide +kernel⟩,
   ⟨up, by unfold Alive; decide +kernel, by decide +kernel⟩⟩

theorem witness_HostOwnsTheBanksOfAbsentMasters :
    (∃ (s : State), s.part = Part.ha) ∧
    (∃ (s : State), ∃ (n : Nat), s.part = Part.ha ∧ Alive s ∧ 1000 ≤ n ∧ s.pwr.warm = false) :=
  ⟨⟨{ up with part := .ha }, by decide +kernel⟩,
   ⟨{ up with part := .ha }, 1000, by decide +kernel, by unfold Alive; decide +kernel, by decide +kernel⟩⟩

theorem witness_ResetMeetsInvariant : State.Inv State.reset := ⟨by decide, fun h => h⟩

theorem witness_EveryStepKeepsInvariant : ∃ s t, State.Inv s ∧ Machine.step s = .next t :=
  ⟨{ State.reset with pending := [.extest] }, _, ⟨by decide, fun h => h⟩, rfl⟩

theorem witness_StepServesTheQueue :
    (∃ (s : State) (c : Instr) (rest : List Instr), s.pending = c :: rest ∧ rest ≠ []) ∧ (∃ s : State, Alive s ∧ s.pending = []) ∧
      ∃ s : State, s.jtag.testMode = false ∧ s.tb.dead = true ∧ s.pending = [] :=
  ⟨⟨{ up with pending := [.extest, .step] }, .extest, [.step], rfl, by decide⟩, ⟨up, by unfold Alive; decide, rfl⟩,
   ⟨{ up with tb := { up.tb with dead := true } }, rfl, rfl, rfl⟩⟩

theorem witness_StepKeepsQueueAndStraps : ∃ s t c, s.pending = [c] ∧ Machine.step s = .next t ∧ t.pending = [] :=
  ⟨{ State.reset with pending := [.extest] }, _, _, rfl, rfl, rfl⟩

end Sys2Proof.Tests
end

section
/-! PROOFS. The stream writers (R136 to R144, R151, R152, R211): taking samples, passing events and ending streams change nothing outside
`State.calm`'s blanks. -/

namespace Sys2Proof.Machine

variable (s : State)

/-! ### Records -/

@[simp] theorem countCoded_calm (x n : Nat) (b : List Byte) : (countCoded x n b s).calm = s.calm := by
  unfold countCoded; simp

@[simp] theorem closeOne_calm (i b : Nat) (r : OpenRec) : (closeOne i b s r).calm = s.calm := by
  unfold closeOne
  dsimp only
  split
  · rw [countCoded_calm]; split <;> simp
  · simp

@[simp] theorem closeSel_calm (p : OpenRec → Bool) (i b : Nat) : (closeSel p i b s).calm = s.calm := by
  unfold closeSel
  dsimp only
  rw [foldl_calm _ _ _ fun t r => closeOne_calm t i b r, setStrm_calm]

@[simp] theorem closeLane_calm (i k b : Nat) : (closeLane i k b s).calm = s.calm := closeSel_calm s _ i b
@[simp] theorem closeAll_calm (i b : Nat) : (closeAll i b s).calm = s.calm := closeSel_calm s _ i b

@[simp] theorem flushQ_calm (f i pos hold : Nat) : (flushQ f i pos hold s).calm = s.calm := by
  induction f generalizing s with
  | zero => rfl
  | succ f ih =>
    unfold flushQ
    dsimp only
    split
    · rfl
    · rw [ih, putRec_calm, setStrm_calm]

@[simp] theorem flush_calm (i pos hold : Nat) : (flush i pos hold s).calm = s.calm := flushQ_calm s _ i pos hold

@[simp] theorem addDue_calm (i b : Nat) : (addDue i b s).calm = s.calm := rfl

/-! ### Gaps -/

@[simp] theorem gap_calm (i a b c m d : Nat) : (gap i a b c m d s).calm = s.calm := by
  simp only [gap, apply_ite State.calm, setSource_calm, enqueue_calm, ite_self]

@[simp] theorem setStall_calm (i a m : Nat) : (setStall i a m s).calm = s.calm := rfl

@[simp] theorem cutStall_calm (i last a m : Nat) : (cutStall i last a m s).calm = s.calm := by
  unfold cutStall
  dsimp only
  split
  · split
    · rw [setStall_calm]; split <;> simp
    · rfl
  · rfl

@[simp] theorem closeBefore_calm (i k t : Nat) : (closeBefore i k t s).calm = s.calm := by
  unfold closeBefore; split <;> simp

@[simp] theorem emitKey_calm (i b : Nat) (fin : Bool) (k : Nat) : (emitKey i b fin s k).calm = s.calm := by
  unfold emitKey
  dsimp only
  split
  · rfl
  · rw [setStrm_calm, foldl_calm]
    intro t g
    split <;> simp

@[simp] theorem splitStall_calm (i b : Nat) (fin : Bool) : (splitStall i b fin s).calm = s.calm := by
  unfold splitStall
  split
  · rfl
  · have hstep : ∀ (a : Nat) (t : State) (e : Nat), (if freeMask s i e = (strm t i).overMask then t
        else if a < e then cutStall i (e - 1) e (freeMask s i e) t else setStall i a (freeMask s i e) t).calm = t.calm := by
      intro a t e
      split
      · rfl
      · split <;> simp
    dsimp only
    split
    · rw [cutStall_calm, foldl_calm _ _ _ (hstep _)]
    · rw [foldl_calm _ _ _ (hstep _)]

@[simp] theorem passTo_calm (i b : Nat) (fin : Bool) : (passTo i b fin s).calm = s.calm := by
  unfold passTo
  rw [foldl_calm _ _ _ fun t k => emitKey_calm t i b fin k, splitStall_calm]

/-! ### Events that a writer passes -/

@[simp] theorem passEvent_calm (i : Nat) (e : Nat × Nat) : (passEvent i e s).calm = s.calm := by
  unfold passEvent
  dsimp only
  repeat' split
  all_goals simp

@[simp] theorem passEvents_calm (f i pos : Nat) : (passEvents f i pos s).calm = s.calm := by
  induction f generalizing s with
  | zero => rfl
  | succ f ih =>
    unfold passEvents
    split
    · rfl
    · rw [ih, passEvent_calm]

@[simp] theorem reach_calm (i pos : Nat) : (reach i pos s).calm = s.calm := by
  unfold reach
  dsimp only
  rw [passEvents_calm, flush_calm]
  split <;> simp

/-! ### Samples -/

@[simp] theorem startDensity_calm (i t : Nat) : (startDensity i t s).calm = s.calm := by
  unfold startDensity; simp

@[simp] theorem startOverrun_calm (i t : Nat) : (startOverrun i t s).calm = s.calm := by
  unfold startOverrun; simp

@[simp] theorem openData_calm (i k t : Nat) (ws : List (BitVec 16)) : (openData i k t ws s).calm = s.calm := by
  unfold openData
  dsimp only
  split <;> simp

@[simp] theorem setOpen_calm (i k : Nat) (r : OpenRec) : (setOpen i k r s).calm = s.calm := rfl

@[simp] theorem storeDense_calm (i t : Nat) (ws : List (BitVec 16)) : (storeDense i t ws s).calm = s.calm := by
  unfold storeDense
  dsimp only
  repeat' split
  all_goals simp

@[simp] theorem storeTrans_calm (i k t : Nat) (ws : List (BitVec 16)) : (storeTrans i k t ws s).calm = s.calm := by
  unfold storeTrans
  dsimp only
  repeat' split
  all_goals simp

/-- A sample taken by its writer (R136 to R141). -/
@[simp] theorem takeSample_calm (i k t : Nat) : (takeSample i k t s).calm = s.calm := by
  unfold takeSample
  dsimp only
  repeat' split
  all_goals simp

@[simp] theorem drainTo_calm (f b : Nat) : (drainTo f b s).calm = s.calm := by
  induction f generalizing s with
  | zero => rfl
  | succ f ih =>
    unfold drainTo
    split
    · rfl
    · rw [ih, takeSample_calm]

/-! ### Ends of segments -/

@[simp] theorem endStream_calm (g : Seg) (e i : Nat) : (endStream g e s i).calm = s.calm := by
  unfold endStream
  dsimp only
  rw [setStrm_calm, addDue_calm, writeRec_calm, setStrm_calm, passEvents_calm, flush_calm, closeAll_calm]
  split <;> simp

@[simp] theorem startStream_calm (t i : Nat) : (startStream t s i).calm = s.calm := by
  unfold startStream
  dsimp only
  split <;> simp

@[simp] theorem closingGap_calm (ts c i : Nat) : (closingGap ts c s i).calm = s.calm := by
  unfold closingGap
  dsimp only
  rw [foldl_calm]
  intro t k
  split <;> simp

end Sys2Proof.Machine
end

section
/-! PROOFS. Bank ownership (R4, R323): the ordering code and the BANKOWN registers, and the operations of captures, commands, DRAM and lanes
that leave them. -/

namespace Sys2Proof.Machine

variable (s : State)

/-! ### The view -/

/-- What decides who owns a bank at reset and after: the ordering code, and BANKOWN of every bank. -/
def State.owners (s : State) : Part × List W32 := (s.part, (List.range 12).map fun k => reg s (ownOff k))

theorem owners_of_regs {s t : State} (hp : t.part = s.part) (hr : ∀ k < 12, reg t (ownOff k) = reg s (ownOff k)) : t.owners = s.owners := by
  simp only [State.owners, hp, Prod.mk.injEq, true_and]
  exact List.map_congr_left fun k hk => hr k (List.mem_range.1 hk)

theorem owners_of_same {s t : State} (hp : t.part = s.part) (hr : t.regs = s.regs) : t.owners = s.owners :=
  owners_of_regs hp fun k _ => by simp only [reg, hr]

theorem part_of_owners {s t : State} (h : t.owners = s.owners) : t.part = s.part := congrArg Prod.fst h

theorem ownerOf_of_owners {s t : State} (h : t.owners = s.owners) {k : Nat} (hk : k < 12) : ownerOf t k = ownerOf s k := by
  have hmap : (List.range 12).map (fun k => reg t (ownOff k)) = (List.range 12).map fun k => reg s (ownOff k) := congrArg Prod.snd h
  simp only [ownerOf, rf, List.map_inj_left.1 hmap k (List.mem_range.2 hk)]

/-- No BANKOWN register holds events or logs. -/
theorem isLogReg_ownOff : ∀ k < 12, isLogReg (ownOff k) = false := by decide +kernel

theorem owners_of_beside {s t : State} (h : t.beside = s.beside) : t.owners = s.owners :=
  owners_of_regs (congrArg State.part h :) fun k hk => reg_of_beside h (isLogReg_ownOff k hk)

theorem owners_of_calm {s t : State} (h : t.calm = s.calm) : t.owners = s.owners := owners_of_beside (beside_of_calm h)

theorem foldl_owners {α : Type} (l : List α) (f : State → α → State) (h : ∀ t a, (f t a).owners = t.owners) :
    (l.foldl f s).owners = s.owners := by
  induction l generalizing s with
  | nil => rfl
  | cons a l ih => rw [List.foldl_cons, ih, h]

/-- A register outside the block of BANKOWN. -/
abbrev besideOwners (off : Nat) : Prop := off < 0x60000 ∨ 0x60030 ≤ off

theorem setReg_owners {off : Nat} (v : W32) (h : besideOwners off) : (setReg off v s).owners = s.owners :=
  owners_of_regs rfl fun k hk => reg_setReg_ne s v (by unfold ownOff; omega)

theorem setRf_owners {off : Nat} (hi lo x : Nat) (h : besideOwners off) : (setRf off hi lo x s).owners = s.owners := setReg_owners s _ h

theorem besideOwners_chBase (ch o : Nat) : besideOwners (chBase ch + o) := by unfold chBase; omega
theorem besideOwners_laneBase (n o : Nat) : besideOwners (laneBase n + o) := by unfold laneBase; split <;> omega
theorem besideOwners_taBase (a o : Nat) : besideOwners (taBase a + o) := by unfold taBase; omega

@[simp] theorem setSource_owners (n : Nat) : (setSource n s).owners = s.owners := owners_of_calm (setSource_calm s n)
@[simp] theorem orderEnd_owners (last : Nat) (r : EndReason) : (orderEnd last r s).owners = s.owners := owners_of_calm (orderEnd_calm s last r)
@[simp] theorem count_owners (off : Nat) : (count off s).owners = s.owners := owners_of_calm (count_calm s off)
@[simp] theorem raise_owners (n d : Nat) : (raise n d s).owners = s.owners := owners_of_calm (raise_calm s n d)
@[simp] theorem jcommit_owners (b : JBody) : (jcommit b s).owners = s.owners := owners_of_beside (jcommit_beside s b)
@[simp] theorem finishCmd_owners (o st : Nat) (x0 x1 x2 : W64) : (finishCmd o st x0 x1 x2 s).owners = s.owners :=
  owners_of_beside (finishCmd_beside s o st x0 x1 x2)
@[simp] theorem finishLong_owners (o st : Nat) (x0 x1 x2 : W64) : (finishLong o st x0 x1 x2 s).owners = s.owners :=
  owners_of_beside (finishLong_beside s o st x0 x1 x2)
@[simp] theorem setSub_owners (i : Nat) (x : SubCh) : (setSub i x s).owners = s.owners := rfl
@[simp] theorem setLane_owners (n : Nat) (x : LaneSt) : (setLane n x s).owners = s.owners := rfl
@[simp] theorem setSq_owners (q : Nat) (x : Seqr) : (setSq q x s).owners = s.owners := rfl

/-! ### DRAM: orbits, self-refresh, writes (R167, R174, R182, R185) -/

@[simp] theorem setOrb_owners (sc v : Nat) : (setOrb sc v s).owners = s.owners := setRf_owners s _ _ _ (besideOwners_chBase _ _)
@[simp] theorem setSr_owners (sc v : Nat) : (setSr sc v s).owners = s.owners := setRf_owners s _ _ _ (besideOwners_chBase _ _)

@[simp] theorem endOrbits_owners : (endOrbits s).owners = s.owners := by
  unfold endOrbits
  refine foldl_owners s _ _ fun t sc => ?_
  unfold endOrbit; simp

@[simp] theorem enterSr_owners (sc : Nat) : (enterSr sc s).owners = s.owners := by
  unfold enterSr; split <;> rfl

@[simp] theorem allEnterSr_owners : (allEnterSr s).owners = s.owners := foldl_owners s _ _ fun t sc => enterSr_owners t sc

@[simp] theorem doubleRefresh_owners (on : Bool) : (doubleRefresh on s).owners = s.owners := foldl_owners s _ _ fun _ _ => rfl

@[simp] theorem sleepSub_owners (sc : Nat) : (sleepSub sc s).owners = s.owners := by
  unfold sleepSub
  split
  · rfl
  · unfold issueSre closeRows; simp

@[simp] theorem trainingTo_owners (st : Nat) : (trainingTo st s).owners = s.owners := by
  refine foldl_owners s _ _ fun t ch => ?_
  split
  · exact setRf_owners t _ _ _ (besideOwners_chBase _ _)
  · rfl

@[simp] theorem writeDram_owners (a : Nat) (bs : List Byte) : (writeDram a bs s).owners = s.owners := rfl

@[simp] theorem clusterIn_owners (f c : Nat) : (clusterIn f c s).owners = s.owners := by
  induction f generalizing s with
  | zero => rfl
  | succ f ih =>
    unfold clusterIn
    split
    · rfl
    · split
      · rfl
      · rw [ih]; rfl

@[simp] theorem cellsIn_owners : (cellsIn s).owners = s.owners := by
  unfold cellsIn
  dsimp only
  split
  · rfl
  · exact foldl_owners s _ _ fun t c => clusterIn_owners t _ c

@[simp] theorem flushRt_owners : (flushRt s).owners = s.owners := by
  unfold flushRt
  exact (foldl_owners _ _ _ fun t g => writeDram_owners t _ _).trans (cellsIn_owners s)

/-! ### The journal and the ends of commands (R153, R155, R301, R303) -/

theorem kept_commitDues (f i : Nat) : Kept s (commitDues f i s) := by
  induction f generalizing s with
  | zero => exact .refl s
  | succ f ih =>
    unfold commitDues
    dsimp only
    split
    · exact .refl s
    · split
      · exact ((kept_setStrm s _ _).trans (kept_jcommit _ _)).trans (ih _)
      · exact .refl s

theorem kept_releaseOut (os : List JOut) : Kept s (releaseOut os s) := by
  induction os generalizing s with
  | nil => exact .refl s
  | cons o rest ih =>
    unfold releaseOut
    split
    · exact .refl s
    · exact (Kept.of_eq (t := { s with jr := { s.jr with out := rest } }) rfl rfl rfl).trans ((kept_postEntry _ _ _).trans (ih _))

theorem kept_jwritten (j : Nat) : Kept s (jwritten j s) := by
  unfold jwritten
  split
  · exact .refl s
  · split
    · exact .of_eq rfl rfl rfl
    · exact (Kept.of_eq (t := { s with jr := { s.jr with wait := s.jr.wait.filter fun v => v.jseq != j } }) rfl rfl rfl).trans
        ((kept_entryDone _ _).trans (kept_releaseOut _ _))

@[simp] theorem tryFinishArm_owners : (tryFinishArm s).owners = s.owners := by
  unfold tryFinishArm
  dsimp only
  split
  · split <;> simp only [finishLong_owners, finishCmd_owners, endOrbits_owners, jcommit_owners] <;> rfl
  · rfl

@[simp] theorem tryCommitAll_owners : (tryCommitAll s).owners = s.owners := by
  unfold tryCommitAll
  rw [tryFinishArm_owners]
  exact foldl_owners s _ _ fun t p => owners_of_beside (kept_commitDues t _ p.1).1

@[simp] theorem journalNow_owners (f : Nat) : (journalNow f s).owners = s.owners := by
  induction f generalizing s with
  | zero => rfl
  | succ f ih =>
    unfold journalNow
    dsimp only
    split
    · rfl
    · rw [ih, tryCommitAll_owners, foldl_owners]
      · rfl
      · intro t r
        split
        · rw [owners_of_beside (kept_jwritten _ _).1, writeDram_owners]
        · rfl

@[simp] theorem dropWork_owners (o : Nat) : (dropWork o s).owners = s.owners := by
  unfold dropWork
  dsimp only
  split
  · split
    · exact setRf_owners _ _ _ _ (by omega)
    · rfl
  · rfl

@[simp] theorem killCmd_owners (o st : Nat) : (killCmd o st s).owners = s.owners := by
  unfold killCmd
  rw [owners_of_beside (endBy_beside _ o st)]
  exact dropWork_owners s o

@[simp] theorem endCommands_owners (st : Nat) : (endCommands st s).owners = s.owners := foldl_owners s _ _ fun t o => killCmd_owners t o st

@[simp] theorem endWaitingArm_owners (st : Nat) : (endWaitingArm st s).owners = s.owners := by
  unfold endWaitingArm
  split
  · rw [finishCmd_owners, endOrbits_owners]; rfl
  · rfl

/-! ### The automata (R106 to R116, R129) -/

@[simp] theorem snapTimers_owners (t : Nat) : (snapTimers t s).owners = s.owners :=
  foldl_owners s _ _ fun _ _ => setReg_owners _ _ (by omega)

@[simp] theorem traceAdd_owners (flow : Bool) (e : W64) : (traceAdd flow e s).owners = s.owners :=
  owners_of_calm (calm_of_quiet (traceAdd_quiet s flow e))

@[simp] theorem snapAuto_owners (t a : Nat) : (snapAuto t a s).owners = s.owners := by
  unfold snapAuto
  simp only [apply_ite State.owners, traceAdd_owners, ite_self]
  rw [foldl_owners]
  · simp only [setReg_owners _ _ (besideOwners_taBase _ _)]
  · intro z u
    rw [setReg_owners, setReg_owners] <;> (unfold taBase; omega)

@[simp] theorem queueMarks_owners (t : Nat) (ms : List (Nat × Bool × Nat × Nat × Option Origin)) : (queueMarks t ms s).owners = s.owners := by
  unfold queueMarks
  refine foldl_owners s _ _ fun z k => ?_
  dsimp only
  split
  · rfl
  · exact foldl_owners z _ _ fun _ _ => rfl

/-- RUN of every automaton clears. -/
theorem clearRun_owners : ((List.range 8).foldl (fun z a => setRf (taBase a + 4) 12 12 0 z) s).owners = s.owners :=
  foldl_owners s _ _ fun t a => setRf_owners t _ _ _ (besideOwners_taBase a 4)

/-- The evaluation of a slice. -/
@[simp] theorem evalSlice_owners (t : Nat) (trig : List W32) (flips : List LineFlip) : (evalSlice t trig flips s).owners = s.owners := by
  unfold evalSlice
  have hsnap : (snapTimers t ((List.range 8).foldl (fun z a => snapAuto t a z) s)).owners = s.owners := by
    rw [snapTimers_owners]; exact foldl_owners s _ _ fun z a => snapAuto_owners z t a
  have hlanes : ∀ (l : List (Nat × LaneHist × List (BitVec 16))) (z : State),
      (l.foldl (fun z r => setLane r.1 { lane z r.1 with hist := r.2.1 } z) z).owners = z.owners :=
    fun l z => foldl_owners z l _ fun _ _ => rfl
  simp only [apply_ite State.owners, clearRun_owners, queueMarks_owners, setSource_owners, ite_self]
  exact (hlanes _ _).trans hsnap

@[simp] theorem sampleTrig_owners (trig : List W32) : (sampleTrig trig s).owners = s.owners := by
  unfold sampleTrig; split <;> rfl

@[simp] theorem evalTo_owners (f last : Nat) : (evalTo f last s).owners = s.owners := by
  induction f generalizing s with
  | zero => rfl
  | succ f ih =>
    unfold evalTo
    split
    · rw [ih, evalSlice_owners, sampleTrig_owners]
    · rfl

@[simp] theorem raiseHev_owners (h : HostEv) : (raiseHev h s).owners = s.owners := by
  unfold raiseHev
  dsimp only
  rw [setSource_owners]
  split <;> simp only [setReg_owners _ _ (besideOwners_taBase _ _)]

@[simp] theorem raiseAllHevs_owners : (raiseAllHevs s).owners = s.owners := foldl_owners _ _ _ fun t h => raiseHev_owners t h

/-! ### The end of a capture (R26, R135, R142, R374) -/

@[simp] theorem endSegment_owners (g : Seg) (e : Nat) : (endSegment g e s).owners = s.owners := by
  unfold endSegment
  have hend : ((activeStreams s).foldl (endStream g e) s).owners = s.owners :=
    owners_of_calm (foldl_calm s _ _ fun t i => endStream_calm t g e i)
  dsimp only
  split
  · rw [owners_of_calm (foldl_calm _ _ _ fun t i => startStream_calm t _ i), ← hend]
    exact setSource_owners _ _
  · rw [← hend]
    exact setSource_owners _ _

@[simp] theorem stopSegments_owners (f last : Nat) : (stopSegments f last s).owners = s.owners := by
  induction f generalizing s with
  | zero => rfl
  | succ f ih =>
    unfold stopSegments
    split
    · rfl
    · dsimp only
      rw [ih, endSegment_owners, owners_of_calm (drainTo_calm s _ _)]

@[simp] theorem closeCapture_owners (last : Nat) (r : EndReason) : (closeCapture last r s).owners = s.owners := by
  unfold closeCapture
  dsimp only
  have hdue : ((activeStreams s).foldl (fun z i => addDue i last z) s).owners = s.owners :=
    owners_of_calm (foldl_calm s _ _ fun t i => addDue_calm t i last)
  rw [tryCommitAll_owners, setSource_owners, setReg_owners, setRf_owners, clearRun_owners, raiseAllHevs_owners]
  · exact hdue
  all_goals omega

theorem closingGaps_owners (ts c : Nat) (l : List Nat) : (l.foldl (closingGap ts c) s).owners = s.owners :=
  owners_of_calm (foldl_calm s _ _ fun t i => closingGap_calm t ts c i)

/-- A capture that a reset or a trip stops. -/
@[simp] theorem hardStop_owners (r : EndReason) (c : Nat) : (hardStop r c s).owners = s.owners := by
  unfold hardStop
  dsimp only
  split
  · simp
  · split
    · split <;> simp
    · simp only [journalNow_owners, closeCapture_owners, flushRt_owners, apply_ite State.owners, closingGaps_owners, stopSegments_owners, ite_self]
      split <;> simp

/-! ### The trip (R374) -/

@[simp] theorem laneOff_owners (n st : Nat) : (laneOff n st s).owners = s.owners := by
  have hset : ∀ c, (setLaneState n st c s).owners = s.owners := fun c => setRf_owners s _ _ _ (besideOwners_laneBase _ _)
  unfold laneOff
  split
  · unfold leaveRun openGap
    dsimp only
    split
    · rw [setLane_owners, hset]
    · exact hset _
  · exact hset _

@[simp] theorem lanesDown_owners : (lanesDown s).owners = s.owners := by
  unfold lanesDown
  refine foldl_owners s _ _ fun t n => ?_
  split <;> simp

@[simp] theorem tripStop_owners : (tripStop s).owners = s.owners := by
  unfold tripStop
  dsimp only
  rw [setRf_owners _ _ _ _ (by omega)]
  simp only [lanesDown_owners, allEnterSr_owners, doubleRefresh_owners, journalNow_owners, trainingTo_owners, endCommands_owners,
    endWaitingArm_owners]
  exact hardStop_owners s .trip 5

/-- A trip leaves the owners of the banks. -/
@[simp] theorem doTrip_owners (i : Nat) : (doTrip i s).owners = s.owners := by
  unfold doTrip
  have htrip : ∀ u : State, (raise (srcPwr 4) i (setRf 0x50000 25 25 1 u)).owners = u.owners := fun u => by
    rw [raise_owners, setRf_owners _ _ _ _ (by omega)]
  dsimp only
  split
  · rfl
  · split
    · rfl
    · split
      · exact htrip _
      · rw [tripStop_owners]; exact htrip _

end Sys2Proof.Machine
end

section
/-! PROOFS. The resets (R4, R26, R27): which of their steps leave the owners of the banks, and the ones that give banks of absent masters to the
host. -/

namespace Sys2Proof.Machine

variable (s : State)

/-- A domain whose registers a reset drops leaves BANKOWN if it does not hold it. -/
theorem dropRegs_owners {p : Nat → Bool} (h : ∀ k < 12, p (ownOff k) = false) : (dropRegs p s).owners = s.owners :=
  owners_of_regs rfl fun k hk => tblGet_filter s.regs (ownOff k) _ (fun o => !p o) (by simp [h k hk])

/-! ### RD-HOST -/

@[simp] theorem newNonce_owners : (newNonce s).owners = s.owners := by
  unfold newNonce
  dsimp only
  rw [setReg_owners, setReg_owners]
  · rfl
  all_goals omega

@[simp] theorem endCustody_owners : (endCustody s).owners = s.owners := by
  unfold endCustody
  dsimp only
  split
  · rw [setSource_owners, setReg_owners _ _ (by omega)]; rfl
  · rfl

theorem keepLink_owners (t : State) : (keepLink s t).owners = t.owners := by
  unfold keepLink
  rw [setReg_owners, setReg_owners] <;> omega

theorem resetPcie_owners (ready : Bool) : (resetPcie ready s).owners = s.owners := foldl_owners s _ _ fun _ _ => rfl

@[simp] theorem resetHost_owners (ready stays : Bool) : (resetHost ready stays s).owners = s.owners := by
  unfold resetHost
  have hdrop : (dropRegs hostOff (resetPcie ready (dropReads forHost (clearRings s)))).owners = s.owners := by
    rw [dropRegs_owners _ (by decide), resetPcie_owners]; rfl
  dsimp only
  rw [newNonce_owners, endCustody_owners]
  split
  · rw [keepLink_owners, hdrop]
  · exact hdrop

/-! ### RD-CTRL and RD-CAP -/

/-- An LC2048-HA whose banks of absent masters belong to the host (R4). -/
def HostOwnsAbsent (s : State) : Prop := s.part = .ha ∧ ∀ k ∈ [5, 6, 9, 10], ownerOf s k = 0xB

theorem HostOwnsAbsent.of_owners {s t : State} (hs : HostOwnsAbsent s) (h : t.owners = s.owners) : HostOwnsAbsent t := by
  refine ⟨(part_of_owners h).trans hs.1, fun k hk => ?_⟩
  have hlt : k < 12 := by simp only [List.mem_cons, List.mem_nil_iff, or_false] at hk; omega
  rw [ownerOf_of_owners h hlt, hs.2 k hk]

/-- The step that sets BANKOWN for an LC2048-HA. -/
theorem hostOwnsAbsent_bankOwners (h : s.part = .ha) : HostOwnsAbsent (bankOwners s) := by
  have hfold : bankOwners s = [5, 6, 9, 10].foldl (fun z k => setReg (0x60000 + 4 * k) hostBank z) s := by rw [bankOwners, h]
  rw [hfold]
  refine ⟨h, fun k hk => ?_⟩
  have hreg : reg ([5, 6, 9, 10].foldl (fun z k => setReg (0x60000 + 4 * k) hostBank z) s) (ownOff k) = hostBank := by
    simp only [List.mem_cons, List.mem_nil_iff, or_false] at hk
    rcases hk with rfl | rfl | rfl | rfl <;> simp [ownOff, reg_setReg_ne]
  rw [ownerOf, rf, hreg]
  decide

theorem hostOwnsAbsent_resetCtrl (h : s.part = .ha) : HostOwnsAbsent (resetCtrl s) := by
  refine hostOwnsAbsent_bankOwners _ ?_
  exact h

@[simp] theorem resetCap_owners : (resetCap s).owners = s.owners := dropRegs_owners s (p := capOff) (by decide)

/-! ### WARM_RESET_N -/

@[simp] theorem writesNow_owners : (writesNow s).owners = s.owners := by
  unfold writesNow
  exact (foldl_owners _ _ _ fun t r => writeDram_owners t _ _)

@[simp] theorem warmDram_owners (training : Bool) : (warmDram training s).owners = s.owners := by
  unfold warmDram
  split
  · refine foldl_owners s _ _ fun t ch => ?_
    split
    · rfl
    · exact setRf_owners t _ _ _ (besideOwners_chBase _ _)
  · exact foldl_owners s _ _ fun t sc => sleepSub_owners t sc

/-- The part of a warm reset before RD-CTRL is reset (R26): host rings, the capture, commands and waiting writes. -/
def warmStop (s : State) : State :=
  writesNow (journalNow 4 (endCommands stAborted (endWaitingArm stAborted
    (trigLow (hardStop .reset 6 (resetHost false true (jcommit (.reset 4) (clearRings s))))))))

theorem warmStop_owners : (warmStop s).owners = s.owners := by
  unfold warmStop
  simp only [writesNow_owners, journalNow_owners, endCommands_owners, endWaitingArm_owners]
  have hstop := hardStop_owners (resetHost false true (jcommit (.reset 4) (clearRings s))) .reset 6
  rw [resetHost_owners, jcommit_owners] at hstop
  exact hstop

/-- A low time of 1 µs or more is a warm reset: BANKOWN is then as the reset of RD-CTRL leaves it (R27, R391). -/
theorem doWarmReset_owners {n : Nat} (hn : 1000 ≤ n) (hw : s.pwr.warm = false) : (doWarmReset n s).owners = (resetCtrl (warmStop s)).owners := by
  have hlow : (s.pwr.warm || !warmWidth n) = false := by
    rw [hw, warmWidth, if_neg (by omega), if_pos hn]; rfl
  unfold doWarmReset
  rw [if_neg (by simp [hlow])]
  dsimp only
  rw [setRf_owners _ _ _ _ (by omega)]
  exact (resetCap_owners _).trans (warmDram_owners _ _)

/-! ### SYS_RESET_N -/

@[simp] theorem stopFailed_owners : (stopFailed s).owners = s.owners := by
  unfold stopFailed
  dsimp only
  rw [foldl_owners]
  · split
    · rfl
    · exact setRf_owners s _ _ _ (by omega)
  · exact fun _ _ => rfl

@[simp] theorem bootLoad_owners : (bootLoad s).owners = s.owners := by
  unfold bootLoad
  exact (stopFailed_owners _).trans (owners_of_same rfl rfl)

@[simp] theorem tripAgain_owners : (tripAgain s).owners = s.owners := by
  unfold tripAgain
  split <;> simp

theorem hostOwnsAbsent_sysReset (r : BitVec 2) (b : Bool) (f : Flash) (m : BitVec 28) (h : s.part = .ha) :
    HostOwnsAbsent (sysReset r b f m s) := by
  have hboot : ∀ z : State, z.part = .ha → HostOwnsAbsent (bootLoad (newNonce (bankOwners z))) := fun z hz =>
    (hostOwnsAbsent_bankOwners z hz).of_owners (by rw [bootLoad_owners, newNonce_owners])
  unfold sysReset
  dsimp only
  split
  · refine hboot _ ?_
    exact h
  · refine HostOwnsAbsent.of_owners (hboot _ ?_) (raise_owners _ _ _)
    exact h

/-! ### The obligation -/

theorem keepOutside_owners {s t : State} (h : t.part = s.part) : (keepOutside s t).owners = t.owners := owners_of_regs h.symm fun _ _ => rfl

/-- Settles O60: both resets set BANKOWN of an LC2048-HA, and nothing that follows in them writes it. -/
theorem hostOwnsTheBanksOfAbsentMasters : Obligations.HostOwnsTheBanksOfAbsentMasters := by
  unfold Obligations.HostOwnsTheBanksOfAbsentMasters
  intro s hs
  constructor
  · intro r b f m
    have hreset := hostOwnsAbsent_sysReset s r b f m hs
    have htrip := tripAgain_owners (sysReset r b f m s)
    exact ⟨_, rfl, hreset.of_owners ((keepOutside_owners (part_of_owners htrip)).trans htrip)⟩
  · intro n ha hn hw
    have hstop : (warmStop s).part = .ha := (part_of_owners (warmStop_owners s)).trans hs
    have hwarm := (hostOwnsAbsent_resetCtrl _ hstop).of_owners (doWarmReset_owners s hn hw)
    exact ⟨_, engineStep_alive ha _, hwarm.of_owners (keepOutside_owners (hwarm.1.trans hs.symm))⟩

end Sys2Proof.Machine
end

section
/-! PROOFS. Commands and the capture (R246, R298): what the beginning and the end of a command leave of the automata and the capture, the state in
which an accepted short command has its effect, and that a completion once told stays told while others follow it. -/

namespace Sys2Proof.Machine

variable (s : State)

/-! ### The view -/

/-- The automata and the capture. -/
def State.capture (s : State) : Autos × Cap := (s.au, s.cap)

theorem au_of_capture {s t : State} (h : t.capture = s.capture) : t.au = s.au := congrArg Prod.fst h
theorem cap_of_capture {s t : State} (h : t.capture = s.capture) : t.cap = s.cap := congrArg Prod.snd h

theorem capture_of_quiet {s t : State} (h : t.quiet = s.quiet) : t.capture = s.capture := (congrArg State.capture h :)
theorem capture_of_logged {s t : State} (h : t.logged = s.logged) : t.capture = s.capture := (congrArg State.capture h :)

@[simp] theorem setSource_capture (n : Nat) : (setSource n s).capture = s.capture := capture_of_quiet (setSource_quiet s n)
@[simp] theorem signal_capture (v : Nat) : (signal v s).capture = s.capture := capture_of_quiet (signal_quiet s v)
@[simp] theorem count_capture (off : Nat) : (count off s).capture = s.capture := capture_of_logged (logged_of_quieter (count_quieter s off))
@[simp] theorem jcommit_capture (b : JBody) : (jcommit b s).capture = s.capture := capture_of_logged (jcommit_logged s b)
@[simp] theorem placeCmd_capture (q op : Nat) (e : Entry) (o : Nat) (k : QKind) : (placeCmd q op e o k s).capture = s.capture := rfl
@[simp] theorem passEntry_capture (r : Nat) : (passEntry r s).capture = s.capture := by simp [State.capture]
@[simp] theorem accept_capture (r op home idx : Nat) (e : Entry) : (accept r op home idx e s).capture = s.capture := jcommit_capture s _

@[simp] theorem writeEntry_capture (r : Nat) (x : Ring) (e : RingEntry) : (writeEntry r x e s).capture = s.capture := by
  unfold writeEntry
  dsimp only
  split
  · exact signal_capture _ _
  · rfl

@[simp] theorem postEntry_capture (r : Nat) (e : RingEntry) : (postEntry r e s).capture = s.capture := by
  unfold postEntry
  split
  · rfl
  · split
    · exact writeEntry_capture s _ _ _
    · dsimp only
      split
      · exact setSource_capture _ _
      · rfl

@[simp] theorem postCpl_capture (r : Nat) (tag : W32) (st : Nat) (final : Bool) (x0 x1 x2 : W64) :
    (postCpl r tag st final x0 x1 x2 s).capture = s.capture := by
  unfold postCpl
  split
  · rfl
  · dsimp only
    split
    · exact postEntry_capture s _ _
    · rfl

@[simp] theorem endEvents_capture (st : Nat) : (endEvents st s).capture = s.capture := by
  unfold endEvents
  dsimp only
  repeat' split
  all_goals simp only [setSource_capture]

@[simp] theorem releaseCtx_capture (o : Nat) : (releaseCtx o s).capture = s.capture := by unfold releaseCtx; split <;> rfl

/-- The end of a command (R246). -/
@[simp] theorem finishCmd_capture (o st : Nat) (x0 x1 x2 : W64) : (finishCmd o st x0 x1 x2 s).capture = s.capture := by
  unfold finishCmd
  split
  · rfl
  · rename_i c _
    dsimp only
    rw [endEvents_capture, releaseCtx_capture]
    have hcount : (if isLong c.opcode || engineEnds st then s else count (sqCtr c.home 5) s).capture = s.capture := by
      split
      · rfl
      · exact count_capture s _
    show (if c.lost then _ else _ : State).capture = _
    split
    · rw [jcommit_capture, hcount]
    · rw [postCpl_capture, jcommit_capture, hcount]

@[simp] theorem finishCmd_cap (o st : Nat) (x0 x1 x2 : W64) : (finishCmd o st x0 x1 x2 s).cap = s.cap := cap_of_capture (finishCmd_capture s o st x0 x1 x2)
@[simp] theorem finishCmd_au (o st : Nat) (x0 x1 x2 : W64) : (finishCmd o st x0 x1 x2 s).au = s.au := au_of_capture (finishCmd_capture s o st x0 x1 x2)

/-! ### Where an accepted short command has its effect -/

/-- The state on which a short command that R407 does not refuse has its effect: accepted, and placed at its home (R246, R298). -/
def begunState (r op : Nat) (e : Entry) (d : Nat) (s : State) : State :=
  placeCmd (homeIn s op e d) op e s.jr.next .native
    (count (sqCtr (homeIn s op e d) 7) (accept r op (homeIn s op e d) (engIdx s r) e (passEntry r s)))

@[simp] theorem begunState_capture (r op : Nat) (e : Entry) (d : Nat) : (begunState r op e d s).capture = s.capture := by simp [begunState]

/-- A short command that passes every check has its effect there. -/
theorem submit_eq_run {r op : Nat} {e : Entry} {k : CmdRow} (hg : Granted r op e k.homes s) (hb : k.bad (passEntry r s) = false)
    (hq : k.busy (passEntry r s) = none) (hz : k.zero = false) (hs : isLong op = false) (hl : opcodes.contains op = true) :
    submit r op e k s = k.run s.jr.next (begunState r op e (k.homes.headD 0) s) ∧
      Begun r op e (homeIn s op e (k.homes.headD 0)) s (begunState r op e (k.homes.headD 0) s) := by
  have hj := judge_none s hg hb hq
  obtain ⟨_, hx, _, _, _, _, hf, hp⟩ := granted_iff.1 hg
  have hbegun := begun_accept s (op := op) (e := e) (homeIn s op e (k.homes.headD 0)) (engIdx s r) hx hf
  have hseqs : (count (sqCtr (homeIn s op e (k.homes.headD 0)) 7)
      (accept r op (homeIn s op e (k.homes.headD 0)) (engIdx s r) e (passEntry r s))).seqs = s.seqs :=
    (((kept_passEntry s r).trans (kept_accept _ _ _ _ _ _)).trans (kept_count _ _)).2.2
  have hlong : runsLong (count (sqCtr (homeIn s op e (k.homes.headD 0)) 7)
      (accept r op (homeIn s op e (k.homes.headD 0)) (engIdx s r) e (passEntry r s))) (homeIn s op e (k.homes.headD 0)) =
        runsLong s (homeIn s op e (k.homes.headD 0)) := by
    simp only [runsLong, hbegun.cmds, List.any_append, sq, hseqs]
    simp [newCmd, hs]
  simp only [preempts, hs, Bool.not_false, Bool.true_and] at hp
  refine ⟨?_, begun_place s hbegun .native⟩
  simp only [submit, hx, submitNow, hj, carryOut, hz, hs, hl, listed_not_open hl, passEntry_jr, passEntry_homeIn, accept_homeIn, Bool.not_true,
    Bool.false_eq_true, if_false, if_true, hlong, hp, begunState]

/-- A short command that passes every check completes; its effect sees the automata and the capture as they were. -/
theorem answers_begun {s : State} {c : Instr} {p : State → Prop} {r op : Nat} {e : Entry} {k : CmdRow}
    (he : exec c s = engineStep s (submit r op e k s)) (hg : Granted r op e k.homes s) (hb : k.bad (passEntry r s) = false)
    (hq : k.busy (passEntry r s) = none) (hz : k.zero = false) (hs : isLong op = false) (hl : opcodes.contains op = true)
    (hrun : ∀ u, Begun r op e (homeIn s op e (k.homes.headD 0)) s u → u.capture = s.capture →
      sameOutside s (k.run s.jr.next u) ∧ p (k.run s.jr.next u)) : Answers c s p := by
  obtain ⟨heq, hbegun⟩ := submit_eq_run s hg hb hq hz hs hl
  obtain ⟨hout, hp⟩ := hrun _ hbegun (begunState_capture s r op e _)
  exact answers_intro hg.1 (heq ▸ he) hout hp

/-- A command of another JSEQ than the new one is open still. -/
theorem Begun.finds {s : State} {r op home o : Nat} {e : Entry} {u : State} {k : Cmd} (h : Begun r op e home s u) (hk : cmd? s o = some k) : cmd? u o = some k := by
  rw [cmd?, h.cmds, List.find?_append, show s.cmds.find? _ = _ from hk]; rfl

/-! ### Completions stay told -/

/-- From `s` to `t` rings keep their pairs and what they hold back, and no completion that waits for the journal is lost (R155, R243). -/
structure Holds (s t : State) : Prop where
  pair : ∀ r, pairOf t r = pairOf s r
  held : ∀ r c, ring? s r = some c → ∃ d, ring? t r = some d ∧ c.held ⊆ d.held
  out : s.jr.out ⊆ t.jr.out

namespace Holds
variable {s t u : State}

theorem of_eq (hr : t.rings = s.rings) (hj : t.jr.out = s.jr.out) : Holds s t where
  pair r := by simp only [pairOf, ring_eq hr]
  held r c hc := ⟨c, by rw [ring_eq hr, hc], List.Subset.refl _⟩
  out := hj ▸ List.Subset.refl _

theorem trans (h : Holds s t) (k : Holds t u) : Holds s u where
  pair r := (k.pair r).trans (h.pair r)
  held r c hc := by
    obtain ⟨d, hd, hcd⟩ := h.held r c hc
    obtain ⟨f, hf, hdf⟩ := k.held r d hd
    exact ⟨f, hf, List.Subset.trans hcd hdf⟩
  out := List.Subset.trans h.out k.out

/-- A ring that is set to one of the same pair, with nothing let go. -/
theorem of_setRing {q : Nat} {x y : Ring} (hx : ring? s q = some x) (hp : y.pair = x.pair) (hh : x.held ⊆ y.held) : Holds s (setRing q y s) where
  pair r := by
    by_cases hq : r = q
    · subst hq; simp only [pairOf, ring_setRing_same, hx, hp]
    · simp only [pairOf, ring_setRing_ne _ _ hq]
  held r c hc := by
    by_cases hq : r = q
    · subst hq
      rw [hx] at hc
      cases hc
      exact ⟨y, ring_setRing_same _ _ _, hh⟩
    · exact ⟨c, by rw [ring_setRing_ne _ _ hq, hc], List.Subset.refl _⟩
  out := List.Subset.refl _
end Holds

/-- What is told stays told. -/
theorem Told.grow {r st : Nat} {tag : W32} {final : Bool} {x0 x1 x2 : W64} {s t u : State} (h : Told r tag st final x0 x1 x2 s t)
    (hs : Sends t u) (hh : Holds t u) : Told r tag st final x0 x1 x2 s u := by
  rcases h with ⟨l, hl, a, ph, hmem⟩ | ⟨c, hc, hmem⟩ | ⟨o, ho, hring, hentry⟩
  · obtain ⟨m, hm⟩ := hs
    exact .inl ⟨m ++ l, by rw [hm, hl, List.append_assoc], a, ph, List.mem_append_right _ hmem⟩
  · obtain ⟨d, hd, hsub⟩ := hh.held _ c hc
    exact .inr (.inl ⟨d, by rw [hh.pair, hd], hsub hmem⟩)
  · exact .inr (.inr ⟨o, hh.out ho, by rw [hh.pair, hring], hentry⟩)

/-- A ring exists, and so does the ring of its completions. -/
def Ringed (s : State) (r : Nat) : Prop := ∃ x c, ring? s r = some x ∧ ring? s x.pair = some c

theorem Holds.ringed {s t : State} {r : Nat} (h : Holds s t) (hr : Ringed s r) : Ringed t r := by
  obtain ⟨x, c, hx, hc⟩ := hr
  obtain ⟨y, hy, _⟩ := h.held r x hx
  obtain ⟨d, hd, _⟩ := h.held x.pair c hc
  have hp : y.pair = x.pair := by simpa [pairOf, hx, hy] using h.pair r
  exact ⟨y, d, hy, hp ▸ hd⟩

theorem holds_passEntry (r : Nat) : Holds s (passEntry r s) := by
  unfold passEntry
  split
  · exact .of_eq rfl rfl
  · rename_i x hx
    exact .of_setRing hx rfl (List.Subset.refl _)

theorem holds_writeEntry {q : Nat} {x : Ring} (e : RingEntry) (hx : ring? s q = some x) : Holds s (writeEntry q x e s) := by
  unfold writeEntry
  dsimp only
  generalize hp : post (.write (x.base + 32 * x.eng) (entryBytes x.phase e) false) s = u
  have hu : Holds s u := .of_eq (by rw [← hp, post_rings]) (by rw [← hp, post_jr])
  have hxu : ring? u q = some x := by rw [← hp]; exact hx
  have hset := hu.trans (.of_setRing (y := { x with eng := (x.eng + 1) % x.z, phase := if (x.eng + 1) % x.z = 0 then !x.phase else x.phase }) hxu rfl
    (List.Subset.refl _))
  split
  · exact hset.trans (.of_eq (signal_rings _ _) (by rw [signal_jr]))
  · exact hset

theorem holds_postEntry (q : Nat) (e : RingEntry) : Holds s (postEntry q e s) := by
  unfold postEntry
  split
  · exact .of_eq rfl rfl
  · rename_i x hx
    split
    · exact holds_writeEntry s e hx
    · have hset : Holds s (setRing q { x with held := x.held ++ [e] } s) := .of_setRing hx rfl (List.subset_append_left _ _)
      dsimp only
      split
      · exact hset.trans (.of_eq (setSource_rings _ _) (by rw [setSource_jr]))
      · exact hset

theorem holds_postCpl (r : Nat) (tag : W32) (st : Nat) (final : Bool) (x0 x1 x2 : W64) : Holds s (postCpl r tag st final x0 x1 x2 s) := by
  unfold postCpl
  split
  · exact .of_eq rfl rfl
  · dsimp only
    split
    · exact holds_postEntry s _ _
    · exact { pair := fun _ => rfl, held := fun _ c hc => ⟨c, hc, List.Subset.refl _⟩, out := List.subset_append_left _ _ }

@[simp] theorem addReq_jr (a cls : Nat) (d : Option (List Byte)) (b : ReqBy) : (addReq a cls d b s).jr = s.jr := by
  unfold addReq
  dsimp only
  repeat' split
  all_goals simp

@[simp] theorem jwrite_out (carry : Bool) (b : JBody) : (jwrite carry b s).jr.out = s.jr.out := by
  unfold jwrite
  dsimp only
  split
  · simp [logEntry]
  · unfold entryDone
    split <;> simp [logEntry]

@[simp] theorem jcarry_out (f : Nat) (carry : Bool) (b : JBody) : (jcarry f carry b s).jr.out = s.jr.out := by
  induction f generalizing carry b s with
  | zero => exact jwrite_out s carry b
  | succ f ih =>
    unfold jcarry
    dsimp only
    split
    · simp
    · rw [ih]; simp

@[simp] theorem jcommit_out (b : JBody) : (jcommit b s).jr.out = s.jr.out := jcarry_out s _ _ _

theorem holds_jcommit (b : JBody) : Holds s (jcommit b s) := .of_eq (jcommit_rings s b) (jcommit_out s b)

/-- The end of one command unsays no completion of another. -/
theorem finishCmd_tells (o st : Nat) (x0 x1 x2 : W64) : Sends s (finishCmd o st x0 x1 x2 s) ∧ Holds s (finishCmd o st x0 x1 x2 s) := by
  unfold finishCmd
  split
  · exact ⟨.refl s, .of_eq rfl rfl⟩
  · rename_i c _
    dsimp only
    have hcount : Sends s (if isLong c.opcode || engineEnds st then s else count (sqCtr c.home 5) s) ∧
        Holds s (if isLong c.opcode || engineEnds st then s else count (sqCtr c.home 5) s) := by
      split
      · exact ⟨.refl s, .of_eq rfl rfl⟩
      · exact ⟨sends_count s _, .of_eq (by simp) (by simp)⟩
    generalize (if isLong c.opcode || engineEnds st then s else count (sqCtr c.home 5) s) = t at hcount
    have hentry := sends_jcommit t (.complete c.ring st c.tag x0 x1 x2 (some o) c.opcode)
    have hpost : Sends s (if c.lost then jcommit (.complete c.ring st c.tag x0 x1 x2 (some o) c.opcode) t
          else postCpl c.ring c.tag st true x0 x1 x2 (jcommit (.complete c.ring st c.tag x0 x1 x2 (some o) c.opcode) t)) ∧
        Holds s (if c.lost then jcommit (.complete c.ring st c.tag x0 x1 x2 (some o) c.opcode) t
          else postCpl c.ring c.tag st true x0 x1 x2 (jcommit (.complete c.ring st c.tag x0 x1 x2 (some o) c.opcode) t)) := by
      have hheld := hcount.2.trans (holds_jcommit t (.complete c.ring st c.tag x0 x1 x2 (some o) c.opcode))
      split
      · exact ⟨hcount.1.trans hentry, hheld⟩
      · exact ⟨(hcount.1.trans hentry).trans (sends_postCpl _ _ _ _ _ _ _ _), hheld.trans (holds_postCpl _ _ _ _ _ _ _ _)⟩
    refine ⟨hpost.1.trans (.trans ?_ (sends_endEvents _ _)), hpost.2.trans (.of_eq ?_ ?_)⟩
    · exact .of_eq (releaseCtx_posted _ _)
    · rw [endEvents_rings, releaseCtx_rings]
    · rw [endEvents_jr, releaseCtx_jr]

end Sys2Proof.Machine
end

section
/-! PROOFS. FORCE_TRIGGER, STOP, ABORT_COMMAND and DISARM (R106, R120, R135, R167, R252, R304). -/

namespace Sys2Proof.Machine

variable (s : State)

/-! ### FORCE_TRIGGER (R106, R120) -/

/-- States that agree beside commands agree so with the same automata put into both. -/
theorem beside_withAu {s t : State} (h : t.beside = s.beside) (a : Autos) : ({ t with au := a } : State).beside = ({ s with au := a } : State).beside := by
  have hover : ∀ x : State, ({ x with au := a } : State).beside =
      { x.beside with au := { a with edges := [], hevs := [], casDue := [], inbound := [], shown := [], lastSlice := none } } := fun _ => rfl
  rw [hover, hover, h]

/-- The end of a short command whose effect lies in the automata alone. -/
theorem beside_finish_au {s u : State} {home : Nat} (st : Nat) (x0 x1 x2 : W64) (a : Autos) (hf : freshSeq s = true) (h : Beside home s u) :
    Beside home s { finishCmd s.jr.next st x0 x1 x2 { u with au := a } with au := u.au } := by
  obtain ⟨hb, hsub, hsq⟩ := finishCmd_keeps { u with au := a } s.jr.next st x0 x1 x2
  obtain ⟨ub, usub, urest, usq⟩ := h
  refine ⟨(beside_withAu hb u.au).trans ub, fun sc => (hsub sc).trans (usub sc), (hsq home).1.trans urest, fun q hq => ?_⟩
  have hheld : heldBy s.jr.next (sq { u with au := a } q) = false := by
    rw [show sq { u with au := a } q = sq s q from usq q hq]; exact freshSeq_held hf q
  exact ((hsq q).2 hheld).trans (usq q hq)

theorem fresh_of_granted {r op : Nat} {e : Entry} {hs : List Nat} {s : State} (h : Granted r op e hs s) : freshSeq s = true := by
  obtain ⟨_, _, _, _, _, _, hf, _⟩ := h
  exact hf

theorem nextSlice_of_capture {s u : State} (h : u.capture = s.capture) : nextSlice u = nextSlice s := by
  unfold nextSlice; rw [au_of_capture h, cap_of_capture h]

theorem evaluating_of_capture {s u : State} (h : u.capture = s.capture) : evaluating u = evaluating s := by
  unfold evaluating capRunning; rw [nextSlice_of_capture h, cap_of_capture h]

theorem forceTrigger_orders {r : Nat} {e : Entry} {s : State} (hg : Granted r opForceTrigger e [homeOf opForceTrigger] s) (h0 : pn e.p0 ≠ 0)
    (h1 : pn e.p1 ≠ 0) (hen : ∀ a, a < 8 → bit (pn e.p0) a = true → pAutoEn (plan s) a = true) (hev : evaluating s = true) :
    Answers (.forceTrigger r e) s fun t => Done r e.tag stDone (BitVec.ofNat 64 (nextSlice s)) 0 0 s t ∧
      t.au.forced = s.au.forced ++ [{ mask := pn e.p0, index := pn e.p1, tick := nextSlice s }] ∧
      Beside (homeNow s opForceTrigger e) s { t with au := { t.au with forced := s.au.forced } } := by
  have hplan : plan (passEntry r s) = plan s := by simp [plan]
  have hnow : evaluating (passEntry r s) = true := (evaluating_of_capture (passEntry_capture s r)).trans hev
  have hf : freshSeq s = true := fresh_of_granted hg
  refine answers_begun rfl hg ?_ ?_ rfl rfl rfl fun u hu hc => ?_
  · simpa [h0, h1, hplan] using hen
  · simp [busyIf, hnow]
  · have hout : sameOutside s u := sameOutside_of_within hu.beside
    have hau := au_of_capture hc
    have hbeside := beside_finish_au stDone (BitVec.ofNat 64 (nextSlice s)) 0 0
      { u.au with forced := u.au.forced ++ [{ mask := pn e.p0, index := pn e.p1, tick := nextSlice s }] } hf hu.beside
    dsimp only
    rw [nextSlice_of_capture hc]
    refine ⟨sameOutside_of_beside (finishCmd_beside _ _ _ _ _ _) hout, done_finish s _ _ _ _ hu hf rfl rfl (.of_eq rfl), ?_, ?_⟩
    · rw [finishCmd_au, hau]
    · rw [finishCmd_au, ← hau]
      exact hbeside

/-! ### STOP (R135) -/

/-- A capture that ends sooner keeps its end. -/
theorem orderEnd_sooner {s : State} {last l : Nat} {w r : EndReason} (h : s.cap.endAt = some (l, w)) (hl : l ≤ last) : orderEnd last r s = s := by
  simp [orderEnd, h, hl]

/-- One that would end later, or has no end, gets the end that is ordered. -/
theorem orderEnd_orders {s : State} {last : Nat} (r : EndReason) (h : ∀ l w, s.cap.endAt = some (l, w) → last < l) :
    (orderEnd last r s).cap.endAt = some (last, r) := by
  cases hend : s.cap.endAt with
  | none =>
    simp only [orderEnd, hend, Bool.false_eq_true, if_false]
    split
    · split <;> rfl
    · rfl
  | some p =>
    simp only [orderEnd, hend, Nat.not_le.2 (h p.1 p.2 hend), decide_false, Bool.false_eq_true, if_false]
    split
    · split <;> rfl
    · rfl

theorem orderEnd_posted (last : Nat) (r : EndReason) : (orderEnd last r s).posted = s.posted := by
  unfold orderEnd
  dsimp only
  repeat' split
  all_goals rfl

theorem nextBoundary_of_beside {s u : State} (h : u.beside = s.beside) : nextBoundary u = nextBoundary s := by
  have htick : u.tb.tick = s.tb.tick := (congrArg (fun x => x.tb.tick) h :)
  unfold nextBoundary; rw [htick]

theorem captureOn_of_capture {s u : State} (h : u.capture = s.capture) (ht : u.tb = s.tb) : captureOn u = captureOn s := by
  unfold captureOn capRunning; rw [cap_of_capture h, ht]

theorem stop_orders {r : Nat} {e : Entry} {s : State} (hg : Granted r opStop e [homeOf opStop] s) (hopt : eOpt e = false) (hon : captureOn s = true) :
    Answers (.stop r e) s fun t => Done r e.tag stDone (BitVec.ofNat 64 (nextBoundary s)) 0 0 s t ∧
      (∀ l w, s.cap.endAt = some (l, w) → l ≤ nextBoundary s - 1 → t.cap.endAt = some (l, w)) ∧
      ((∀ l w, s.cap.endAt = some (l, w) → nextBoundary s - 1 < l) → t.cap.endAt = some (nextBoundary s - 1, .stop)) ∧
      Beside (homeNow s opStop e) s t := by
  have hnow : captureOn (passEntry r s) = true := (captureOn_of_capture (passEntry_capture s r) (passEntry_tb s r)).trans hon
  have hf : freshSeq s = true := fresh_of_granted hg
  refine answers_begun (k := stopRow e) rfl hg ?_ ?_ rfl rfl rfl fun u hu hc => ?_
  · simp [stopRow, hopt]
  · simp [stopRow, busyIf, hopt, hnow]
  · have hboundary := nextBoundary_of_beside hu.beside.1
    have hkept : Kept u (orderEnd (nextBoundary s - 1) .stop u) := .of_calm (orderEnd_calm u _ _)
    have hbeside := beside_finish s stDone (BitVec.ofNat 64 (nextBoundary s)) 0 0 hf (hu.beside.trans (hkept.within _))
    have hrun : (stopRow e).run s.jr.next u =
        finishCmd s.jr.next stDone (BitVec.ofNat 64 (nextBoundary s)) 0 0 (orderEnd (nextBoundary s - 1) .stop u) := by
      simp [stopRow, hopt, hboundary]
    rw [hrun]
    refine ⟨sameOutside_of_within hbeside, done_finish s _ _ _ _ hu hf ?_ ?_ (.of_eq (orderEnd_posted _ _ _)), fun l w hend hl => ?_, fun hlater => ?_, hbeside⟩
    · exact (congrArg State.cmds (orderEnd_calm u _ _) :)
    · exact (congrArg State.rings (orderEnd_calm u _ _) :)
    · rw [← cap_of_capture hc] at hend
      rw [finishCmd_cap, orderEnd_sooner hend hl, hend]
    · rw [← cap_of_capture hc] at hlater
      rw [finishCmd_cap, orderEnd_orders _ hlater]

/-! ### ABORT_COMMAND (R252, R304) -/

/-- An ABORT trap stops nothing: the sequencer stays as it is, or has the trap besides. -/
theorem raiseTrap_abort (q d : Nat) : raiseTrap q .abort d s = s ∨ ∃ x, raiseTrap q .abort d s = setSq q x s := by
  unfold raiseTrap
  dsimp only
  split
  · exact .inl rfl
  · split
    · rename_i h; cases h.1
    · split
      · exact .inl rfl
      · exact .inr ⟨_, rfl⟩

/-- It leaves everything but that sequencer. -/
theorem raiseTrap_abort_keeps (q d : Nat) : (raiseTrap q .abort d s).beside = s.beside ∧ (∀ sc, sub (raiseTrap q .abort d s) sc = sub s sc) ∧
    (∀ j, j ≠ q → sq (raiseTrap q .abort d s) j = sq s j) ∧ (raiseTrap q .abort d s).cmds = s.cmds ∧ (raiseTrap q .abort d s).rings = s.rings ∧
    (raiseTrap q .abort d s).posted = s.posted := by
  rcases raiseTrap_abort s q d with h | ⟨x, h⟩ <;> rw [h]
  · exact ⟨rfl, fun _ => rfl, fun _ _ => rfl, rfl, rfl, rfl⟩
  · exact ⟨rfl, fun _ => rfl, fun _ hj => sq_setSq_ne s x hj, rfl, rfl, rfl⟩

/-- A sequencer that takes traps and is not stopped has the trap pending (R304). -/
theorem raiseTrap_abort_pends {s : State} {q : Nat} (d : Nat) (h2 : 2 ≤ q) (hp : seqPresent s q = true) (hs : sqStopped s q = false) :
    (.abort, d) ∈ (sq (raiseTrap q .abort d s) q).pendTrap := by
  unfold sqStopped at hs
  have htakes : (!seqPresent s q || (sq s q).state == .stopped || (decide (q < 2) && TrapCause.abort != .unit && TrapCause.abort != .wdog)) = false := by
    simp [hp, hs, Nat.not_lt.2 h2]
  unfold raiseTrap
  dsimp only
  rw [if_neg (by rw [htakes]; simp), if_neg (by simp)]
  split
  · rename_i hany
    obtain ⟨⟨c, n⟩, hmem, heq⟩ := List.any_eq_true.1 hany
    obtain ⟨rfl, rfl⟩ : c = .abort ∧ n = d := by simpa using heq
    exact hmem
  · simp

theorem quads_of_beside {s t : State} (h : t.beside = s.beside) : quads t = quads s := by
  have hpart : t.part = s.part := (congrArg State.part h :)
  unfold quads; rw [hpart]

theorem state_of_rest {x y : Seqr} (h : x.rest = y.rest) : x.state = y.state := (congrArg Seqr.state h :)
theorem pendTrap_of_rest {x y : Seqr} (h : x.rest = y.rest) : x.pendTrap = y.pendTrap := (congrArg Seqr.pendTrap h :)

/-- What a command writes at its home as it begins leaves every sequencer but for what it holds for commands. -/
theorem rest_of_beside {home : Nat} {s t : State} (h : Beside home s t) (q : Nat) : (sq t q).rest = (sq s q).rest := by
  by_cases hq : q = home
  · subst hq; exact h.2.2.1
  · rw [h.2.2.2 q hq]

theorem abortTarget_of_begun {r op home : Nat} {e d : Entry} {s u : State} {k : Cmd} (hu : Begun r op e home s u) (hk : abortTarget d s = some k) :
    abortTarget d u = some k := by
  unfold abortTarget at hk ⊢
  rw [hu.cmds, List.find?_append, hk]; rfl

/-- What STOP with OPT = 1 does. -/
def AbortOrdered (r : Nat) (e : Entry) (k : Cmd) (s t : State) : Prop :=
  Done r e.tag stDone 0 0 0 s t ∧ t.beside = s.beside ∧ (∀ sc, (sub t sc).still = (sub s sc).still) ∧
    (∀ q, q ≠ k.home → (sq t q).rest = (sq s q).rest ∧ (q ≠ homeNow s opStop e → sq t q = sq s q)) ∧
    (2 ≤ k.home → seqPresent s k.home = true → sqStopped s k.home = false → (.abort, k.origin) ∈ (sq t k.home).pendTrap)

theorem stop_aborts {c : Instr} {r : Nat} {e : Entry} {s : State} {k : Cmd} (he : exec c s = engineStep s (submit r opStop e (stopRow e) s))
    (hg : Granted r opStop e [homeOf opStop] s) (hopt : eOpt e = true) (hk : abortTarget e s = some k) : Answers c s (AbortOrdered r e k s) := by
  have hf : freshSeq s = true := fresh_of_granted hg
  have hnamed : abortTarget e (passEntry r s) = some k := by simpa [abortTarget] using hk
  refine answers_begun (k := stopRow e) he hg ?_ ?_ rfl rfl rfl fun u hu _ => ?_
  · simp [stopRow, hnamed]
  · simp [stopRow, busyIf, hopt]
  · have hrun : (stopRow e).run s.jr.next u = finishCmd s.jr.next stDone 0 0 0 (raiseTrap k.home .abort k.origin u) := by
      simp [stopRow, hopt, abortTarget_of_begun hu hk]
    rw [hrun]
    obtain ⟨hb, hsub, hsq, hcmds, hrings, hposted⟩ := raiseTrap_abort_keeps u k.home k.origin
    obtain ⟨fb, fsub, fsq⟩ := finishCmd_keeps (raiseTrap k.home .abort k.origin u) s.jr.next stDone 0 0 0
    obtain ⟨ub, usub, _, usq⟩ := hu.beside
    have hbeside := fb.trans (hb.trans ub)
    have hrest := rest_of_beside hu.beside
    refine ⟨sameOutside_of_beside hbeside (sameOutside_refl s), done_finish s _ _ _ _ hu hf hcmds hrings (.of_eq hposted), hbeside,
      fun sc => ?_, fun q hq => ⟨?_, fun hne => ?_⟩, fun h2 hp hs => ?_⟩
    · rw [fsub, hsub, usub]
    · rw [(fsq q).1, hsq q hq, hrest]
    · have hsame := (hsq q hq).trans (usq q hne)
      rw [(fsq q).2 (by rw [hsame]; exact freshSeq_held hf q), hsame]
    · have hpu : seqPresent u k.home = true := by unfold seqPresent seqCount at hp ⊢; rwa [quads_of_beside ub]
      have hsu : sqStopped u k.home = false := by rw [← hs]; simp only [sqStopped, state_of_rest (hrest k.home)]
      rw [pendTrap_of_rest (fsq k.home).1]
      exact raiseTrap_abort_pends k.origin h2 hpu hsu

/-! ### Orbits end (R167) -/

/-- The end of orbits writes the registers of the channels and the subchannels. -/
theorem foldl_endOrbit (l : List Nat) : ∃ rs ds, l.foldl endOrbit s = { s with regs := rs, dram := { s.dram with subs := ds } } := by
  induction l generalizing s with
  | nil => exact ⟨s.regs, s.dram.subs, rfl⟩
  | cons sc l ih =>
    obtain ⟨rs, ds, h⟩ := ih (endOrbit s sc)
    exact ⟨rs, ds, h.trans rfl⟩

theorem endOrbits_eq : ∃ rs ds, endOrbits s = { s with regs := rs, dram := { s.dram with subs := ds } } := foldl_endOrbit s _

/-- Clearing the field of the even subchannel leaves that of the odd one. -/
theorem fld_clear_even (v : W32) : fld (putFld v 25 24 0) 25 24 = 0 ∧ fld (putFld v 25 24 0) 27 26 = fld v 27 26 := by
  have hv := v.isLt
  simp only [fld, bits, putFld, BitVec.toNat_ofNat]
  omega

/-- Clearing the field of the odd subchannel leaves that of the even one. -/
theorem fld_clear_odd (v : W32) : fld (putFld v 27 26 0) 27 26 = 0 ∧ fld (putFld v 27 26 0) 25 24 = fld v 25 24 := by
  have hv := v.isLt
  simp only [fld, bits, putFld, BitVec.toNat_ofNat]
  omega

/-- The orbit of one subchannel ends, and no other's. -/
theorem orbOf_endOrbit (sc k : Nat) : orbOf (endOrbit s sc) k = if k = sc then 0 else orbOf s k := by
  have hreg : ∀ off, reg (endOrbit s sc) off = reg (setOrb sc 0 s) off := fun _ => rfl
  simp only [orbOf, rf, hreg, setOrb]
  by_cases hch : k / 2 = sc / 2
  · rw [hch, setRf, reg_setReg_same]
    rcases Nat.mod_two_eq_zero_or_one sc with hs | hs <;> rcases Nat.mod_two_eq_zero_or_one k with hk | hk <;> rw [hs, hk]
    · rw [if_pos (by omega)]; exact (fld_clear_even _).1
    · rw [if_neg (by omega)]; exact (fld_clear_even _).2
    · rw [if_neg (by omega)]; exact (fld_clear_odd _).2
    · rw [if_pos (by omega)]; exact (fld_clear_odd _).1
  · rw [if_neg (by omega), reg_setRf_ne _ _ _ _ (by unfold chBase; omega)]

theorem foldl_endOrbit_orb (l : List Nat) (k : Nat) : orbOf (l.foldl endOrbit s) k = if k ∈ l then 0 else orbOf s k := by
  induction l generalizing s with
  | nil => simp
  | cons sc l ih =>
    rw [List.foldl_cons, ih, orbOf_endOrbit]
    by_cases hl : k ∈ l
    · simp [hl]
    · simp [hl]

/-- Afterwards every subchannel is on the idle schedule. -/
theorem orbOf_endOrbits {k : Nat} (h : k < subCount s) : orbOf (endOrbits s) k = 0 := by
  rw [endOrbits, foldl_endOrbit_orb, if_pos (List.mem_range.2 h)]

theorem foldl_endOrbit_reg {l : List Nat} {off : Nat} (h : ∀ sc ∈ l, off ≠ chBase (sc / 2) + 4) : reg (l.foldl endOrbit s) off = reg s off := by
  induction l generalizing s with
  | nil => rfl
  | cons sc l ih =>
    rw [List.foldl_cons, ih _ fun k hk => h k (List.mem_cons_of_mem _ hk)]
    exact reg_setRf_ne s _ _ _ (h sc List.mem_cons_self)

theorem reg_endOrbits {off : Nat} (h : ((List.range (chCount s)).map fun ch => chBase ch + 4).contains off = false) :
    reg (endOrbits s) off = reg s off := by
  refine foldl_endOrbit_reg s fun sc hsc hoff => ?_
  have hch : sc / 2 < chCount s := by
    have := List.mem_range.1 hsc
    unfold subCount at this; unfold chCount; omega
  have hmem : off ∈ (List.range (chCount s)).map fun ch => chBase ch + 4 := List.mem_map.2 ⟨sc / 2, List.mem_range.2 hch, hoff.symm⟩
  rw [List.contains_iff_mem.2 hmem] at h
  cases h

theorem isLogReg_chCtl : ∀ ch < 8, isLogReg (chBase ch + 4) = false := by decide +kernel

theorem chCount_le : chCount s ≤ 8 := by unfold chCount quads; split <;> omega

/-! ### DISARM (R252) -/

/-- The state with no ARM waiting and every subchannel on the idle schedule. -/
def disarmed (s : State) : State := { endOrbits s with cap := unarm (endOrbits s).cap }

theorem disarmed_eq : ∃ rs ds, disarmed s = { s with cap := unarm s.cap, regs := rs, dram := { s.dram with subs := ds } } := by
  obtain ⟨rs, ds, h⟩ := endOrbits_eq s
  exact ⟨rs, ds, by simp only [disarmed, h]⟩

theorem disarmed_keeps : (disarmed s).cmds = s.cmds ∧ (disarmed s).rings = s.rings ∧ (disarmed s).jr = s.jr ∧ (disarmed s).posted = s.posted ∧
    (disarmed s).seqs = s.seqs ∧ (disarmed s).cap = unarm s.cap := by
  obtain ⟨rs, ds, h⟩ := disarmed_eq s
  rw [h]
  exact ⟨rfl, rfl, rfl, rfl, rfl, rfl⟩

/-- States that agree beside commands agree so with the same capture, registers and subchannels put into both. -/
theorem beside_withIdle {s t : State} (h : t.beside = s.beside) (c : Cap) (rs : Tbl W32) (ds : Tbl SubCh) :
    ({ t with cap := c, regs := rs, dram := { t.dram with subs := ds } } : State).beside =
      ({ s with cap := c, regs := rs, dram := { s.dram with subs := ds } } : State).beside := by
  have hover : ∀ x : State, ({ x with cap := c, regs := rs, dram := { x.dram with subs := ds } } : State).beside =
      { x.beside with cap := { c with endAt := none, segs := [], begun := 0 }, regs := rs.filter fun p => !isLogReg p.1 } := fun _ => rfl
  rw [hover, hover, h]

/-- The end of a command is told, also of one that is not the youngest, and then it is open no longer (R246). -/
theorem ended_finishCmd {s : State} {o : Nat} {k : Cmd} (st : Nat) (x0 x1 x2 : W64) (hk : cmd? s o = some k) (hl : k.lost = false)
    (hr : Ringed s k.ring) : Told k.ring k.tag st true x0 x1 x2 s (finishCmd o st x0 x1 x2 s) ∧
      ∀ p, cmd? (finishCmd o st x0 x1 x2 s) p = if p = o then none else cmd? s p := by
  obtain ⟨x, c, hx, hc⟩ := hr
  obtain ⟨htold, hcmds⟩ := told_finishCmd s st x0 x1 x2 hk hl hx hc
  refine ⟨htold, fun p => ?_⟩
  rw [cmd?, hcmds, List.find?_filter]
  split
  · rename_i hp
    exact List.find?_eq_none.2 fun y _ => by simp [hp]
  · rename_i hp
    rw [cmd?]
    congr 1
    funext y
    by_cases hy : y.origin = p <;> simp [hy, hp]

theorem Ringed.of_eq {s t : State} {r : Nat} (h : Ringed s r) (hr : t.rings = s.rings) : Ringed t r := by
  simpa only [Ringed, ring_eq hr] using h

/-- What DISARM does. -/
def DisarmDone (r : Nat) (e : Entry) (k : Cmd) (s t : State) : Prop :=
  Told r e.tag stDone true 0 0 0 s t ∧ Ended s.cap.origin k stAborted 0 0 0 s t ∧ t.cap = unarm s.cap ∧ (∀ sc, sc < subCount s → orbOf t sc = 0) ∧
    keepsRegs ((List.range (chCount s)).map fun ch => chBase ch + 4) s t ∧ (∀ q, (sq t q).rest = (sq s q).rest) ∧
    ({ t with cap := s.cap, regs := s.regs, dram := { t.dram with subs := s.dram.subs } } : State).beside = s.beside

/-- The two completions of DISARM: the waiting ARM's, and its own. -/
theorem disarm_tells {r op home : Nat} {e : Entry} {k : Cmd} {s u : State} (hu : Begun r op e home s u) (hf : freshSeq s = true)
    (hk : Tellable s s.cap.origin k) :
    Told r e.tag stDone true 0 0 0 s (finishCmd s.jr.next stDone 0 0 0 (finishCmd s.cap.origin stAborted 0 0 0 (disarmed u))) ∧
      Ended s.cap.origin k stAborted 0 0 0 s (finishCmd s.jr.next stDone 0 0 0 (finishCmd s.cap.origin stAborted 0 0 0 (disarmed u))) := by
  obtain ⟨hopen, hlost, hring⟩ := hk
  obtain ⟨dcmds, drings, djr, dposted, _⟩ := disarmed_keeps u
  have hnew : s.cap.origin ≠ s.jr.next := by
    have hmem := List.mem_of_find?_eq_some hopen
    have horigin : k.origin = s.cap.origin := by simpa using List.find?_some hopen
    rw [← horigin]
    simpa using List.all_eq_true.1 (freshSeq_cmds hf) k hmem
  have hheld : Holds u (disarmed u) := .of_eq drings (by rw [djr])
  have harm : cmd? (disarmed u) s.cap.origin = some k := by rw [cmd?, dcmds]; exact hu.finds hopen
  have hown : cmd? (disarmed u) s.jr.next = some (newCmd r op home e s) := by rw [cmd?, dcmds]; exact hu.found
  have harmRing : Ringed (disarmed u) k.ring :=
    hheld.ringed (((holds_passEntry s r).ringed hring).of_eq hu.rings)
  obtain ⟨tarm, carm⟩ := ended_finishCmd stAborted 0 0 0 harm hlost harmRing
  obtain ⟨sarm, harmed⟩ := finishCmd_tells (disarmed u) s.cap.origin stAborted 0 0 0
  generalize finishCmd s.cap.origin stAborted 0 0 0 (disarmed u) = v at *
  have hown' : cmd? v s.jr.next = some (newCmd r op home e s) := by rw [carm, if_neg hnew.symm, hown]
  obtain ⟨town, cown⟩ := ended_finishCmd stDone 0 0 0 hown' rfl (harmed.ringed (hheld.ringed hu.ringed))
  obtain ⟨sown, howned⟩ := finishCmd_tells v s.jr.next stDone 0 0 0
  have hsends : Sends s (disarmed u) := hu.sends.trans (.of_eq dposted)
  refine ⟨town.earlier (hsends.trans sarm), (tarm.grow sown howned).earlier hsends, ?_⟩
  rw [cown, if_neg hnew, carm, if_pos rfl]

theorem sameOutside_disarmed {r op home : Nat} {e : Entry} {s u : State} (hu : Begun r op e home s u) : sameOutside s (disarmed u) := by
  obtain ⟨rs, ds, h⟩ := disarmed_eq u
  have hout : sameOutside s u := sameOutside_of_within hu.beside
  rw [h]
  exact hout

theorem disarm_completes {r : Nat} {e : Entry} {s : State} {k : Cmd} (hg : Granted r opDisarm e [homeOf opDisarm] s) (hw : s.cap.state = .waiting)
    (hk : Tellable s s.cap.origin k) : Answers (.disarm r e) s (DisarmDone r e k s) := by
  have hf : freshSeq s = true := fresh_of_granted hg
  refine answers_begun rfl hg rfl ?_ rfl rfl rfl fun u hu hc => ?_
  · simp [busyIf, hw]
  · have hcap := cap_of_capture hc
    have horigin : (endOrbits u).cap.origin = s.cap.origin := by
      obtain ⟨rs, ds, h⟩ := endOrbits_eq u
      rw [h, ← hcap]
    dsimp only
    rw [horigin]
    change sameOutside s (finishCmd s.jr.next stDone 0 0 0 (finishCmd s.cap.origin stAborted 0 0 0 (disarmed u))) ∧
      DisarmDone r e k s (finishCmd s.jr.next stDone 0 0 0 (finishCmd s.cap.origin stAborted 0 0 0 (disarmed u)))
    obtain ⟨htold, hended⟩ := disarm_tells hu hf hk
    obtain ⟨_, _, _, _, dseqs, dcap⟩ := disarmed_keeps u
    have ub := hu.beside.1
    obtain ⟨b1, _, q1⟩ := finishCmd_keeps (disarmed u) s.cap.origin stAborted 0 0 0
    obtain ⟨b2, _, q2⟩ := finishCmd_keeps (finishCmd s.cap.origin stAborted 0 0 0 (disarmed u)) s.jr.next stDone 0 0 0
    have hb := b2.trans b1
    have hcaps := (finishCmd_cap (finishCmd s.cap.origin stAborted 0 0 0 (disarmed u)) s.jr.next stDone 0 0 0).trans
      (finishCmd_cap (disarmed u) s.cap.origin stAborted 0 0 0)
    generalize finishCmd s.jr.next stDone 0 0 0 (finishCmd s.cap.origin stAborted 0 0 0 (disarmed u)) = t at *
    have hquads := quads_of_beside ub
    have hreg : ∀ off, isLogReg off = false → reg t off = reg (endOrbits u) off := fun off ho => (reg_of_beside hb ho).trans rfl
    refine ⟨sameOutside_of_beside hb (sameOutside_disarmed hu), htold, hended, hcaps.trans (dcap.trans (by rw [hcap])), fun sc hsc => ?_, fun off ho hoff => ?_, fun q => ?_, ?_⟩
    · have hlt : sc < subCount u := by unfold subCount at hsc ⊢; rwa [hquads]
      have hch : sc / 2 < 8 := by
        have := chCount_le s
        unfold subCount at hsc; unfold chCount at this; omega
      rw [← orbOf_endOrbits u hlt, orbOf, orbOf, rf, rf, hreg _ (isLogReg_chCtl _ hch)]
    · have hcount : chCount u = chCount s := by unfold chCount; rw [hquads]
      rw [hreg off ho, reg_endOrbits u (by rwa [hcount]), reg_of_beside ub ho]
    · rw [(q2 q).1, (q1 q).1, sq, dseqs]
      exact rest_of_beside hu.beside q
    · rw [beside_withIdle hb]
      obtain ⟨rs, ds, h⟩ := disarmed_eq u
      rw [h]
      exact (beside_withIdle ub s.cap s.regs s.dram.subs).trans rfl

end Sys2Proof.Machine
end

section
/-! PROOFS. The beginning of a capture at T0 (R106, R131, R142, R372), and the obligation on the commands of a capture. -/

namespace Sys2Proof.Machine

variable (s : State)

/-! ### What it makes -/

/-- The streams, automata and lanes of a capture at its T0. -/
def startedCapture (s : State) : State :=
  { s with
    streams := (pStreams (plan s)).map fun i => (i, freshStream (plan s) i s.cap.t0),
    au := freshAutos (plan s) s.au,
    lanes := s.lanes.map fun p => (p.1, { p.2 with hist := LaneHist.reset }),
    cap := { s.cap with state := .running, segs := [firstSeg s.cap.t0], begun := 1, ended := 0, endAt := none, anyBegun := true, jumps := [] } }

/-- A capture that begins while the timebase is not locked says so in every active stream (R142). -/
def notesTimebase (s t : State) : State :=
  if tbState s = tbEclipse ∨ tbState s = tbReacquire then intoActive (timebaseRec s.cap.t0 5 (tbState s) (tbOffset s) s.tb.lastEclipse 0) t else t

/-- The time of a peak plan begins (R372). -/
def startsPeak (s t : State) : State :=
  if peakPlan s then setRf 0x50000 24 24 1 { t with pwr := { t.pwr with peakStart := nowT t, peakDone := false } } else t

/-- What the beginning of a capture makes before it is entered in the journal. -/
def begunCapture (s : State) : State := startsPeak s (notesTimebase s (startedCapture s))

theorem doCaptureBegin_eq (hw : s.cap.state = .waiting) (ht : s.cap.t0 ≤ s.tb.tick) :
    doCaptureBegin s = setSource (srcCap 2) (jcommit (.capture false none s.cap.tag s.cap.t0) (begunCapture s)) := by
  unfold doCaptureBegin
  rw [if_pos ⟨hw, ht⟩]
  rfl

theorem doCaptureBegin_of_not_due (h : s.cap.state ≠ .waiting ∨ s.tb.tick < s.cap.t0) : doCaptureBegin s = s := by
  unfold doCaptureBegin
  rw [if_neg fun hdue => h.elim (fun hw => hw hdue.1) fun ht => absurd hdue.2 (Nat.not_le.2 ht)]

/-! ### What a stream keeps while records and journal entries are added to it -/

/-- A stream without the records that wait for its writer and its last COMMIT entry. -/
def Stream.still (x : Stream) : Stream := { x with q := [], commit := none }

theorem strm_of_streams {s t : State} (h : t.streams = s.streams) (i : Nat) : strm t i = strm s i := by simp only [strm, h]

theorem enqueue_still (j : Nat) (q : QRec) (i : Nat) : (strm (enqueue j q s) i).still = (strm s i).still := by
  unfold enqueue
  by_cases hi : i = j
  · subst hi; rw [strm_setStrm_same]; rfl
  · rw [strm_setStrm_ne _ _ hi]

theorem intoActive_streams (q : QRec) : ∃ xs, intoActive q s = { s with streams := xs } := by
  unfold intoActive
  generalize activeAt s q.ts = l
  induction l generalizing s with
  | nil => exact ⟨s.streams, rfl⟩
  | cons j l ih =>
    obtain ⟨xs, h⟩ := ih (enqueue j q s)
    exact ⟨xs, h.trans rfl⟩

theorem intoActive_still (q : QRec) (i : Nat) : (strm (intoActive q s) i).still = (strm s i).still := by
  unfold intoActive
  generalize activeAt s q.ts = l
  induction l generalizing s with
  | nil => rfl
  | cons j l ih => rw [List.foldl_cons, ih, enqueue_still]

theorem noteCommit_still (d : CommitDue) (x : Stream) : (noteCommit d x).still = x.still := by
  unfold noteCommit
  repeat' split
  all_goals rfl

@[simp] theorem addReq_streams (a cls : Nat) (d : Option (List Byte)) (b : ReqBy) : (addReq a cls d b s).streams = s.streams := by
  unfold addReq
  dsimp only
  repeat' split
  all_goals simp

theorem entryDone_still (b : JBody) (i : Nat) : (strm (entryDone b s) i).still = (strm s i).still := by
  unfold entryDone
  split
  · rename_i j d
    by_cases hi : i = j
    · subst hi; rw [strm_setStrm_same, noteCommit_still]
    · rw [strm_setStrm_ne _ _ hi]
  · rfl

theorem jwrite_still (carry : Bool) (b : JBody) (i : Nat) : (strm (jwrite carry b s) i).still = (strm s i).still := by
  unfold jwrite
  dsimp only
  split
  · rw [strm_of_streams ((addReq_streams _ _ _ _ _).trans (addReq_streams _ _ _ _ _))]; rfl
  · rw [entryDone_still]; rfl

theorem jcarry_still (f : Nat) (carry : Bool) (b : JBody) (i : Nat) : (strm (jcarry f carry b s) i).still = (strm s i).still := by
  induction f generalizing carry b s with
  | zero => exact jwrite_still s carry b i
  | succ f ih =>
    unfold jcarry
    dsimp only
    split
    · exact jwrite_still s carry b i
    · rw [ih, strm_of_streams (setSource_streams _ _), jwrite_still]

/-- A journal entry leaves a stream but for its last COMMIT entry (R155). -/
theorem jcommit_still (b : JBody) (i : Nat) : (strm (jcommit b s) i).still = (strm s i).still := jcarry_still s _ _ _ i

theorem tblGet_map_key {α : Type} (l : List Nat) (f : Nat → α) (d : α) {i : Nat} (h : i ∈ l) : tblGet (l.map fun k => (k, f k)) i d = f i := by
  induction l with
  | nil => cases h
  | cons k l ih =>
    simp only [List.map_cons, tblGet]
    split
    · rename_i hk; rw [hk]
    · rename_i hk; exact ih ((List.mem_cons.1 h).resolve_left fun he => hk he.symm)

theorem strm_startedCapture {i : Nat} (h : i ∈ pStreams (plan s)) : strm (startedCapture s) i = freshStream (plan s) i s.cap.t0 :=
  tblGet_map_key _ _ _ h

/-! ### The steps of the beginning -/

theorem notesTimebase_eq (t : State) : ∃ xs, notesTimebase s t = { t with streams := xs } := by
  unfold notesTimebase
  split
  · exact intoActive_streams t _
  · exact ⟨t.streams, rfl⟩

theorem notesTimebase_still (t : State) (i : Nat) : (strm (notesTimebase s t) i).still = (strm t i).still := by
  unfold notesTimebase
  split
  · exact intoActive_still t _ i
  · rfl

theorem startsPeak_eq (t : State) : ∃ rs pw, startsPeak s t = { t with regs := rs, pwr := pw } := by
  unfold startsPeak
  split
  · exact ⟨_, _, rfl⟩
  · exact ⟨t.regs, t.pwr, rfl⟩

theorem reg_startsPeak (t : State) {off : Nat} (h : off ≠ 0x50000) : reg (startsPeak s t) off = reg t off := by
  unfold startsPeak
  split
  · exact reg_setRf_ne _ _ _ _ h
  · rfl

theorem begunCapture_eq : ∃ xs rs pw, begunCapture s = { startedCapture s with streams := xs, regs := rs, pwr := pw } := by
  obtain ⟨xs, hx⟩ := notesTimebase_eq s (startedCapture s)
  obtain ⟨rs, pw, hp⟩ := startsPeak_eq s (notesTimebase s (startedCapture s))
  exact ⟨xs, rs, pw, by rw [begunCapture, hp, hx]⟩

theorem reg_begunCapture {off : Nat} (h : off ≠ 0x50000) : reg (begunCapture s) off = reg s off := by
  obtain ⟨xs, hx⟩ := notesTimebase_eq s (startedCapture s)
  rw [begunCapture, reg_startsPeak s _ h, hx]
  rfl

/-- Every stream of the plan is fresh, but for records that wait for its writer (R131, R142, R146). -/
theorem begunCapture_still {i : Nat} (h : i ∈ pStreams (plan s)) :
    (strm (begunCapture s) i).still = (freshStream (plan s) i s.cap.t0).still := by
  obtain ⟨rs, pw, hp⟩ := startsPeak_eq s (notesTimebase s (startedCapture s))
  rw [begunCapture, strm_of_streams (s := notesTimebase s (startedCapture s)) (by rw [hp]), notesTimebase_still, strm_startedCapture s h]

/-- States that agree beside commands agree so with what the beginning of a capture sets put into both. -/
theorem beside_withBegun {s t : State} (h : t.beside = s.beside) (c : Cap) (a : Autos) (ls : Tbl LaneSt) (rs : Tbl W32) (pw : Power) :
    ({ t with cap := c, au := a, lanes := ls, regs := rs, pwr := pw } : State).beside =
      ({ s with cap := c, au := a, lanes := ls, regs := rs, pwr := pw } : State).beside := by
  have hover : ∀ x : State, ({ x with cap := c, au := a, lanes := ls, regs := rs, pwr := pw } : State).beside =
      { x.beside with
        cap := { c with endAt := none, segs := [], begun := 0 },
        au := { a with edges := [], hevs := [], casDue := [], inbound := [], shown := [], lastSlice := none },
        lanes := ls, regs := rs.filter fun p => !isLogReg p.1, pwr := pw } := fun _ => rfl
  rw [hover, hover, h]

/-- What CAPTURE_BEGIN does at T0. -/
def CaptureBegun (s t : State) : Prop :=
  t.cap.state = .running ∧ t.cap.segs = [firstSeg s.cap.t0] ∧ t.cap.endAt = none ∧ t.cap.anyBegun = true ∧ bit (reg t 0x180020).toNat 2 = true ∧
    (∀ i ∈ pStreams (plan s), (strm t i).active = true ∧ (strm t i).c = pBase (plan s) i) ∧
    (tbState s ≠ tbEclipse → tbState s ≠ tbReacquire → ∀ i ∈ pStreams (plan s), (strm t i).recs = [] ∧ (strm t i).full = none) ∧
    t.au.autos.map (fun a => a.st) = (List.range 8).map (pInit (plan s)) ∧ t.au.forced = [] ∧ t.cmds = s.cmds ∧ t.seqs = s.seqs ∧
    keepsRegs [0x50000] s t ∧
    ({ t with cap := s.cap, au := s.au, lanes := s.lanes, regs := s.regs, pwr := s.pwr } : State).beside = s.beside

theorem captureBegin_begins {s : State} (ha : Alive s) (hw : s.cap.state = .waiting) (ht : s.cap.t0 ≤ s.tb.tick) :
    Answers .captureBegin s (CaptureBegun s) := by
  obtain ⟨xs, rs, pw, hv⟩ := begunCapture_eq s
  have hbegin := doCaptureBegin_eq s hw ht
  have hj := kept_jcommit (begunCapture s) (.capture false none s.cap.tag s.cap.t0)
  have hjcmds := jcommit_cmds (begunCapture s) (.capture false none s.cap.tag s.cap.t0)
  have hstill : ∀ i ∈ pStreams (plan s), (strm (doCaptureBegin s) i).still = (freshStream (plan s) i s.cap.t0).still := fun i hi => by
    rw [hbegin, strm_of_streams (setSource_streams _ _), jcommit_still, begunCapture_still s hi]
  have hcapture : (doCaptureBegin s).capture = (startedCapture s).capture := by
    rw [hbegin, setSource_capture, jcommit_capture, hv]; rfl
  have hcap := cap_of_capture hcapture
  have hau := au_of_capture hcapture
  have hbeside : (doCaptureBegin s).beside = (begunCapture s).beside := by rw [hbegin, setSource_beside, hj.1]
  have hbit : bit (reg (doCaptureBegin s) 0x180020).toNat 2 = true := by
    rw [hbegin]; exact setSource_sets _ (n := srcCap 2) rfl rfl rfl (by decide)
  have hcmds : (doCaptureBegin s).cmds = s.cmds := by rw [hbegin, setSource_cmds, hjcmds, hv]; rfl
  have hseqs : (doCaptureBegin s).seqs = s.seqs := by rw [hbegin, setSource_seqs, hj.2.2, hv]; rfl
  have hout : sameOutside s (doCaptureBegin s) := sameOutside_of_beside hbeside (by rw [hv]; exact sameOutside_refl s)
  refine answers_intro ha rfl hout ?_
  generalize doCaptureBegin s = t at *
  refine ⟨by rw [hcap]; rfl, by rw [hcap]; rfl, by rw [hcap]; rfl, by rw [hcap]; rfl, hbit, fun i hi => ⟨?_, ?_⟩, fun _ _ i hi => ⟨?_, ?_⟩,
    by rw [hau]; simp [startedCapture, freshAutos], by rw [hau]; rfl, hcmds, hseqs, fun off ho hoff => ?_, ?_⟩
  · exact (congrArg Stream.active (hstill i hi) :)
  · exact (congrArg Stream.c (hstill i hi) :)
  · exact (congrArg Stream.recs (hstill i hi) :)
  · exact (congrArg Stream.full (hstill i hi) :)
  · rw [reg_of_beside hbeside ho, reg_begunCapture s (by rintro rfl; cases hoff)]
  · rw [beside_withBegun hbeside, hv]; rfl

/-! ### The obligation -/

/-- Settles O44: each command is taken from its entry to its end by `answers_begun`, and CAPTURE_BEGIN through what it makes before its journal entry. -/
theorem captureCommandsComplete : Obligations.CaptureCommandsComplete := by
  unfold Obligations.CaptureCommandsComplete
  refine ⟨fun r e s hg h0 h1 hen hev => forceTrigger_orders hg h0 h1 hen hev, fun r e s hg hopt hon => ?_,
    fun r e s k hg hopt hk => ⟨stop_aborts rfl hg hopt hk, stop_aborts rfl hg hopt hk⟩, fun r e s k hg hw hk => disarm_completes hg hw hk,
    fun s ha => ⟨fun hnot => ?_, fun hw ht => captureBegin_begins ha hw ht⟩⟩
  · obtain ⟨t, hexec, hdone, hsooner, hlater, hbeside⟩ := stop_orders hg hopt hon
    refine ⟨t, hexec, hdone, ?_, hbeside⟩
    cases hend : s.cap.endAt with
    | none => exact hlater fun l w h => by rw [hend] at h; cases h
    | some p =>
      dsimp only
      split
      · rename_i hl; exact hsooner _ _ hend hl
      · rename_i hl
        exact hlater fun l w h => by rw [hend] at h; cases h; exact Nat.not_le.1 hl
  · have hexec : exec .captureBegin s = engineStep s (doCaptureBegin s) := rfl
    rw [hexec, doCaptureBegin_of_not_due s hnot, engineStep_alive ha, keepOutside_same (sameOutside_refl s)]
    exact ⟨s, rfl, rfl⟩

end Sys2Proof.Machine
end
